-- ==== Sys2Proof/Word.lean ====
section
/-!
DEFINITION. The word types of the ZQA-8192 (00 R2: bit 0 is the least significant bit, little-endian bytes) and
the one table type every sparse store of the machine uses.
-/

namespace Sys2Proof

/-- A byte of memory or of a register store. -/
abbrev Byte := BitVec 8

/-- A 64-bit register (01 R16). -/
abbrev W64 := BitVec 64

/-- A vector register or a queue entry (01 R16, 07 R159). -/
abbrev W128 := BitVec 128

/-- A sparse table: keys strictly rising, a key absent where the table's default holds. -/
abbrev Tab (α : Type) := List (Nat × α)

/-- A sparse byte store: the same form as Host.Cell lists. -/
abbrev Bytes := List (Nat × BitVec 8)

end Sys2Proof
end

