-- ==== Sys2Proof/Machine/Bits.lean ====
section
/-!
DEFINITION. Bit fields, sign extension, little-endian bytes and the sparse tables that hold numbered things.
-/

namespace Sys2Proof.Machine

open Sys2Proof

/-! ### Tables -/

/-- The entry of key k, if the table lists it. -/
def tfind (t : Tab α) (k : Nat) : Option α :=
  match t with
  | [] => none
  | (j, v) :: r => if j = k then some v else tfind r k

/-- The entry of key k, or the default. -/
def tget (t : Tab α) (k : Nat) (d : α) : α := (tfind t k).getD d

/-- The table with v at key k. -/
def tput (t : Tab α) (k : Nat) (v : α) : Tab α :=
  match t with
  | [] => [(k, v)]
  | (j, u) :: r => if j = k then (k, v) :: r else if k < j then (k, v) :: (j, u) :: r else (j, u) :: tput r k v

/-- The table without key k. -/
def tdel (t : Tab α) (k : Nat) : Tab α :=
  match t with
  | [] => []
  | (j, u) :: r => if j = k then r else (j, u) :: tdel r k

/-- The table with v at key k, unlisted when v is the default d. -/
def tset [DecidableEq α] (t : Tab α) (k : Nat) (v d : α) : Tab α := if v = d then tdel t k else tput t k v

/-- The table with its entry k changed by f; an unlisted entry counts as d. -/
def tmod (t : Tab α) (k : Nat) (d : α) (f : α → α) : Tab α := tput t k (f (tget t k d))

/-- Keys strictly rising. -/
def tsorted (t : Tab α) : Bool :=
  match t with
  | [] => true
  | [_] => true
  | (j, _) :: (k, v) :: r => decide (j < k) && tsorted ((k, v) :: r)

/-! ### Bit fields -/

/-- Bits [lo+len-1:lo] of a word as a number. -/
def bf (w : BitVec n) (lo len : Nat) : Nat := (w.toNat >>> lo) % 2 ^ len

/-- Bit i of a word. -/
def bit (w : BitVec n) (i : Nat) : Bool := w.getLsbD i

/-- The word of a number in len bits at lo, over a word. -/
def bput (w : BitVec n) (lo len v : Nat) : BitVec n :=
  BitVec.ofNat n (w.toNat - bf w lo len * 2 ^ lo + (v % 2 ^ len) * 2 ^ lo)

/-- A 64-bit word of a number. -/
def w64 (n : Nat) : W64 := BitVec.ofNat 64 n

/-- A Bool as a bit. -/
def b2n (b : Bool) : Nat := if b then 1 else 0

/-- Sext of the low n bits of a number to 64 bits (R178). -/
def sext (n v : Nat) : W64 :=
  let m := v % 2 ^ n
  if n ≤ 64 ∧ 0 < n ∧ 2 ^ (n - 1) ≤ m then w64 (m + (2 ^ 64 - 2 ^ n)) else w64 m

/-- The signed value of the low n bits of a number. -/
def sval (n v : Nat) : Int :=
  let m := v % 2 ^ n
  if 0 < n ∧ 2 ^ (n - 1) ≤ m then (m : Int) - (2 ^ n : Nat) else m

/-- An integer modulo 2^n. -/
def wrap (n : Nat) (i : Int) : Nat := (i % ((2 ^ n : Nat) : Int)).toNat

/-- A counter of n bits that stays at its largest value (R76). -/
def satAdd (v : BitVec n) (k : Nat) : BitVec n := BitVec.ofNat n (Nat.min (v.toNat + k) (2 ^ n - 1))

/-! ### Bytes -/

/-- Byte i of a number, little-endian. -/
def byteOf (v i : Nat) : Byte := BitVec.ofNat 8 (v >>> (8 * i))

/-- The number of a list of bytes, little-endian. -/
def leNat (l : List Byte) : Nat :=
  match l with
  | [] => 0
  | b :: r => b.toNat + 256 * leNat r

/-- The n little-endian bytes of a number. -/
def leBytes (n v : Nat) : List Byte := (List.range n).map (byteOf v)

/-- n bytes from address a of a byte reader. -/
def gather (rd : Nat → Byte) (a n : Nat) : Nat := leNat ((List.range n).map (fun i => rd (a + i)))

/-- The larger power-of-two address at or below a. -/
def alignTo (n a : Nat) : Nat := a - a % n

/-- Position i of a list replaced by v; the list keeps its length. -/
def listPut (l : List α) (i : Nat) (v : α) : List α := l.set i v

end Sys2Proof.Machine
end

