-- ==== Sys2Proof/Machine/Alu.lean ====
section
/-!
DEFINITION. Integer operations on w-bit values, shared by the access half (08 R180), the execute half (09 R206) and the
vector lanes (10 R243); division as 06 R124 states it.
-/

namespace Sys2Proof.Machine

open Sys2Proof

/-- The two-operand integer operations. -/
inductive IntOp where
  | add | sub | mul | mulh | mulhu | and | or | xor | shl | shr | sar | min | max | minu | maxu | slt | sltu | seq | sadd | saddu
  deriving DecidableEq, Repr

/-- A signed value clamped to lo and hi. -/
def clamp (lo hi v : Int) : Int := if v < lo then lo else if hi < v then hi else v

/-- The result of an operation on two w-bit operands, taken mod 2^w. -/
def IntOp.eval (op : IntOp) (w a b : Nat) : Nat :=
  let a := a % 2 ^ w
  let b := b % 2 ^ w
  let as := sval w a
  let bs := sval w b
  let s := b % w
  match op with
  | .add => (a + b) % 2 ^ w
  | .sub => wrap w ((a : Int) - b)
  | .mul => a * b % 2 ^ w
  | .mulh => wrap w (as * bs / ((2 ^ w : Nat) : Int))
  | .mulhu => a * b / 2 ^ w
  | .and => a &&& b
  | .or => a ||| b
  | .xor => a ^^^ b
  | .shl => a * 2 ^ s % 2 ^ w
  | .shr => a / 2 ^ s
  | .sar => wrap w (as / ((2 ^ s : Nat) : Int))
  | .min => if as ≤ bs then a else b
  | .max => if bs ≤ as then a else b
  | .minu => if a ≤ b then a else b
  | .maxu => if b ≤ a then a else b
  | .slt => b2n (decide (as < bs))
  | .sltu => b2n (decide (a < b))
  | .seq => b2n (a == b)
  | .sadd => wrap w (clamp (-((2 ^ (w - 1) : Nat) : Int)) (((2 ^ (w - 1) : Nat) : Int) - 1) (as + bs))
  | .saddu => Nat.min (a + b) (2 ^ w - 1)

/-- Quotient, remainder and whether the divisor is zero (R124). -/
def divide (signed : Bool) (w a b : Nat) : Nat × Nat × Bool :=
  let a := a % 2 ^ w
  let b := b % 2 ^ w
  if b = 0 then (2 ^ w - 1, a, true)
  else if signed then
    let q := (sval w a).tdiv (sval w b)
    (wrap w q, wrap w (sval w a - q * sval w b), false)
  else (a / b, a % b, false)

/-- Leading zero bits of a w-bit value. -/
def leadingZeros (w a : Nat) : Nat := let a := a % 2 ^ w; if a = 0 then w else w - 1 - Nat.log2 a

/-- One bits of a w-bit value. -/
def popCount (w a : Nat) : Nat := ((List.range w).map (fun i => b2n (a.testBit i))).sum

end Sys2Proof.Machine
end

