-- ==== Sys2Proof/Config.lean ====
section
/-!
DEFINITION. What one ZQA-8192 fixes (unit counts and capacities of 00 R6, 01 R9, 18 R334) and the free values: the
results the spec leaves open, as opaque constants without a body.
-/

namespace Sys2Proof.Config

/-- Cores of the module (01 R9). -/
def cores : Nat := 8192
/-- Teams of the module (01 R9). -/
def teams : Nat := 1024
/-- Clusters of the module (01 R9). -/
def clusters : Nat := 64
/-- Dies of the module (01 R9). -/
def dies : Nat := 4
/-- Virtual functions (20 R351). -/
def vfs : Nat := 192
/-- TCM bytes of a core (01 R9). -/
def tcmBytes : Nat := 65536
/-- Scratchpad bytes of a cluster (01 R9). -/
def padBytes : Nat := 4194304
/-- Undo-log lines of a core (04 R84). -/
def undoLines : Nat := 256
/-- Version-pool entries of a cluster (04 R85). -/
def poolEntries : Nat := 8192
/-- Pending WINSET entries of a cluster (08 R199). -/
def winsetEntries : Nat := 512
/-- Delta-store entries of a die (04 R88). -/
def deltaEntries : Nat := 131072
/-- Mailbox words of a core (11 R299). -/
def mailboxWords : Nat := 256
/-- Entries of a neighbour channel (01 R14). -/
def channelEntries : Nat := 8
/-- Range-scoreboard entries of a core (04 R93). -/
def scoreboardEntries : Nat := 16
/-- Buffer-table entries of a core (04 R96). -/
def bufferEntries : Nat := 1024
/-- Entries of the translation caches of a core, a cluster and a die (21 R369). -/
def coreCache : Nat := 32
def clusterCache : Nat := 2048
def dieCache : Nat := 32768
/-- Queued commands of a team copy unit (08 R195). -/
def copyQueue : Nat := 32
/-- Queued jobs of a team (11 R272). -/
def jobQueue : Nat := 32
/-- Near-bank commands in flight per core (11 R289). -/
def bankInFlight : Nat := 8
/-- Collective operations per die (11 R293). -/
def collSlots : Nat := 8
/-- Replay-store bytes of a cluster's stream distributor (11 R280). -/
def replayStore : Nat := 524288
/-- Features of the ZQA-8192 (19 R346). -/
def fset : BitVec 32 := 0x3FF#32

/-- FREE VALUE. A byte of scratch memory at a superstep boundary (04 R81): the generation of the store and its address. -/
opaque scratchByte : Nat → Nat → BitVec 8
/-- FREE VALUE. The instruction word reported for the target that a hint group at the end of a text section misses (07 R169). -/
opaque missingWord : BitVec 64 → BitVec 64
/-- FREE VALUE. The 16-bit domain identifier that the launch controller draws (02 R429), by the drawing's number. -/
opaque domainId : Nat → BitVec 16
/-- FREE VALUE. The identifier that the device holding member 0 assigned to a job's commit domain (02 R429), by that device,
the job and the drawing's number. -/
opaque farDomainId : Nat → Nat → Nat → BitVec 16
/-- FREE VALUE. The number of cores that participate in a job on another device (02 R23), by the launch's drawing and the device. -/
opaque farCores : Nat → Nat → Nat
/-- FREE VALUE. Whether no member core on another device has an active general context (02 R30), by domain identifier and SSN. -/
opaque farRetired : BitVec 16 → BitVec 48 → Bool
/-- FREE VALUE. Whether a home on another device has room for a delta (11 R298), by the reservation's number. -/
opaque foreignRoom : Nat → Bool
/-- FREE VALUE. Which of the accesses that may be performed next is performed (05 R108, R121), by the number of the choice. -/
opaque performChoice : Nat → Nat
/-- FREE VALUE. The keyed check of a capability under the paddock's key (11 R283). -/
opaque capCheck : BitVec 64 → BitVec 42 → BitVec 22
/-- FREE VALUE. A fresh paddock key, tenant key or ticket secret, by the drawing's number (11 R283, 21 R375, 22 R381). -/
opaque freshKey : Nat → BitVec 64
/-- FREE VALUE. Whether the membership lists of the devices of a job agree (23 R397), by the comparison's number. -/
opaque digestsAgree : Nat → Bool
/-- FREE VALUE. Which of two immediate WINSETs of different cores to one entry stays (04 R79). -/
opaque winsetFirst : Nat → Bool
/-- FREE VALUE. Whether an aborted engine command had written live memory (02 R42). -/
opaque abortedCompletes : Nat → Bool
/-- FREE VALUE. Whether the data of a page that a departed peer or a broken backing held are lost (21 R370, R375). -/
opaque pageLost : Nat → Nat → Bool
/-- FREE VALUE. Whether a page's ciphertext came to differ while a peer held it (21 R375), by tenant, page and copy. -/
opaque peerAltered : Nat → Nat → Nat → Bool
/-- FREE VALUE. The cluster or port whose start step fails (22 R387), by the starts so far and the step. -/
opaque failedUnit : Nat → Nat → Nat
/-- FREE VALUE. What a port's cable leads to (23 R396, R404): the device and its port, by the trainings so far and the port. -/
opaque cablePeer : Nat → Nat → BitVec 12
opaque cablePort : Nat → Nat → BitVec 5
/-- FREE VALUE. The estimated error of the heartbeat against its master in ns (23 R396), by the tick. -/
opaque beatError : Nat → Nat
/-- FREE VALUE. The boot ROM's bytes, and those of the save, restore and self-test stubs of a Rovas image (26 R424). -/
opaque bootRom : List Nat
opaque stubs : List Nat → List Nat
/-- FREE VALUE. The ML-DSA-87 check of a firmware image under the release key (26 R420). -/
opaque signatureOk : List Nat → Bool
/-- FREE VALUE. A bank of flash takes the image that a STAGE writes (26 R422, RESULT 4). -/
opaque flashOk : Nat → Bool
/-- An ML-DSA-87 key pair of the management controller, named by what it is derived from (26 R423): the fused secret and, for an
alias key, the measurement of a Rovas image; so other measurements give other keys. -/
structure DsaKey where
  secret : BitVec 512
  image : Option (BitVec 512)
  deriving DecidableEq, Repr
/-- FREE VALUE. The unique secret fused in the controller, the device's serial number, and the key certificate of Orelm's
manufacturing authority: its signature over bytes (26 R423). -/
opaque fusedSecret : BitVec 512
opaque serialNumber : List Nat
opaque authoritySign : List Nat → List Nat
/-- The part number ZQA-8192, in ASCII (26 R423). -/
def partNumber : List Nat := [0x5A, 0x51, 0x41, 0x2D, 0x38, 0x31, 0x39, 0x32]
/-- FREE VALUE. The public key of a key pair, and its ML-DSA-87 signature over bytes (FIPS 204). -/
opaque dsaPublic : DsaKey → List Nat
opaque dsaSign : DsaKey → List Nat → List Nat
/-- FREE VALUE. The device's ML-KEM-1024 share for a requester's, and the session keys drawn from the shared secret, both by the
share and the drawing's number (26 R425, FIPS 203). -/
opaque kemShare : Nat → Nat → List Nat
opaque sessionSecret : Nat → Nat → BitVec 256
/-- FREE VALUE. The check value of FINISH, by function and session keys (26 R425). -/
opaque finishMac : Nat → BitVec 256 → Nat
/-- FREE VALUE. The SVN and the length that a firmware image's header gives (26 R420). -/
opaque imageSvn : List Nat → BitVec 16
opaque imageLength : List Nat → Nat
/-- FREE VALUE. Whether the fabric carries a whole migration (22 R382), by the migration's number. -/
opaque fabricOk : Nat → Bool
/-- FREE VALUE. The time in µs that a warm reset or a start step takes (22 R385, R389), by the resets and starts so far. -/
opaque elapsed : Nat → BitVec 32

end Sys2Proof.Config
end

