-- ==== Sys2Proof/Machine/Crypto.lean ====
section
/-!
DEFINITION. The two named standards whose results the machine's state holds (00 R7): SHA3-512 of FIPS 202, for measurements
(26 R424), and AES-256-XTS of IEEE 1619 with 64-byte data units, for tenant memory (21 R375). Byte 0 of a number is its
least significant byte.
-/

namespace Sys2Proof.Machine

open Sys2Proof

/-! ### SHA3-512 (FIPS 202) -/

/-- The round constants of Keccak-f[1600]. -/
def keccakConstants : List W64 :=
  [0x0000000000000001#64, 0x0000000000008082#64, 0x800000000000808A#64, 0x8000000080008000#64, 0x000000000000808B#64, 0x0000000080000001#64,
   0x8000000080008081#64, 0x8000000000008009#64, 0x000000000000008A#64, 0x0000000000000088#64, 0x0000000080008009#64, 0x000000008000000A#64]
  ++ [0x000000008000808B#64, 0x800000000000008B#64, 0x8000000000008089#64, 0x8000000000008003#64, 0x8000000000008002#64, 0x8000000000000080#64,
   0x000000000000800A#64, 0x800000008000000A#64, 0x8000000080008081#64, 0x8000000000008080#64, 0x0000000080000001#64, 0x8000000080008008#64]

/-- The rotation of lane x + 5y. -/
def keccakRotations : List Nat := [0, 1, 62, 28, 27, 36, 44, 6, 55, 20, 3, 10, 43, 25, 39, 41, 45, 15, 21, 8, 18, 2, 61, 56, 14]

/-- One round over the 25 lanes, lane x + 5y in its place: theta, rho and pi, chi, iota. -/
def keccakRound (a : List W64) (rc : W64) : List W64 :=
  let column := (List.range 5).map (fun x => (List.range 5).foldl (fun v y => v ^^^ a.getD (x + 5 * y) 0) 0)
  let theta := (List.range 25).map (fun i =>
    a.getD i 0 ^^^ column.getD ((i + 4) % 5) 0 ^^^ (column.getD ((i + 1) % 5) 0).rotateLeft 1)
  let moved := (List.range 25).map (fun i =>
    let j := (i % 5 + 3 * (i / 5)) % 5 + 5 * (i % 5)
    (theta.getD j 0).rotateLeft (keccakRotations.getD j 0))
  (List.range 25).map (fun i =>
    let at_ := fun k => moved.getD ((i % 5 + k) % 5 + 5 * (i / 5)) 0
    at_ 0 ^^^ (~~~ at_ 1 &&& at_ 2) ^^^ (if i = 0 then rc else 0))

/-- Keccak-f[1600]. -/
def keccak (a : List W64) : List W64 := keccakConstants.foldl keccakRound a

/-- A message of bytes with SHA-3's suffix, padded to whole blocks of 72 bytes. -/
def sha3Pad (l : List Nat) : List Nat :=
  let n := 71 - l.length % 72
  if n = 0 then l ++ [0x86] else l ++ 0x06 :: (List.replicate (n - 1) 0 ++ [0x80])

/-- The number whose bytes a list holds. -/
def ofBytes (l : List Nat) : Nat := l.foldr (fun b n => b % 256 + 256 * n) 0
/-- The low n bytes of a number. -/
def toBytes (n v : Nat) : List Nat := (List.range n).map (fun i => v / 256 ^ i % 256)

/-- A block of 72 bytes absorbed. -/
def sha3Block (a : List W64) (block : List Nat) : List W64 :=
  keccak (a.zipIdx.map (fun p => p.1 ^^^ if p.2 < 9 then w64 (ofBytes ((block.drop (8 * p.2)).take 8)) else 0))

/-- SHA3-512 of a message of bytes. -/
def sha3 (l : List Nat) : BitVec 512 :=
  let m := sha3Pad l
  let a := (List.range (m.length / 72)).foldl (fun a i => sha3Block a (m.drop (72 * i))) (List.replicate 25 0)
  BitVec.ofNat 512 ((a.take 8).foldr (fun x n => x.toNat + 2 ^ 64 * n) 0)

/-! ### AES-256 (FIPS 197) -/

/-- A byte of the field times x, and a product of two. -/
def gfDouble (b : Nat) : Nat := (2 * b % 256) ^^^ (if 128 ≤ b then 0x1B else 0)
def gfMul (a b : Nat) : Nat :=
  ((List.range 8).foldl (fun (p : Nat × Nat) i => (if b.testBit i then p.1 ^^^ p.2 else p.1, gfDouble p.2)) (0, a)).1
/-- The inverse of a byte, its power 254; of 0, 0. -/
def gfInverse (a : Nat) : Nat :=
  ((List.range 7).foldl (fun (p : Nat × Nat) _ => (gfMul p.1 (gfMul p.2 p.2), gfMul p.2 p.2)) (1, a)).1
/-- A byte turned left. -/
def rotByte (b n : Nat) : Nat := (b * 2 ^ n + b / 2 ^ (8 - n)) % 256
/-- The S-box and its inverse. -/
def subByte (b : Nat) : Nat :=
  let x := gfInverse b
  x ^^^ rotByte x 1 ^^^ rotByte x 2 ^^^ rotByte x 3 ^^^ rotByte x 4 ^^^ 0x63
def unsubByte (b : Nat) : Nat := gfInverse (rotByte b 1 ^^^ rotByte b 3 ^^^ rotByte b 6 ^^^ 0x05)

/-- The exclusive or of two lists of bytes. -/
def xorBytes (a b : List Nat) : List Nat := (a.zip b).map (fun p => p.1 ^^^ p.2)

/-- The 60 words of four bytes that a key of 32 bytes expands to. -/
def aesWords (key : List Nat) : List (List Nat) :=
  (List.range 52).foldl (fun (w : List (List Nat)) i =>
    let last := w.getD (i + 7) []
    let x :=
      if i % 8 = 0 then xorBytes ((last.drop 1 ++ last.take 1).map subByte) [2 ^ (i / 8), 0, 0, 0]
      else if i % 8 = 4 then last.map subByte
      else last
    w ++ [xorBytes (w.getD i []) x]) ((List.range 8).map (fun i => (key.drop (4 * i)).take 4))

/-- The round keys of 16 bytes. -/
def aesKeys (key : List Nat) : List (List Nat) :=
  let w := aesWords key
  (List.range 15).map (fun r => (List.range 4).flatMap (fun i => w.getD (4 * r + i) []))

/-- The rows of a block, byte r + 4c in row r, turned by their number: back in the inverse. -/
def shiftRows (back : Bool) (l : List Nat) : List Nat :=
  (List.range 16).map (fun i => l.getD (i % 4 + 4 * ((i / 4 + (if back then 4 - i % 4 else i % 4)) % 4)) 0)
/-- The columns of a block multiplied by a circulant. -/
def mixColumns (m l : List Nat) : List Nat :=
  (List.range 16).map (fun i => (List.range 4).foldl (fun v k => v ^^^ gfMul (m.getD ((4 + k - i % 4) % 4) 0) (l.getD (i / 4 * 4 + k) 0)) 0)

/-- AES-256 of a block of 16 bytes, and its inverse, under the round keys. -/
def aesEncrypt (keys : List (List Nat)) (l : List Nat) : List Nat :=
  (List.range 14).foldl (fun l i =>
    let x := shiftRows false (l.map subByte)
    xorBytes (if i = 13 then x else mixColumns [2, 3, 1, 1] x) (keys.getD (i + 1) [])) (xorBytes l (keys.getD 0 []))
def aesDecrypt (keys : List (List Nat)) (l : List Nat) : List Nat :=
  (List.range 14).foldl (fun l i =>
    let x := xorBytes ((shiftRows true l).map unsubByte) (keys.getD (13 - i) [])
    if i = 13 then x else mixColumns [14, 11, 13, 9] x) (xorBytes l (keys.getD 14 []))

/-! ### AES-256-XTS (IEEE 1619, 21 R375) -/

/-- The tweak of a data unit's next block. -/
def xtsNext (t : Nat) : Nat := (2 * t % 2 ^ 128) ^^^ (if t.testBit 127 then 0x87 else 0)

/-- The four blocks of a data unit under a block function and the unit's encrypted tweak. -/
def xtsBlocks (f : List Nat → List Nat) (tweak : Nat) (data : Nat) : Nat :=
  ((List.range 4).foldl (fun (p : Nat × Nat) i =>
    let x := ofBytes (f (toBytes 16 ((data / 2 ^ (128 * i) % 2 ^ 128) ^^^ p.2))) ^^^ p.2
    (p.1 + x * 2 ^ (128 * i), xtsNext p.2)) (0, tweak)).1

/-- The encrypted tweak of a data unit: its number under the key's upper half. -/
def xtsTweak (key : BitVec 512) (unit : Nat) : Nat := ofBytes (aesEncrypt (aesKeys (toBytes 32 (key.toNat / 2 ^ 256))) (toBytes 16 unit))

/-- AES-256-XTS of a line of 64 bytes, and its inverse: the key's lower half encrypts the data, the unit is the line's virtual
address, bits [54:6]. Which half is which, and the order of a key's bytes, are choices (DESIGN CHOICE, log 35). -/
def cipherLine (key : BitVec 512) (unit : Nat) (line : BitVec 512) : BitVec 512 :=
  BitVec.ofNat 512 (xtsBlocks (aesEncrypt (aesKeys (toBytes 32 (key.toNat % 2 ^ 256)))) (xtsTweak key unit) line.toNat)
def plainLine (key : BitVec 512) (unit : Nat) (line : BitVec 512) : BitVec 512 :=
  BitVec.ofNat 512 (xtsBlocks (aesDecrypt (aesKeys (toBytes 32 (key.toNat % 2 ^ 256)))) (xtsTweak key unit) line.toNat)

end Sys2Proof.Machine
end

