-- ==== Sys2Proof/Syntax.lean ====
section
/-!
DEFINITION. The instruction syntax of the ZQA-8192: one constructor per row of spec/opcode_table.json.
The first 214 rows are the 32-bit words of 07 R171/R172 with their fields as the table splits them (raw operand
codes, widths and function fields; a value the spec forbids is a value here too and traps in its meaning).
The other rows are the steps the device, its host and its links take without an instruction word (95); their
arguments name the unit the step happens to and what arrives from outside the device.
-/

namespace Sys2Proof

/-- A party of the two-pass commit of 02 R37: a member core, or a home (a cluster's version pool, a die's delta store). -/
inductive Party where
  | core (c : Nat)
  | cluster (k : Nat)
  | die (d : Nat)
  deriving DecidableEq, Repr

/-- What a start finds (22 R387): the steps that fail, the lanes that step 5 finds failing, as edge, module, direction and lane, and
the device number that step 15 assigns. -/
structure StartInput where
  failing : List Nat := []
  lanes : List (Nat × Nat × Nat × Nat) := []
  dev : Nat := 0
  deriving DecidableEq, Repr

/-- The instructions and steps of spec/opcode_table.json, one constructor per row. -/
inductive Instr where
  /-- AADD (R180). AH adds two operands at the selected width and writes the sign-extended result. -/
  | aadd (d : BitVec 6) (a : BitVec 6) (b : BitVec 6) (w : BitVec 2)
  /-- ASUB (R180). AH subtracts b from a at the selected width. -/
  | asub (d : BitVec 6) (a : BitVec 6) (b : BitVec 6) (w : BitVec 2)
  /-- AAND (R180). AH bitwise and. -/
  | aand (d : BitVec 6) (a : BitVec 6) (b : BitVec 6) (w : BitVec 2)
  /-- AORR (R180). AH bitwise or. -/
  | aorr (d : BitVec 6) (a : BitVec 6) (b : BitVec 6) (w : BitVec 2)
  /-- AXOR (R180). AH bitwise exclusive or. -/
  | axor (d : BitVec 6) (a : BitVec 6) (b : BitVec 6) (w : BitVec 2)
  /-- ASHL (R180). AH shift left by b mod w. -/
  | ashl (d : BitVec 6) (a : BitVec 6) (b : BitVec 6) (w : BitVec 2)
  /-- ASHR (R180). AH logical shift right. -/
  | ashr (d : BitVec 6) (a : BitVec 6) (b : BitVec 6) (w : BitVec 2)
  /-- ASAR (R180). AH arithmetic shift right. -/
  | asar (d : BitVec 6) (a : BitVec 6) (b : BitVec 6) (w : BitVec 2)
  /-- AMUL (R180). AH multiply, low w bits. -/
  | amul (d : BitVec 6) (a : BitVec 6) (b : BitVec 6) (w : BitVec 2)
  /-- AMAD (R180). AH multiply-add into the destination register read as a source. -/
  | amad (d : BitVec 6) (a : BitVec 6) (b : BitVec 6) (w : BitVec 2)
  /-- AMIN (R180). AH signed minimum. -/
  | amin (d : BitVec 6) (a : BitVec 6) (b : BitVec 6) (w : BitVec 2)
  /-- AMAX (R180). AH signed maximum. -/
  | amax (d : BitVec 6) (a : BitVec 6) (b : BitVec 6) (w : BitVec 2)
  /-- AMINU (R180). AH unsigned minimum. -/
  | aminu (d : BitVec 6) (a : BitVec 6) (b : BitVec 6) (w : BitVec 2)
  /-- AMAXU (R180). AH unsigned maximum. -/
  | amaxu (d : BitVec 6) (a : BitVec 6) (b : BitVec 6) (w : BitVec 2)
  /-- ASLT (R180). AH signed set-less-than. -/
  | aslt (d : BitVec 6) (a : BitVec 6) (b : BitVec 6) (w : BitVec 2)
  /-- ASLTU (R180). AH unsigned set-less-than. -/
  | asltu (d : BitVec 6) (a : BitVec 6) (b : BitVec 6) (w : BitVec 2)
  /-- AADDI (R181). AH 64-bit add of the composed immediate. -/
  | aaddi (d : BitVec 6) (a : BitVec 6) (i : BitVec 12)
  /-- AANDI (R181). AH and with the composed immediate. -/
  | aandi (d : BitVec 6) (a : BitVec 6) (i : BitVec 12)
  /-- ASHLI (R181). AH shift left by immediate 0 to 63. -/
  | ashli (d : BitVec 6) (a : BitVec 6) (i : BitVec 12)
  /-- ASHRI (R181). AH logical shift right by immediate. -/
  | ashri (d : BitVec 6) (a : BitVec 6) (i : BitVec 12)
  /-- ASARI (R181). AH arithmetic shift right by immediate. -/
  | asari (d : BitVec 6) (a : BitVec 6) (i : BitVec 12)
  /-- ALI (R182). AH loads a sign-extended composed constant. -/
  | ali (d : BitVec 6) (i : BitVec 18)
  /-- ALUI (R182). AH writes the upper 32 bits of a register, keeping the lower. -/
  | alui (d : BitVec 6) (i : BitVec 18)
  /-- ABEQ (R183). AH branch if equal. -/
  | abeq (a : BitVec 6) (b : BitVec 6) (o : BitVec 12)
  /-- ABNE (R183). AH branch if not equal. -/
  | abne (a : BitVec 6) (b : BitVec 6) (o : BitVec 12)
  /-- ABLT (R183). AH branch if signed less. -/
  | ablt (a : BitVec 6) (b : BitVec 6) (o : BitVec 12)
  /-- ABGE (R183). AH branch if signed greater or equal. -/
  | abge (a : BitVec 6) (b : BitVec 6) (o : BitVec 12)
  /-- ABLTU (R183). AH branch if unsigned less. -/
  | abltu (a : BitVec 6) (b : BitVec 6) (o : BitVec 12)
  /-- ABGEU (R183). AH branch if unsigned greater or equal. -/
  | abgeu (a : BitVec 6) (b : BitVec 6) (o : BitVec 12)
  /-- ABQ (R184). AH pops the branch queue head and branches when it equals the sense. -/
  | abq (s : BitVec 1) (o : BitVec 12)
  /-- AJMP (R185). AH relative jump. -/
  | ajmp (i : BitVec 24)
  /-- ACALL (R185). AH relative call linking through x31. -/
  | acall (i : BitVec 24)
  /-- ARET (R185). AH return to x31. -/
  | aret
  /-- AJR (R185). AH indirect jump with optional link. -/
  | ajr (d : BitVec 6) (a : BitVec 6) (i : BitVec 12)
  /-- TNEXT (R300). Deals the core's next tile task or branches on exhaustion. -/
  | tnext (d : BitVec 6) (i : BitVec 12)
  /-- TEND (R63). Retires the calling general context, closing its loops and counting towards arrival. -/
  | tend
  /-- SPAWN (R62). Starts the lowest inactive general context of the core. -/
  | spawn (d : BitVec 6) (a : BitVec 6) (b : BitVec 6)
  /-- FAN (R64). Sends start messages to the core's children on the spanning tree. -/
  | fan (a : BitVec 6) (b : BitVec 6)
  /-- GANG (R66). Submits a gang launch record for placement at the next commit. -/
  | gang (d : BitVec 6) (a : BitVec 6)
  /-- TQPUSH (R67). Posts a launch record to the paddock's task graph at the commit. -/
  | tqpush (d : BitVec 6) (a : BitVec 6)
  /-- LD (R187). Local load to a register or lq. -/
  | ld (d : BitVec 6) (b : BitVec 6) (o : BitVec 9) (s : BitVec 3)
  /-- ST (R187). Local store under the class rules of the target. -/
  | st (d : BitVec 6) (b : BitVec 6) (o : BitVec 9) (s : BitVec 3)
  /-- LDG (R187). Global load through translation. -/
  | ldg (d : BitVec 6) (b : BitVec 6) (o : BitVec 9) (s : BitVec 3)
  /-- STG (R187). Global store through translation. -/
  | stg (d : BitVec 6) (b : BitVec 6) (o : BitVec 9) (s : BitVec 3)
  /-- LATM (R188). Atomic read-modify-write of one local word. -/
  | latm (d : BitVec 6) (b : BitVec 6) (p : BitVec 4) (s : BitVec 3)
  /-- ATOM (R297). Sends an atomic delta applied at commit, optionally returning the old value to the mailbox. -/
  | atom (d : BitVec 6) (a : BitVec 6) (b : BitVec 6) (r : BitVec 1) (w : BitVec 1) (p : BitVec 4)
  /-- PUT (R297). Sends a write delta to another core's memory, applied at commit. -/
  | put (d : BitVec 6) (a : BitVec 6) (b : BitVec 6) (s : BitVec 3)
  /-- MSG (R297). Sends one or two mailbox words delivered at commit. -/
  | msg (d : BitVec 6) (a : BitVec 6) (b : BitVec 6) (f : BitVec 1)
  /-- WCFG (R192). Stops a walker and loads its 64-byte pattern. -/
  | wcfg (a : BitVec 6) (n : BitVec 3)
  /-- WSTART (R192). Activates a walker. -/
  | wstart (n : BitVec 3)
  /-- WSTOP (R192). Deactivates a walker after draining or discarding its elements. -/
  | wstop (n : BitVec 3)
  /-- WFLAGS (R192). Reads a walker's flags. -/
  | wflags (d : BitVec 6) (n : BitVec 3)
  /-- WPOS (R192). Reads and optionally sets a walker's INDEX. -/
  | wpos (d : BitVec 6) (a : BitVec 6) (f : BitVec 1) (n : BitVec 3)
  /-- CPY (R195). Submits a copy descriptor to the team copy unit. -/
  | cpy (d : BitVec 6) (a : BitVec 6)
  /-- CPYW (R197). Waits for the selected events of a copy. -/
  | cpyw (a : BitVec 6) (e : BitVec 2)
  /-- WINSET (R199). Writes a window-table entry, applied at commit or at once before the first slot-0 barrier. -/
  | winset (a : BitVec 6) (b : BitVec 6)
  /-- WINGET (R200). Reads one word of a window-table entry. -/
  | winget (d : BitVec 6) (a : BitVec 6) (k : BitVec 2)
  /-- PFLIST (R201). Hands a page-fetch chain to the team copy unit. -/
  | pflist (a : BitVec 6)
  /-- RCPY (R198). Moves one slot between a ring and memory by the copy unit. -/
  | rcpy (d : BitVec 6) (a : BitVec 6) (r : BitVec 1) (h : BitVec 4)
  /-- RCFG (R203). Configures or unconfigures a ring handle. -/
  | rcfg (a : BitVec 6) (h : BitVec 4)
  /-- RWAIT (R204). Waits for the next full consumer position and marks it draining. -/
  | rwait (d : BitVec 6) (h : BitVec 4)
  /-- RRESV (R204). Reserves the next producer position and marks it filling. -/
  | rresv (d : BitVec 6) (h : BitVec 4)
  /-- RPROD (R204). Marks the lowest filling position full. -/
  | rprod (h : BitVec 4)
  /-- RCONS (R204). Frees the lowest draining position. -/
  | rcons (h : BitVec 4)
  /-- RSLOT (R204). Returns the local address of a position's slot. -/
  | rslot (d : BitVec 6) (a : BitVec 6) (h : BitVec 4)
  /-- SSWEEP (R261). Hands a stamped-word sweep to the team copy unit. -/
  | ssweep (d : BitVec 6) (a : BitVec 6) (b : BitVec 6)
  /-- ADD (R206). EH integer add. -/
  | add (d : BitVec 6) (a : BitVec 6) (b : BitVec 6) (w : BitVec 2)
  /-- SUB (R206). EH integer subtract. -/
  | sub (d : BitVec 6) (a : BitVec 6) (b : BitVec 6) (w : BitVec 2)
  /-- MUL (R206). EH integer multiply. -/
  | mul (d : BitVec 6) (a : BitVec 6) (b : BitVec 6) (w : BitVec 2)
  /-- MULH (R206). EH signed high multiply. -/
  | mulh (d : BitVec 6) (a : BitVec 6) (b : BitVec 6) (w : BitVec 2)
  /-- MULHU (R206). EH unsigned high multiply. -/
  | mulhu (d : BitVec 6) (a : BitVec 6) (b : BitVec 6) (w : BitVec 2)
  /-- DIV (R206). EH signed divide per R124. -/
  | div (d : BitVec 6) (a : BitVec 6) (b : BitVec 6) (w : BitVec 2)
  /-- DIVU (R206). EH unsigned divide. -/
  | divu (d : BitVec 6) (a : BitVec 6) (b : BitVec 6) (w : BitVec 2)
  /-- REM (R206). EH signed remainder. -/
  | rem (d : BitVec 6) (a : BitVec 6) (b : BitVec 6) (w : BitVec 2)
  /-- REMU (R206). EH unsigned remainder. -/
  | remu (d : BitVec 6) (a : BitVec 6) (b : BitVec 6) (w : BitVec 2)
  /-- AND (R206). EH bitwise and. -/
  | and (d : BitVec 6) (a : BitVec 6) (b : BitVec 6) (w : BitVec 2)
  /-- OR (R206). EH bitwise or. -/
  | or (d : BitVec 6) (a : BitVec 6) (b : BitVec 6) (w : BitVec 2)
  /-- XOR (R206). EH bitwise exclusive or. -/
  | xor (d : BitVec 6) (a : BitVec 6) (b : BitVec 6) (w : BitVec 2)
  /-- SHL (R206). EH shift left. -/
  | shl (d : BitVec 6) (a : BitVec 6) (b : BitVec 6) (w : BitVec 2)
  /-- SHR (R206). EH logical shift right. -/
  | shr (d : BitVec 6) (a : BitVec 6) (b : BitVec 6) (w : BitVec 2)
  /-- SAR (R206). EH arithmetic shift right. -/
  | sar (d : BitVec 6) (a : BitVec 6) (b : BitVec 6) (w : BitVec 2)
  /-- MIN (R206). EH signed minimum. -/
  | min (d : BitVec 6) (a : BitVec 6) (b : BitVec 6) (w : BitVec 2)
  /-- MAX (R206). EH signed maximum. -/
  | max (d : BitVec 6) (a : BitVec 6) (b : BitVec 6) (w : BitVec 2)
  /-- MINU (R206). EH unsigned minimum. -/
  | minu (d : BitVec 6) (a : BitVec 6) (b : BitVec 6) (w : BitVec 2)
  /-- MAXU (R206). EH unsigned maximum. -/
  | maxu (d : BitVec 6) (a : BitVec 6) (b : BitVec 6) (w : BitVec 2)
  /-- SLT (R206). EH signed set-less-than. -/
  | slt (d : BitVec 6) (a : BitVec 6) (b : BitVec 6) (w : BitVec 2)
  /-- SLTU (R206). EH unsigned set-less-than. -/
  | sltu (d : BitVec 6) (a : BitVec 6) (b : BitVec 6) (w : BitVec 2)
  /-- SEQ (R206). EH set-if-equal. -/
  | seq (d : BitVec 6) (a : BitVec 6) (b : BitVec 6) (w : BitVec 2)
  /-- SEL (R206). EH selects a or b by the destination register's old value. -/
  | sel (d : BitVec 6) (a : BitVec 6) (b : BitVec 6) (w : BitVec 2)
  /-- CLZ (R206). EH count leading zeros. -/
  | clz (d : BitVec 6) (a : BitVec 6) (w : BitVec 2)
  /-- POPC (R206). EH population count. -/
  | popc (d : BitVec 6) (a : BitVec 6) (w : BitVec 2)
  /-- SEXT (R206). EH sign extension from the selected width. -/
  | sext (d : BitVec 6) (a : BitVec 6) (w : BitVec 2)
  /-- ADDI (R207). EH add immediate. -/
  | addi (d : BitVec 6) (a : BitVec 6) (i : BitVec 12)
  /-- ANDI (R207). EH and immediate. -/
  | andi (d : BitVec 6) (a : BitVec 6) (i : BitVec 12)
  /-- ORI (R207). EH or immediate. -/
  | ori (d : BitVec 6) (a : BitVec 6) (i : BitVec 12)
  /-- XORI (R207). EH exclusive-or immediate. -/
  | xori (d : BitVec 6) (a : BitVec 6) (i : BitVec 12)
  /-- SHLI (R207). EH shift left by immediate. -/
  | shli (d : BitVec 6) (a : BitVec 6) (i : BitVec 12)
  /-- SHRI (R207). EH logical shift right by immediate. -/
  | shri (d : BitVec 6) (a : BitVec 6) (i : BitVec 12)
  /-- SARI (R207). EH arithmetic shift right by immediate. -/
  | sari (d : BitVec 6) (a : BitVec 6) (i : BitVec 12)
  /-- LI (R208). EH loads a composed constant. -/
  | li (d : BitVec 6) (i : BitVec 18)
  /-- LUI (R208). EH writes the upper 32 bits of a g register. -/
  | lui (d : BitVec 6) (i : BitVec 18)
  /-- FADD (R210). Scalar floating add, rounded once. -/
  | fadd (d : BitVec 6) (a : BitVec 6) (b : BitVec 6) (r : BitVec 3) (f : BitVec 2)
  /-- FSUB (R210). Scalar floating subtract. -/
  | fsub (d : BitVec 6) (a : BitVec 6) (b : BitVec 6) (r : BitVec 3) (f : BitVec 2)
  /-- FMUL (R210). Scalar floating multiply. -/
  | fmul (d : BitVec 6) (a : BitVec 6) (b : BitVec 6) (r : BitVec 3) (f : BitVec 2)
  /-- FMA (R210). Scalar fused multiply-add into the destination. -/
  | fma (d : BitVec 6) (a : BitVec 6) (b : BitVec 6) (r : BitVec 3) (f : BitVec 2)
  /-- FMIN (R210). Scalar minimumNumber. -/
  | fmin (d : BitVec 6) (a : BitVec 6) (b : BitVec 6) (f : BitVec 2)
  /-- FMAX (R210). Scalar maximumNumber. -/
  | fmax (d : BitVec 6) (a : BitVec 6) (b : BitVec 6) (f : BitVec 2)
  /-- FCMP (R211). Scalar floating compare writing 1 or 0. -/
  | fcmp (d : BitVec 6) (a : BitVec 6) (b : BitVec 6) (c : BitVec 3) (f : BitVec 2)
  /-- FCVT (R212). Scalar conversion between floating and integer types. -/
  | fcvt (d : BitVec 6) (a : BitVec 6) (k : BitVec 2) (t : BitVec 4) (s : BitVec 3) (r : BitVec 3)
  /-- FSGN (R210). Scalar sign injection. -/
  | fsgn (d : BitVec 6) (a : BitVec 6) (b : BitVec 6) (o : BitVec 3) (f : BitVec 2)
  /-- FCLASS (R210). Scalar one-hot classification. -/
  | fclass (d : BitVec 6) (a : BitVec 6) (f : BitVec 2)
  /-- FRND (R210). Scalar round to integral value. -/
  | frnd (d : BitVec 6) (a : BitVec 6) (r : BitVec 3) (f : BitVec 2)
  /-- EPB (R213). Pushes one condition bit to the branch queue. -/
  | epb (a : BitVec 6) (c : BitVec 2)
  /-- EBNZ (R214). EH-resolved branch on a non-zero test. -/
  | ebnz (a : BitVec 6) (s : BitVec 1) (o : BitVec 12)
  /-- VADD (R243). Lane-wise integer add. -/
  | vadd (d : BitVec 6) (a : BitVec 6) (b : BitVec 6) (m : BitVec 3) (k : BitVec 1) (w : BitVec 2)
  /-- VSUB (R243). Lane-wise integer subtract. -/
  | vsub (d : BitVec 6) (a : BitVec 6) (b : BitVec 6) (m : BitVec 3) (k : BitVec 1) (w : BitVec 2)
  /-- VMUL (R243). Lane-wise integer multiply. -/
  | vmul (d : BitVec 6) (a : BitVec 6) (b : BitVec 6) (m : BitVec 3) (k : BitVec 1) (w : BitVec 2)
  /-- VMULH (R243). Lane-wise signed high multiply. -/
  | vmulh (d : BitVec 6) (a : BitVec 6) (b : BitVec 6) (m : BitVec 3) (k : BitVec 1) (w : BitVec 2)
  /-- VMIN (R243). Lane-wise signed minimum. -/
  | vmin (d : BitVec 6) (a : BitVec 6) (b : BitVec 6) (m : BitVec 3) (k : BitVec 1) (w : BitVec 2)
  /-- VMAX (R243). Lane-wise signed maximum. -/
  | vmax (d : BitVec 6) (a : BitVec 6) (b : BitVec 6) (m : BitVec 3) (k : BitVec 1) (w : BitVec 2)
  /-- VMINU (R243). Lane-wise unsigned minimum. -/
  | vminu (d : BitVec 6) (a : BitVec 6) (b : BitVec 6) (m : BitVec 3) (k : BitVec 1) (w : BitVec 2)
  /-- VMAXU (R243). Lane-wise unsigned maximum. -/
  | vmaxu (d : BitVec 6) (a : BitVec 6) (b : BitVec 6) (m : BitVec 3) (k : BitVec 1) (w : BitVec 2)
  /-- VAND (R243). Lane-wise and. -/
  | vand (d : BitVec 6) (a : BitVec 6) (b : BitVec 6) (m : BitVec 3) (k : BitVec 1) (w : BitVec 2)
  /-- VOR (R243). Lane-wise or. -/
  | vor (d : BitVec 6) (a : BitVec 6) (b : BitVec 6) (m : BitVec 3) (k : BitVec 1) (w : BitVec 2)
  /-- VXOR (R243). Lane-wise exclusive or. -/
  | vxor (d : BitVec 6) (a : BitVec 6) (b : BitVec 6) (m : BitVec 3) (k : BitVec 1) (w : BitVec 2)
  /-- VSHL (R243). Lane-wise shift left. -/
  | vshl (d : BitVec 6) (a : BitVec 6) (b : BitVec 6) (m : BitVec 3) (k : BitVec 1) (w : BitVec 2)
  /-- VSHR (R243). Lane-wise logical shift right. -/
  | vshr (d : BitVec 6) (a : BitVec 6) (b : BitVec 6) (m : BitVec 3) (k : BitVec 1) (w : BitVec 2)
  /-- VSAR (R243). Lane-wise arithmetic shift right. -/
  | vsar (d : BitVec 6) (a : BitVec 6) (b : BitVec 6) (m : BitVec 3) (k : BitVec 1) (w : BitVec 2)
  /-- VSADD (R243). Lane-wise signed saturating add. -/
  | vsadd (d : BitVec 6) (a : BitVec 6) (b : BitVec 6) (m : BitVec 3) (k : BitVec 1) (w : BitVec 2)
  /-- VSADDU (R243). Lane-wise unsigned saturating add. -/
  | vsaddu (d : BitVec 6) (a : BitVec 6) (b : BitVec 6) (m : BitVec 3) (k : BitVec 1) (w : BitVec 2)
  /-- VCMP (R244). Lane-wise integer compare producing a mask. -/
  | vcmp (d : BitVec 6) (a : BitVec 6) (b : BitVec 6) (c : BitVec 3) (w : BitVec 2)
  /-- VSEL (R245). Lane-wise select by a mask register. -/
  | vsel (d : BitVec 6) (a : BitVec 6) (b : BitVec 6) (m : BitVec 3) (w : BitVec 2)
  /-- VFADD (R246). Lane-wise floating add with FCSR.RM. -/
  | vfadd (d : BitVec 6) (a : BitVec 6) (b : BitVec 6) (m : BitVec 3) (k : BitVec 1) (w : BitVec 2)
  /-- VFSUB (R246). Lane-wise floating subtract. -/
  | vfsub (d : BitVec 6) (a : BitVec 6) (b : BitVec 6) (m : BitVec 3) (k : BitVec 1) (w : BitVec 2)
  /-- VFMUL (R246). Lane-wise floating multiply. -/
  | vfmul (d : BitVec 6) (a : BitVec 6) (b : BitVec 6) (m : BitVec 3) (k : BitVec 1) (w : BitVec 2)
  /-- VFMA (R246). Lane-wise fused multiply-add into the destination. -/
  | vfma (d : BitVec 6) (a : BitVec 6) (b : BitVec 6) (m : BitVec 3) (k : BitVec 1) (w : BitVec 2)
  /-- VFMIN (R246). Lane-wise minimumNumber. -/
  | vfmin (d : BitVec 6) (a : BitVec 6) (b : BitVec 6) (m : BitVec 3) (k : BitVec 1) (w : BitVec 2)
  /-- VFMAX (R246). Lane-wise maximumNumber. -/
  | vfmax (d : BitVec 6) (a : BitVec 6) (b : BitVec 6) (m : BitVec 3) (k : BitVec 1) (w : BitVec 2)
  /-- VFCMP (R247). Lane-wise floating compare producing a mask. -/
  | vfcmp (d : BitVec 6) (a : BitVec 6) (b : BitVec 6) (c : BitVec 3) (f : BitVec 2)
  /-- VFCVT (R248). Lane-wise conversion with part selection. -/
  | vfcvt (d : BitVec 6) (a : BitVec 6) (p : BitVec 2) (t : BitVec 4) (s : BitVec 3) (r : BitVec 3)
  /-- VFSGN (R247). Lane-wise sign injection. -/
  | vfsgn (d : BitVec 6) (a : BitVec 6) (b : BitVec 6) (o : BitVec 3) (f : BitVec 2)
  /-- VFCLASS (R247). Lane-wise classification mask. -/
  | vfclass (d : BitVec 6) (a : BitVec 6) (f : BitVec 2)
  /-- VFRED (R249). Tree reduction of the lanes into lane 0. -/
  | vfred (d : BitVec 6) (a : BitVec 6) (o : BitVec 2) (f : BitVec 2)
  /-- VDOT (R250). Exact dot product accumulated into four f32 lanes, rounded once. -/
  | vdot (d : BitVec 6) (a : BitVec 6) (b : BitVec 6) (r : BitVec 3) (t : BitVec 3)
  /-- VOPTW (R251). Fused optimiser update of weights, momentum and variance in four lanes. -/
  | voptw (d : BitVec 6) (a : BitVec 6) (b : BitVec 6) (p : BitVec 6)
  /-- VMOV (R252). Lane-wise move. -/
  | vmov (d : BitVec 6) (a : BitVec 6) (m : BitVec 3) (k : BitVec 1) (w : BitVec 2)
  /-- VSPLAT (R252). Broadcasts a scalar into every active lane. -/
  | vsplat (d : BitVec 6) (a : BitVec 6) (m : BitVec 3) (k : BitVec 1) (w : BitVec 2)
  /-- VEXT (R253). Extracts one lane to a scalar. -/
  | vext (d : BitVec 6) (a : BitVec 6) (w : BitVec 2) (k : BitVec 4)
  /-- VINS (R253). Inserts a scalar into one lane. -/
  | vins (d : BitVec 6) (a : BitVec 6) (w : BitVec 2) (k : BitVec 4)
  /-- VPERM (R252). Permutes lanes by an index vector. -/
  | vperm (d : BitVec 6) (a : BitVec 6) (b : BitVec 6) (m : BitVec 3) (k : BitVec 1) (w : BitVec 2)
  /-- VSHUF (R253). Fixed lane shuffles of two vectors. -/
  | vshuf (d : BitVec 6) (a : BitVec 6) (b : BitVec 6) (o : BitVec 3) (w : BitVec 2)
  /-- VNARROW (R253). Narrows two vectors of wide lanes into one. -/
  | vnarrow (d : BitVec 6) (a : BitVec 6) (b : BitVec 6) (m : BitVec 2) (w : BitVec 2)
  /-- VWIDEN (R253). Widens half of a vector's lanes. -/
  | vwiden (d : BitVec 6) (a : BitVec 6) (h : BitVec 1) (s : BitVec 1) (w : BitVec 2)
  /-- VSLIDE (R253). Slides a window over the concatenation of two vectors. -/
  | vslide (d : BitVec 6) (a : BitVec 6) (b : BitVec 6) (w : BitVec 2) (s : BitVec 4)
  /-- VQPACK (R255). Divides lanes by a block scale and packs narrow codes. -/
  | vqpack (d : BitVec 6) (a : BitVec 6) (b : BitVec 6) (p : BitVec 2) (t : BitVec 2) (f : BitVec 2)
  /-- VQUNPK (R256). Unpacks narrow codes and multiplies by a block scale. -/
  | vqunpk (d : BitVec 6) (a : BitVec 6) (b : BitVec 6) (p : BitVec 2) (t : BitVec 2) (f : BitVec 2)
  /-- VSCALE (R254). Chooses the e3m5 block scale for the lanes. -/
  | vscale (d : BitVec 6) (a : BitVec 6) (t : BitVec 2) (f : BitVec 2)
  /-- VMPOP (R257). Counts the counting lanes of a mask. -/
  | vmpop (d : BitVec 6) (a : BitVec 6) (m : BitVec 3) (w : BitVec 2)
  /-- VMFIRST (R257). Finds the lowest counting lane. -/
  | vmfirst (d : BitVec 6) (a : BitVec 6) (m : BitVec 3) (w : BitVec 2)
  /-- VROT (R258). Lane-wise rotate by counts in b. -/
  | vrot (d : BitVec 6) (a : BitVec 6) (b : BitVec 6) (r : BitVec 1) (w : BitVec 2)
  /-- CORD (R259). Scalar CORDIC evaluation of a function with n iterations. -/
  | cord (d : BitVec 6) (a : BitVec 6) (n : BitVec 5) (f : BitVec 4)
  /-- VCORD (R259). Four-lane CORDIC evaluation. -/
  | vcord (d : BitVec 6) (a : BitVec 6) (n : BitVec 5) (f : BitVec 4)
  /-- SSET (R260). Builds a stamped word from a value at the current step. -/
  | sset (d : BitVec 6) (a : BitVec 6) (c : BitVec 4)
  /-- SREAD (R260). Reads the decayed value of a stamped word. -/
  | sread (d : BitVec 6) (a : BitVec 6)
  /-- SADD (R260). Merging add of a value to a stamped word. -/
  | sadd (d : BitVec 6) (a : BitVec 6) (b : BitVec 6) (r : BitVec 3)
  /-- SMRG (R260). Merges two stamped words. -/
  | smrg (d : BitVec 6) (a : BitVec 6) (b : BitVec 6) (r : BitVec 3)
  /-- VSREAD (R260). Reads two stamped lanes. -/
  | vsread (d : BitVec 6) (a : BitVec 6)
  /-- VSADD_STAMPED (R260). Merging add into two stamped lanes (opcode 0xB5, also spelt VSADD). -/
  | vsaddStamped (d : BitVec 6) (a : BitVec 6) (b : BitVec 6) (r : BitVec 3)
  /-- VSMRG (R260). Merges two pairs of stamped lanes. -/
  | vsmrg (d : BitVec 6) (a : BitVec 6) (b : BitVec 6) (r : BitVec 3)
  /-- RSLD (R263). Loads bytes of the context's own register store. -/
  | rsld (d : BitVec 6) (b : BitVec 6) (o : BitVec 9) (s : BitVec 3)
  /-- RSST (R263). Stores bytes into the context's own register store. -/
  | rsst (d : BitVec 6) (b : BitVec 6) (o : BitVec 9) (s : BitVec 3)
  /-- TVLD (R269). Loads a tile view descriptor. -/
  | tvld (a : BitVec 6) (n : BitVec 4)
  /-- MLOADN (R270). Queues a stationary load from the north edge. -/
  | mloadn (d : BitVec 6) (n : BitVec 4)
  /-- MLOADW (R270). Queues a stationary load from the west edge. -/
  | mloadw (d : BitVec 6) (n : BitVec 4)
  /-- MJOB (R272). Submits a matrix job to the team engine. -/
  | mjob (d : BitVec 6) (a : BitVec 6)
  /-- MWAIT (R278). Waits for a job to finish and returns its record. -/
  | mwait (d : BitVec 6) (a : BitVec 6)
  /-- MPOLL (R278). Returns a job's record without waiting. -/
  | mpoll (d : BitVec 6) (a : BitVec 6)
  /-- MPUB (R280). Publishes an operand stream from a view. -/
  | mpub (d : BitVec 6) (a : BitVec 6) (n : BitVec 4)
  /-- MSUB (R281). Subscribes the team engine to a stream for W windows. -/
  | msub (d : BitVec 6) (a : BitVec 6) (b : BitVec 6)
  /-- MUNSUB (R281). Ends the engine's subscription to a stream. -/
  | munsub (a : BitVec 6)
  /-- MCHAIN (R282). Links the lead span of engines. -/
  | mchain (d : BitVec 6) (a : BitVec 6) (n : BitVec 3)
  /-- MSEND (R285). Sends a remote job under a capability. -/
  | msend (d : BitVec 6) (a : BitVec 6) (b : BitVec 6)
  /-- MCAP (R283). Mints a capability for a target team. -/
  | mcap (d : BitVec 6) (a : BitVec 6) (b : BitVec 6)
  /-- MHND (R286). Gives the drain handler its row descriptor. -/
  | mhnd (d : BitVec 6)
  /-- MDONE (R287). Writes or drops the handler's row and frees the handler. -/
  | mdone (d : BitVec 1) (a : BitVec 1) (m : BitVec 3)
  /-- BGEMV (R288). Sends a matrix-vector product to the near-bank units. -/
  | bgemv (d : BitVec 6) (a : BitVec 6)
  /-- BWAIT (R290). Waits for a near-bank command and returns its record. -/
  | bwait (d : BitVec 6) (a : BitVec 6)
  /-- COLL (R291). Posts an operation to the die's collective engine. -/
  | coll (d : BitVec 6) (a : BitVec 6)
  /-- CWAIT (R294). Waits for a collective operation's event. -/
  | cwait (d : BitVec 6) (a : BitVec 6)
  /-- CSIG (R295). Release store to a bucket's ready word. -/
  | csig (a : BitVec 6) (b : BitVec 6) (s : BitVec 3) (k : BitVec 3)
  /-- BAR (R302). Contributes to and waits at a barrier of a domain slot. -/
  | bar (d : BitVec 6) (a : BitVec 6) (o : BitVec 3) (s : BitVec 2)
  /-- VOTE (R303). Raises the context's pending vote. -/
  | vote (a : BitVec 6) (c : BitVec 1) (k : BitVec 2)
  /-- STEPADV (R304). Requests a STEP advance at the commit. -/
  | stepadv (a : BitVec 6)
  /-- FENCE (R112). Acquire and/or release fence at a scope. -/
  | fence (s : BitVec 3) (k : BitVec 3)
  /-- FENCE_SC (R113). Sequentially consistent fence with a heartbeat-tick position. -/
  | fenceSc (s : BitVec 3)
  /-- FENCE_BANK (R119). Orders the context's accesses against near-bank commands. -/
  | fenceBank
  /-- WAIT (R305). Stalls until a mailbox, channel, memory word or heartbeat condition holds. -/
  | wait (d : BitVec 6) (a : BitVec 6) (b : BitVec 6) (s : BitVec 3) (c : BitVec 3)
  /-- CSRR (R222). Reads a CSR. -/
  | csrr (d : BitVec 6) (c : BitVec 12)
  /-- CSRW (R222). Writes a CSR. -/
  | csrw (d : BitVec 6) (c : BitVec 12)
  /-- CSRS (R222). Sets bits of a CSR. -/
  | csrs (d : BitVec 6) (c : BitVec 12)
  /-- CSRC (R222). Clears bits of a CSR. -/
  | csrc (d : BitVec 6) (c : BitVec 12)
  /-- TRAP (R231). Raises the software trap. -/
  | trap (i : BitVec 24)
  /-- ERET (R230). Returns from a trap handler, restoring the trap shadow. -/
  | eret
  /-- HALT (R232). Stops for a debugger or retires the context. -/
  | halt
  /-- NOP (R232). Takes one AH issue slot with no effect. -/
  | nop
  /-- FEAT (R233). Reports requested features the device lacks, optionally trapping. -/
  | feat (d : BitVec 6) (a : BitVec 6) (t : BitVec 1)
  /-- DBRK (R231). Debug break or stop for an attached debugger. -/
  | dbrk (i : BitVec 24)
  /-- LOOP (R217). Opens a counted zero-overhead loop with a register count. -/
  | loop (a : BitVec 6) (i : BitVec 12)
  /-- LOOPI (R217). Opens a counted zero-overhead loop with an immediate count. -/
  | loopi (i : BitVec 18)
  /-- LOOPW (R217). Opens a loop that runs until a walker flag is set. -/
  | loopw (f : BitVec 2) (w : BitVec 3) (i : BitVec 12)
  /-- LBRK (R219). Closes the innermost n loop levels and leaves them. -/
  | lbrk (n : BitVec 2)
  /-- HIMM (R170). Hint carrying 24 extra immediate bits for its target. -/
  | himm (p : BitVec 24)
  /-- HMOD (R235). Hint giving order kind, scope, non-temporal and seed override to its target. -/
  | hmod (e : BitVec 16) (s : BitVec 1) (n : BitVec 1) (c : BitVec 3) (k : BitVec 3)
  /-- HSCHED (R237). Scheduling hint affecting timing only. -/
  | hsched (x : BitVec 19) (k : BitVec 1) (r : BitVec 2) (l : BitVec 2)
  /-- NOP_HINT (R169). Opcodes 0xFB to 0xFE take one issue slot with no effect. -/
  | nopHint (op : BitVec 2) (p : BitVec 24)
  /-- ILLEGAL_INSTRUCTION (R173). A word that is not an instruction raises illegal-instruction precisely at decode. -/
  | illegalInstruction (w : BitVec 32)
  /-- FETCH_DELIVER (R430). The front end delivers a context's words into the half buffers. -/
  | fetchDeliver (core ctx : Nat)
  /-- WALKER_FETCH (R191). A load walker fetches an element ahead of its pops. -/
  | walkerFetch (core ctx walker : Nat)
  /-- WALKER_STORE_WRITE (R191). A store walker writes a held element to memory. -/
  | walkerStoreWrite (core ctx walker : Nat)
  /-- TRANSLATION_WALK (R369). A page-table walk completes and installs a translation, setting A or D. -/
  | translationWalk (core page : Nat) (write : Bool)
  /-- PAGE_BRING_UP (R370). The tier engine populates or brings a page to tier 0 and releases the stalled access. -/
  | pageBringUp (tenant page : Nat)
  /-- BACKGROUND_SCRUB (R374). The background scrubber zeroes remaining lines and clears SCRUB when done. -/
  | backgroundScrub (frame : Nat)
  /-- START_MESSAGE (R64). A start message starts context 0 of a child core unless its started mark is set. -/
  | startMessage (core : Nat) (pc arg : BitVec 64)
  /-- CORE_ARRIVE (R29). When its drain completes the core checks channels and sends ARRIVE. -/
  | coreArrive (core slot : Nat)
  /-- RISING_PENNANT (R33). A combining point takes a rising pennant and merges or forwards it. -/
  | risingPennant (dom : Nat)
  /-- POLL_TIMER (R36). After 4 ticks with PEND non-zero the root sends POLL. -/
  | pollTimer (dom : Nat)
  /-- POLL (R27). A member or home receiving POLL answers with RECOUNT. -/
  | poll (dom : Nat) (who : Party)
  /-- CORE_PARK (R40). Under a retry decision the core stops its contexts and sends EARLY-ABORT. -/
  | corePark (core : Nat)
  /-- DECIDE_COMMIT (R39). A member or home performs the commit steps and sends DONE. -/
  | decideCommit (dom : Nat) (who : Party)
  /-- DECIDE_ABORT (R42). A member or home restores from the retained image, discards versions and sends DONE. -/
  | decideAbort (dom : Nat) (who : Party)
  /-- DONE_PENNANT (R37). The root collects DONE and sends RESUME when all have reported. -/
  | donePennant (dom : Nat)
  /-- RESUME (R27). A member resumes its contexts, ends the launch, or takes the yield interrupt. -/
  | resume (core : Nat)
  /-- WATCHDOG_EXPIRY (R47). The watchdog count reaches its budget and the root decides ABORT with ACAUSE 7. -/
  | watchdogExpiry (dom : Nat)
  /-- DELTA_ARRIVE (R41). A delta reaches its home, is counted, or is discarded for a stale attempt or epoch. -/
  | deltaArrive (core seq : Nat)
  /-- MATRIX_JOB_START (R276). The arbiter starts a head job, latching or reloading the stationary tile. -/
  | matrixJobStart (team : Nat)
  /-- DRAIN_ROW (R68). A drained row starts a handler or is written straight to its target. -/
  | drainRow (team : Nat)
  /-- MATRIX_JOB_COMPLETE (R273). A job completes and its record reaches STATE 3. -/
  | matrixJobComplete (team : Nat)
  /-- CHAIN_FORWARD (R282). A row of engine 0 is forwarded along the lead span. -/
  | chainForward (cluster : Nat)
  /-- STREAM_PUBLISH_READ (R280). The stream distributor reads a published view into its replay store. -/
  | streamPublishRead (cluster sid : Nat)
  /-- COPY_REUSABLE (R92). A copy has read every source byte and raises reusable. -/
  | copyReusable (core id : Nat)
  /-- COPY_VISIBLE (R92). A copy's destination is visible and raises visible. -/
  | copyVisible (core id : Nat)
  /-- COPY_FAULT (R196). A running copy meets a fault and enters containment at core level. -/
  | copyFault (core id : Nat)
  /-- PFE_RUN (R100). The copy unit starts a page-fetch element, setting its window filling. -/
  | pfeRun (team : Nat)
  /-- PFE_LAND (R100). An element lands and its window becomes present when all its elements have. -/
  | pfeLand (team : Nat)
  /-- SWEEP_COMPLETE (R262). The copy unit finishes a sweep and raises both events. -/
  | sweepComplete (core id : Nat)
  /-- BGEMV_COMPLETE (R288). The near-bank units finish a command and its record reaches STATE 3. -/
  | bgemvComplete (core id : Nat)
  /-- NBU_FAULT (R289). A unit meets a fault while running and records STATUS 9. -/
  | nbuFault (core id : Nat)
  /-- COLL_START (R292). An operation starts when its ready word reaches RVAL. -/
  | collStart (die slot : Nat)
  /-- COLL_COMPLETE (R292). An operation writes the buckets, then DONE, and raises its event. -/
  | collComplete (die slot : Nat)
  /-- COLL_TIMEOUT (R292). A participant has not posted by the timeout and the superstep aborts with ACAUSE 9. -/
  | collTimeout (die slot : Nat)
  /-- TIMING_REPLAY (R408). A detector sees a late transition and the cycle is replayed at half clock. -/
  | timingReplay (engine : Bool) (unit : Nat)
  /-- CURRENT_LIMIT (R418). A die over its current limit stretches its clocks. -/
  | currentLimit (die : Nat)
  /-- THERMAL_TRIP (R418). A sensor over its limit triggers a warm reset with cause 2. -/
  | thermalTrip (hbm : Bool) (unit temp : Nat)
  /-- DERATE (R410). Firmware lowers or marks absent a unit whose trend crosses the threshold, when its paddock is idle. -/
  | derate (engine : Bool) (unit : Nat)
  /-- LWPOST (R354). A post copies and checks a record slot into the tenant's store. -/
  | lwpost (vf : Nat) (v : BitVec 64)
  /-- LWCANCEL (R361). Cancels the tenant's record with a given LID. -/
  | lwcancel (vf : Nat) (v : BitVec 64)
  /-- LWCQHEAD (R361). Advancing HEAD retires records and frees room for waiting completion entries. -/
  | lwcqhead (vf : Nat) (v : BitVec 64)
  /-- REGISTER_WRITE (R3). A write to a host-visible register without behaviour of its own updates RW and W1C fields. -/
  | registerWrite (vf off : Nat) (v : BitVec 64)
  /-- LAUNCH_SELECT (R362). With no launch running or gating the controller selects the highest READY record. -/
  | launchSelect (node : Nat)
  /-- GATE_PASS (R376). The residency gate passes and the launch is admitted with its speed snapshot. -/
  | gatePass (node : Nat)
  /-- RECOMPUTE_DROP (R363). Under low free memory the controller drops recompute buffers. -/
  | recomputeDrop (node : Nat)
  /-- SPLIT (R358). Splits an IDLE paddock node into two IDLE children. -/
  | split (node : Nat)
  /-- MERGE (R358). Merges two idle scrubbed children back into their parent. -/
  | merge (node : Nat)
  /-- RELEASE (R358). Releases a HELD paddock to IDLE, dropping bindings. -/
  | release (node : Nat)
  /-- PADDOCK_CONFIG_WRITE (R359). Writes PPOL, PCFG, PMEM or PPOOL with their checks. -/
  | paddockConfigWrite (node off : Nat) (v : BitVec 64)
  /-- VF_BIND (R360). Writes a VF binding entry, binding or unbinding it. -/
  | vfBind (vf : Nat) (v : BitVec 64)
  /-- SETPTE (R373). Writes a page-table entry after invalidating caches. -/
  | setpte
  /-- FETCH (R373). Brings a tenant's pages to tier 0. -/
  | fetch
  /-- EVICT (R373). Frees a tenant's pages to a lower tier. -/
  | evict
  /-- HWRITE (R373). Copies host bytes into a tenant's pages. -/
  | hwrite
  /-- HREAD (R373). Copies a tenant's bytes to host memory. -/
  | hread
  /-- SHRES (R373). Sets a paddock's shadow reserve. -/
  | shres
  /-- SAVE_SIGNAL (R378). A cluster controller counts save signals and begins COPYING when all arrive. -/
  | saveSignal (core : Nat)
  /-- COPY_SAVE_DONE (R378). The context area copy completes and swapping begins. -/
  | copySaveDone (dom : Nat)
  /-- RESTORE_DONE (R378). Every core has reloaded its image and the launch runs. -/
  | restoreDone (dom : Nat)
  /-- EXPORT (R381). Exports a tenant and writes a migration ticket. -/
  | exportTenant
  /-- IMPORT (R382). Checks a ticket and pulls the tenant over the fabric. -/
  | importTenant (fabricOk : Bool)
  /-- IMPORT_CONFIRM (R381). The source drops the tenant's state when the target confirms. -/
  | importConfirm (vf : Nat)
  /-- ABANDON (R381). Ends an unconfirmed export. -/
  | abandon
  /-- WARM_RESET (R383). Runs quiesce, save, reset, relink and restore. -/
  | warmReset (cause : Nat) (failed : BitVec 64)
  /-- WARM_RESET_OVERRUN (R383). A phase overrun or second trigger escalates to a full start. -/
  | warmResetOverrun
  /-- WRCMD_RESUME (R384). Allows preserved launches of a node to be selected after a warm reset. -/
  | wrcmdResume (v : BitVec 64)
  /-- WDBUDGET (R386). Raises the running launch's watchdog budget from the next tick. -/
  | wdbudget (v : BitVec 64)
  /-- START (R387). The device runs its start steps and records them. -/
  | start (found : StartInput)
  /-- MEMBERSHIP_LOAD (R397). Loads a job's membership list. -/
  | membershipLoad
  /-- D2D_FLIT_RECEIVE (R391). A die-to-die receiver checks, delivers or discards a flit and may send NAK. -/
  | d2dFlitReceive (edge dir : Nat) (seq : BitVec 8) (crcOk : Bool)
  /-- D2D_NAK (R391). A transmitter resends buffered flits from the NAK number. -/
  | d2dNak (edge dir : Nat)
  /-- MODULE_RETRAIN (R392). After 8 consecutive replays a module retrains by repair, narrowing or switching off. -/
  | moduleRetrain (edge module : Nat)
  /-- EDGE_DOWN (R393). An edge with no active module goes down, detours traffic and raises a link event. -/
  | edgeDown (edge : Nat)
  /-- LLYNNAL_FLIT_RECEIVE (R395). A port receives, delivers or discards a Llynnal flit. -/
  | llynnalFlitReceive (port : Nat) (header : BitVec 64) (payload : List (BitVec 64)) (crc : BitVec 64)
  /-- PORT_RETRAIN (R395). A port that replays one flit 8 times retrains, going down after 3 failures. -/
  | portRetrain (port : Nat)
  /-- HEARTBEAT_FLIT (R396). A port sends a heartbeat flit every 1,000 ticks and steers the local heartbeat. -/
  | heartbeatFlit (port errNs : Nat)
  /-- DEVICE_FAILED (R400). The root counts a device as failed and starts a group shrink. -/
  | deviceFailed (dom dev : Nat)
  /-- PWCMD (R419). Requests a power state for a paddock. -/
  | pwcmd (v : BitVec 64)
  /-- POWER_STATE_APPLY (R418). A power state change applies at the next heartbeat tick. -/
  | powerStateApply (node : Nat)
  /-- PWGATE (R419). Gates a node's engines when it is IDLE. -/
  | pwgate (v : BitVec 64)
  /-- PWHBM (R419). Powers down stacks that hold no frames or grants. -/
  | pwhbm (v : BitVec 64)
  /-- STAGE (R421). Verifies an image and writes it into the inactive bank. -/
  | stage
  /-- COMMIT_SVN (R421). Raises SVNFLOOR to the running image's SVN. -/
  | commitSvn
  /-- GET_VERSION (R425). SPDM version request. -/
  | getVersion (fn : Nat)
  /-- GET_CAPABILITIES (R425). SPDM capabilities request. -/
  | getCapabilities (fn : Nat)
  /-- NEGOTIATE_ALGORITHMS (R425). SPDM algorithm negotiation. -/
  | negotiateAlgorithms (fn : Nat) (mlDsa87 sha3 mlKem1024 aesGcm : Bool)
  /-- GET_CERTIFICATE (R425). SPDM certificate request. -/
  | getCertificate (fn : Nat)
  /-- CHALLENGE (R425). SPDM challenge signed with the alias key. -/
  | challenge (fn nonce : Nat)
  /-- GET_MEASUREMENTS (R424). Returns SHA3-512 measurement blocks. -/
  | getMeasurements (fn index : Nat)
  /-- KEY_EXCHANGE (R425). Starts an SPDM secure session with ML-KEM-1024. -/
  | keyExchange (fn share : Nat)
  /-- FINISH (R425). Completes an SPDM secure session handshake. -/
  | finish (fn mac : Nat)
  /-- SETKEY (R426). Vendor message delivering a VF's XTS key when locked and empty. -/
  | setkey (vf : Nat) (key : BitVec 512)
  /-- TDISP_LOCK_INTERFACE (R425). Moves a VF to CONFIG_LOCKED. -/
  | tdispLockInterface (vf : Nat)
  /-- TDISP_START_INTERFACE (R426). Moves a locked VF to RUN. -/
  | tdispStartInterface (vf : Nat)
  /-- STOP_INTERFACE (R427). Unbinds a TDISP VF, leaving its pages to scrub on touch. -/
  | stopInterface (vf : Nat)
  /-- DECIDE_PROCEED (R24). A member takes the falling DECIDE PROCEED of a phase barrier, writes BARRES and resumes its waiting contexts. -/
  | decideProceed (core slot : Nat)
  /-- GLOBAL_ACCESS_PERFORMED (R121). A global request is performed at its home in lane order and a load's value returns to the requester. -/
  | globalAccessPerformed (core : Nat)
  /-- MODULE_RETRAIN_DONE (R392). A retraining UCIe module finishes, within 2 us, at 64 lanes with repair, at 32 lanes, or switched off. -/
  | moduleRetrainDone (edge module : Nat) (lanes0 lanes1 : List Nat)
  /-- PORT_RETRAIN_DONE (R395). A Llynnal port's retraining ends in success, or in failure that after three failures leaves the port down. -/
  | portRetrainDone (port : Nat) (ok : Bool)
  /-- CURRENT_FALLS_BACK (R418). A die's supply current falls back below its limit and clock stretching stops. -/
  | currentFallsBack (die : Nat)
  /-- DEBUGGER_ATTACH (R225). A debugger attaches to or detaches from a context, changing DBGCTL.ATTACHED. -/
  | debuggerAttach (core ctx : Nat) (attach : Bool)
  /-- DEBUGGER_RESUME (R232). The attached debugger resumes a context stopped by HALT or DBRK. -/
  | debuggerResume (core ctx : Nat)
  /-- RECOVERY_SELF_TEST (R410). A unit marked absent passes the recovery self-test and is readmitted at 940 MHz. -/
  | recoverySelfTest (engine : Bool) (unit : Nat)
  /-- ROVAS_COMMAND (R388). A Rovas mailbox command clears the safe-start hold. -/
  | rovasCommand
  /-- ELHEAD (R416). The host advances the error log HEAD, freeing room for waiting entries. -/
  | elhead (v : BitVec 64)
  deriving DecidableEq, Repr

end Sys2Proof
end

