-- ==== Sys2Proof/Machine/State.lean ====
section
/-!
DEFINITION. The state of the ZQA-8192 as plain data: contexts, cores, teams, clusters, dies, commit domains and the
host side of the module. Tables are sparse lists by number; a unit a table does not list is in its reset state.
INVENTORY.md, heading State, names the rule and the reset value of each field.
-/

namespace Sys2Proof.Machine

open Sys2Proof

/-- Why the machine stops: nothing in the manual stops the whole device except its own resets, so the one fault is an
access to a place that does not exist. -/
inductive Fault where
  /-- Raised by step when the schedule names a core, a context or another unit the module does not have (01 R11), or an
  instruction word where a step of the device belongs. Safe. -/
  | noSuchUnit
  deriving DecidableEq, Repr

/-- Why an instruction has no next state. -/
inductive Refusal where
  /-- Raised by a dispatch arm whose instruction has no meaning yet. Safe. -/
  | notModelled (mnemonic : String)
  /-- Raised by a device, host, link or firmware step whose precondition does not hold in this state
  (02 R27: an event not listed for a state cannot occur in it). Safe: the step does not happen. -/
  | cannotOccur (event : String)
  deriving DecidableEq, Repr

/-! ### A context -/

/-- A poison mark (10 R242): the line's address and whether the line was a committed image (group 3) or a working
one (group 2). -/
structure Mark where
  line : W64 := 0
  committed : Bool := false
  deriving DecidableEq, Repr

/-- An entry of a queue, a channel or a walker, with its poison mark. -/
structure Entry where
  data : W128 := 0
  mark : Option Mark := none
  deriving DecidableEq, Repr

/-- The loop CSRs of R220. -/
structure Loops where
  lc0 : W64 := 0
  lc1 : W64 := 0
  lc2 : W64 := 0
  lstate : W64 := 0
  laddr0 : W64 := 0
  laddr1 : W64 := 0
  laddr2 : W64 := 0
  deriving DecidableEq, Repr

/-- Where a local access lands (R73, R74). -/
inductive Loc where
  /-- an unconfigured window -/
  | unconf
  /-- a window that is absent, filling or stale -/
  | absent (cluster win : Nat)
  /-- a TCM offset -/
  | tcm (off : Nat)
  /-- a scratchpad byte through window win at offset woff, of class cls, owned by core-in-cluster owner -/
  | pad (off cls owner win woff : Nat)
  deriving DecidableEq, Repr

/-- What a store waits for before it may be performed (R111, R112): the local stores of its context with smaller access
numbers than near, the global requests with smaller ones than far, those among them that another context of the core has
passed on by a release at core scope (Ctx.lent), and, for a release, the accesses of EH instructions before program order eh. -/
structure After where
  near : Nat := 0
  far : Nat := 0
  eh : Nat := 0
  deriving DecidableEq, Repr

/-- A local store that has issued and is not performed (R108, R191): in its context's store path, or held by a store
walker. It has its access number, its place, the sequence number of its delta when its bytes lie in another core's
versioned window (R89), and what it waits for. -/
structure Held where
  id : Nat := 0
  loc : Loc := .unconf
  size : Nat := 0
  data : W128 := 0
  seq : Nat := 0
  after : After := {}
  deriving DecidableEq, Repr

/-- A walker: the pattern of R190, the flags of R191, the number of elements fetched ahead and the elements held. -/
structure Walker where
  base : BitVec 32 := 0
  esize : BitVec 3 := 0
  store : Bool := false
  c0 : BitVec 24 := 0
  s0 : BitVec 32 := 0
  c1 : BitVec 24 := 0
  s1 : BitVec 32 := 0
  c2 : BitVec 24 := 0
  s2 : BitVec 32 := 0
  index : W64 := 0
  active : Bool := false
  e0 : Bool := false
  e1 : Bool := false
  e2 : Bool := false
  spent : Bool := false
  fetched : Nat := 0
  held : List Held := []
  deriving DecidableEq, Repr

/-- An instruction on its way through a half (R162): its place, its hint group, what the front end fixed at its
delivery (R218, R223), the causes that containment told it to ignore (R53), and, while it executes, the lowest
register-store byte it has read and the lowest byte it read that carries a poison mark (R226, R242; 2048 stands for a
queue entry). -/
structure Issue where
  core : Nat := 0
  ctx : Nat := 0
  addr : W64 := 0
  first : W64 := 0
  himm : List (BitVec 24) := []
  hmod : List (BitVec 24) := []
  view : W64 := 0
  loops : Loops := {}
  ign : List Nat := []
  seq : Nat := 0
  low : Option Nat := none
  bad : Option (Nat × Mark) := none
  deriving DecidableEq, Repr

/-- An instruction in the buffer of its half. -/
structure Slot where
  instr : Instr
  iss : Issue
  deriving DecidableEq, Repr

/-- What a context waits for between instructions. -/
inductive Await where
  /-- nothing: the context runs -/
  | running
  /-- a barrier of a slot, with its operator, contribution and destination (R302) -/
  | bar (slot op : Nat) (val : W64) (dst : BitVec 6)
  /-- a debugger's resume after HALT or DBRK (R231, R232) -/
  | debugger
  deriving DecidableEq, Repr

/-- The trap shadow of R227. -/
structure Shadow where
  ah : List Slot := []
  eh : List Slot := []
  lq : List Entry := []
  sq : List Entry := []
  xq : List Entry := []
  bq : List Bool := []
  pc : W64 := 0
  edge : Option W64 := none
  hfirst : Option W64 := none
  himm : List (BitVec 24) := []
  hmod : List (BitVec 24) := []
  loops : Loops := {}
  trapped : Option Slot := none
  deriving DecidableEq, Repr

/-- The drained row a handler context holds (R69, R286), with the ring position it takes when the job drains into a
ring. -/
structure Row where
  team : Nat := 0
  job : Nat := 0
  row : Nat := 0
  pos : Nat := 0
  deriving DecidableEq, Repr

/-- An 8-byte part, or the whole, of what the load with program order seq has read (R109, R121). -/
structure Loaded where
  seq : Nat := 0
  part : Nat := 0
  value : Nat := 0
  mark : Option Mark := none
  deriving DecidableEq, Repr

/-- An open FENCE.SC of a context (R111, R113): the instruction's program order, its scope, whether it stands before that
instruction, and T once it is known. -/
structure ScFence where
  seq : Nat := 0
  scope : Nat := 5
  before : Bool := false
  tick : Option Nat := none
  deriving DecidableEq, Repr

/-- An SC position (R113). -/
structure ScPos where
  tick : Nat := 0
  dev : Nat := 0
  gcid : Nat := 0
  ctx : Nat := 0
  deriving DecidableEq, Repr

/-- A context (R16, R43, R159, R191, R229). Its field edge is the address of a delivered last word of a LOOPW body whose
back-edge is not decided yet (R218); rowEnded says that the handler's MDONE has issued and its access half is still to
empty (R287). Its store path holds the local stores that are not performed (R108, R112), point is what the last release
fences hold later stores for, loaded is what the load at the head of the AH has read so far, sc is an open FENCE.SC, scPass
the access whose own FENCE.SC is done, and scPos the last SC position (R113). upset is a parity error
that the context's next read finds (25 R413): 1 register store, 5 die store, 0 none; lent is the access number below which other
contexts of the core have passed their global stores on to this one by a release at core scope (R110). See log 1, log 53. -/
structure Ctx where
  active : Bool := false
  await : Await := .running
  pc : W64 := 0
  edge : Option W64 := none
  seq : Nat := 0
  skip : Nat := 0
  hfirst : Option W64 := none
  himm : List (BitVec 24) := []
  hmod : List (BitVec 24) := []
  ah : List Slot := []
  eh : List Slot := []
  lq : List Entry := []
  sq : List Entry := []
  xq : List Entry := []
  bq : List Bool := []
  x : Tab W64 := []
  rs : Bytes := []
  marks : Tab Mark := []
  walkers : Tab Walker := []
  fcsr : W64 := 0
  view : W64 := 0x6018#64
  loops : Loops := {}
  tvec : W64 := 0
  tcause : W64 := 0
  tpc : W64 := 0
  tval : W64 := 0
  tstatus : W64 := 0
  tscr : W64 := 0
  cpol : W64 := 0xF5DF#64
  retrymax : W64 := 3
  dc : Tab W64 := []
  mshare : W64 := 8
  collbw : W64 := 0x448#64
  barres : W64 := 0
  bstrag : W64 := 0
  bstat : W64 := 0xF00#64
  attached : Bool := false
  errinj : W64 := 0
  upset : Nat := 0
  vote : Nat := 0
  barred : Bool := false
  barSlot : Option Slot := none
  shadow : Option Shadow := none
  row : Option Row := none
  rowEnded : Bool := false
  stores : List Held := []
  point : After := {}
  lent : Nat := 0
  loaded : List Loaded := []
  sc : Option ScFence := none
  scPass : Option Nat := none
  scPos : Option ScPos := none
  deriving DecidableEq, Repr

/-! ### A core -/

/-- The states of R27. -/
inductive Phase where
  | run | gather | drain | arrived | park | commit | restore | yielded | ended
  deriving DecidableEq, Repr

/-- The state of a ring position (R96); a free slot is not listed. -/
inductive RState where
  | filling | full | draining
  deriving DecidableEq, Repr

/-- A ring position in use: its slot's local address, whether the slot is borrowed, and the home slot's index (R97). -/
structure RSlot where
  pos : Nat := 0
  state : RState := .filling
  addr : Nat := 0
  borrowed : Bool := false
  index : Nat := 0
  deriving DecidableEq, Repr

/-- A configured ring (R95, R96). -/
structure Ring where
  base : BitVec 32 := 0
  lslot : Nat := 4
  cap : Nat := 1
  elastic : Bool := false
  plim : Nat := 0
  prod : Nat := 0
  cons : Nat := 0
  pnext : Nat := 0
  cnext : Nat := 0
  home : Nat := 0
  slots : List RSlot := []
  deriving DecidableEq, Repr

/-- What a command of the team copy unit does. -/
inductive CopyKind where
  /-- CPY (R195) -/
  | plain
  /-- RCPY into position pos of a ring (R198) -/
  | fill (ring pos : Nat)
  /-- RCPY out of position pos of a ring (R198) -/
  | drain (ring pos : Nat)
  /-- SSWEEP over count words at S (R262) -/
  | sweep (count : Nat) (s : BitVec 24)
  deriving DecidableEq, Repr

/-- A command queued in the team copy unit (R194, R261), with the rows it has moved. -/
structure Copy where
  id : Nat := 0
  ctx : Nat := 0
  kind : CopyKind := .plain
  src : W64 := 0
  dst : W64 := 0
  len : Nat := 0
  rows : Nat := 0
  sstride : BitVec 32 := 0
  dstride : BitVec 32 := 0
  flags : Nat := 0
  scope : Nat := 5
  seq : Nat := 0
  dc : Tab W64 := []
  row : Nat := 0
  begun : Bool := false
  zeroing : Bool := false
  reusable : Bool := false
  deriving DecidableEq, Repr

/-- An entry of the range scoreboard (R93): resolved bytes of the TCM or of the scratchpad. -/
structure Range where
  id : Nat := 0
  dest : Bool := false
  pad : Bool := false
  bytes : List (Nat × Nat) := []
  deriving DecidableEq, Repr

/-- A near-bank command (R288) with its record, and the result words that its unit has computed and not yet written (R119). -/
structure Bank where
  id : Nat := 0
  ctx : Nat := 0
  w0 : W64 := 0
  w1 : W64 := 0
  w2 : W64 := 0
  w3 : W64 := 0
  seq : Nat := 0
  state : Nat := 0
  status : Nat := 0
  flags : Nat := 0
  out : List Nat := []
  deriving DecidableEq, Repr

/-- A global request on its way to its home (R121): a store of an STG or a CSIG, or a part of an LDG, with its access
number, its instruction's program order, and what it waits for. -/
structure GReq where
  ctx : Nat := 0
  id : Nat := 0
  seq : Nat := 0
  addr : W64 := 0
  size : Nat := 0
  load : Bool := false
  part : Nat := 0
  data : W128 := 0
  after : After := {}
  deriving DecidableEq, Repr

/-- What a delta does at its home (R90). -/
inductive DeltaKind where
  /-- a 64-byte line with its byte mask; also a PUT -/
  | line (data : BitVec 512) (mask : BitVec 64)
  /-- an ATOM of size bytes, with the old value returned when ret is set -/
  | atom (op : Nat) (size : Nat) (val : W64) (ret : Bool)
  /-- one or two mailbox words -/
  | msg (words : List W64)
  deriving DecidableEq, Repr

/-- Where a delta goes: a core's TCM, a window of a cluster, a global address of a tenant, or a mailbox. -/
inductive Target where
  | tcm (core off : Nat)
  | window (cluster win off : Nat)
  | page (vf : Nat) (addr : W64)
  | mailbox (core : Nat)
  deriving DecidableEq, Repr

/-- A delta (R89). A shared one comes from an engine command that has reserved one entry for its line (R335): in its home's store it
takes none of its own beside another one of its sender to that line, with which the home combines it (R88). -/
structure Delta where
  core : Nat := 0
  seq : Nat := 0
  ssn : BitVec 48 := 0
  att : Nat := 0
  epoch : Nat := 0
  bytes : Nat := 0
  kind : DeltaKind := .msg []
  target : Target := .mailbox 0
  shared : Bool := false
  deriving DecidableEq, Repr

/-- A word on its way to a mailbox (R299): the originator's global core identifier, sequence number and place within the
delta. -/
structure Letter where
  gcid : Nat := 0
  seq : Nat := 0
  sub : Nat := 0
  word : W64 := 0
  deriving DecidableEq, Repr

/-- A translation in a cache (R369): tenant, page, whether the entry's D was set. -/
structure Cached where
  vf : Nat := 0
  page : Nat := 0
  dirty : Bool := false
  deriving DecidableEq, Repr

/-- The record of a job as its submitting core keeps it (R267, R285): the engine, the engine's key of the job, and the
fields STATE, STATUS, FLAGS and ROWS. -/
structure JobRec where
  team : Nat := 0
  key : Nat := 0
  state : Nat := 0
  status : Nat := 0
  flags : Nat := 0
  rows : Nat := 0
  deriving DecidableEq, Repr

/-- What a retired context leaves for the core's next arrival (R26, R30, R63). -/
structure Retired where
  vote : Nat := 0
  budget : Nat := 0
  deriving DecidableEq, Repr

/-- The retained image of a core (R43). -/
structure Keep where
  ctxs : Tab Ctx := []
  rings : Tab Ring := []
  views : Tab (List W64) := []
  dealt : Nat := 0
  started : Bool := false
  mail : List W64 := []
  deriving DecidableEq, Repr

/-- A core (R9, R27, R43, R76, R92, R93, R96, R267, R299). Its field voted says that it has sent EARLY-ABORT from ARRIVED
(R53, log 25). -/
structure Core where
  ctxs : Tab Ctx := []
  phase : Phase := .run
  slot : Nat := 0
  lastBar : Nat := 0
  domain : Option Nat := none
  tcm : Bytes := []
  scratch : Bytes := []
  gen : Nat := 0
  undo : List (Nat × BitVec 512) := []
  undoRes : List Nat := []
  bad : List Nat := []
  badLog : List Nat := []
  marked : List Nat := []
  markedLog : List Nat := []
  chanN : List Entry := []
  chanE : List Entry := []
  chanS : List Entry := []
  chanW : List Entry := []
  mail : List W64 := []
  mailRes : Nat := 0
  letters : List Letter := []
  rings : Tab Ring := []
  views : Tab (List W64) := []
  dealt : Nat := 0
  started : Bool := false
  copyNext : Nat := 0
  jobNext : Nat := 0
  bankNext : Nat := 0
  copies : List Copy := []
  ranges : List Range := []
  banks : List Bank := []
  group : Option Nat := none
  seq : Nat := 0
  flight : List Delta := []
  gstores : List GReq := []
  accesses : Nat := 0
  sent : BitVec 48 := 0
  stepReq : BitVec 48 := 0
  retired : List Retired := []
  pflisted : Bool := false
  arrived : Nat := 0
  margin : Bool := false
  early : Option (Nat × Nat) := none
  voted : Bool := false
  tcmcfg : W64 := 0
  memdiag : W64 := 0
  replays : BitVec 32 := 0
  marginCount : Nat := 0
  anm : Bool := false
  recs : Tab JobRec := []
  cached : List Cached := []
  keep : Keep := {}
  deriving DecidableEq, Repr

/-! ### A team -/

/-- A job of a matrix engine (R267, R270, R272): a load of a stationary tile or a matrix job. -/
structure Job where
  core : Nat := 0
  id : Nat := 0
  key : Nat := 0
  cls : Nat := 0
  load : Bool := false
  west : Bool := false
  words : List W64 := []
  stv : List W64 := []
  atv : List W64 := []
  dtv : List W64 := []
  rmask : W128 := 0
  cmask : W128 := 0
  kmask : W128 := 0
  weight : Nat := 8
  cap : W64 := 0
  group : Nat := 0
  flagsReq : Nat := 0
  scope : Nat := 5
  seq : Nat := 0
  state : Nat := 0
  status : Nat := 0
  flags : Nat := 0
  rows : Nat := 0
  left : List Nat := []
  busyRows : Nat := 0
  deriving DecidableEq, Repr

/-- The source of a stationary tile (R271): the view's words and the edge. -/
structure TileSource where
  view : List W64 := []
  west : Bool := false
  core : Nat := 0
  deriving DecidableEq, Repr

/-- A latched stationary tile (R270): codes by k·128+n, block scales by (k/8)·128+n, band scales by k/64. -/
structure Tile where
  fmt : Nat := 0
  codes : Tab Nat := []
  scales : Tab Nat := []
  bands : Tab Nat := []
  scaled : Bool := false
  banded : Bool := false
  deriving DecidableEq, Repr

/-- An accumulator buffer (R274): f32 words by m·128+n, and the group that holds it. -/
structure Buffer where
  group : Option Nat := none
  words : Tab (BitVec 32) := []
  deriving DecidableEq, Repr

/-- A row on the chain or in the stream store (R280, R282): codes by k, block scales by k/8, band scales by k/64. -/
structure StreamRow where
  fmt : Nat := 0
  codes : Tab Nat := []
  scales : Tab Nat := []
  bands : Tab Nat := []
  scaled : Bool := false
  banded : Bool := false
  deriving DecidableEq, Repr

/-- A subscription of an engine (R281). -/
structure Sub where
  sid : Nat := 0
  left : Nat := 0
  deriving DecidableEq, Repr

/-- A page-fetch element of a chain (R99, R100): its number in the team, its address and words, whether it has started and
landed, and whether its predicate made it copy nothing. -/
structure Elem where
  id : Nat := 0
  addr : W64 := 0
  words : List W64 := []
  started : Bool := false
  landed : Bool := false
  skipped : Bool := false
  last : Bool := false
  deriving DecidableEq, Repr

/-- A page-fetch chain (R100, R101): its core and tenant, whether the open superstep handed it over, whether an abort left
it, and whether a fault has stopped it. -/
structure Chain where
  core : Nat := 0
  vf : Nat := 0
  fresh : Bool := true
  aborted : Bool := false
  dead : Bool := false
  elems : List Elem := []
  deriving DecidableEq, Repr

/-- A team: matrix engine and copy unit (R9, R100, R270-R276). -/
structure Team where
  queue : List Job := []
  jobs : List Job := []
  deficit : Tab Nat := []
  served : Nat := 8
  jobKey : Nat := 0
  buf0 : Buffer := {}
  buf1 : Buffer := {}
  tile : Option Tile := none
  source : Option TileSource := none
  keepSource : Option TileSource := none
  subs : List Sub := []
  chainRows : List StreamRow := []
  chains : List Chain := []
  elemNext : Nat := 0
  promoted : Option Nat := none
  lastWasElem : Bool := false
  replays : BitVec 32 := 0
  marginCount : Nat := 0
  deriving DecidableEq, Repr

/-! ### A cluster -/

/-- A window-table entry (R78). -/
structure Win where
  w0 : W64 := 0
  w1 : W64 := 0
  deriving DecidableEq, Repr

/-- A pending WINSET (R79). -/
structure WinSet where
  core : Nat := 0
  order : Nat := 0
  win : Nat := 0
  entry : Win := {}
  deriving DecidableEq, Repr

/-- A published operand stream (R280). -/
structure Stream where
  core : Nat := 0
  view : List W64 := []
  rows : List StreamRow := []
  read : Bool := false
  subscribed : Bool := false
  bytes : Nat := 0
  deriving DecidableEq, Repr

/-- A stage element that has landed: what it read (R102). -/
structure Staged where
  core : Nat := 0
  vf : Nat := 0
  elem : Elem := {}
  deriving DecidableEq, Repr

/-- Scratchpad bytes that a boundary has left unknown (R81): the number of the boundary, the ranges, and within them the
ranges that a versioned or stage window keeps (R78), by first byte and length. -/
structure Lost where
  gen : Nat := 0
  ranges : List (Nat × Nat) := []
  kept : List (Nat × Nat) := []
  deriving DecidableEq, Repr

/-- A cluster (R9, R78, R79, R85, R280, R282, R369). -/
structure Cluster where
  pad : Bytes := []
  gen : Nat := 0
  lost : List Lost := []
  cached : List Cached := []
  wins : Tab Win := []
  keepWins : Tab Win := []
  pending : List WinSet := []
  pendCount : Nat := 0
  instant : Tab Nat := []
  logged : List (Nat × BitVec 512) := []
  bad : List Nat := []
  badLog : List Nat := []
  marked : List Nat := []
  markedLog : List Nat := []
  deltas : List Delta := []
  reserved : Nat := 0
  streams : Tab Stream := []
  chain : Nat := 1
  chainNext : Option (Nat × List Nat) := none
  staged : List Staged := []
  deriving DecidableEq, Repr

/-! ### A die -/

/-- A collective operation of a die's engine (R291-R293): its descriptor, the ticks since it started, this device's own
contribution, and, once it has ended, its status and its participants. -/
structure Coll where
  id : Nat := 0
  vf : Nat := 0
  dom : Nat := 0
  core : Nat := 0
  words : List W64 := []
  started : Bool := false
  ticks : Nat := 0
  own : List W64 := []
  status : Nat := 0
  count : Nat := 0
  epoch : Nat := 0
  deriving DecidableEq, Repr

/-- What another device has posted (R291, R404): its descriptor and its contribution. -/
structure Contribution where
  dev : Nat := 0
  words : List W64 := []
  data : List W64 := []
  deriving DecidableEq, Repr

/-- A die (R9, R88, R293, R296, R369, R403, R418, R419). -/
structure Die where
  deltas : List Delta := []
  reserved : Tab Nat := []
  colls : Tab Coll := []
  collbw : W64 := 0x448#64
  cached : List Cached := []
  ceDone : BitVec 32 := 0
  ceRestart : BitVec 8 := 0
  ceMismatch : BitVec 16 := 0
  ceTmo : BitVec 16 := 0
  stretched : Bool := false
  clTicks : BitVec 32 := 0
  clHit : Bool := false
  temp : BitVec 8 := 0
  tempMax : BitVec 8 := 0
  deriving DecidableEq, Repr

/-! ### Commit domains and barriers -/

/-- A rising pennant (R31). -/
structure Pennant where
  domid : BitVec 16 := 0
  ssn : BitVec 48 := 0
  rval : W64 := 0
  pend : BitVec 48 := 0
  rop : Nat := 0
  vote : Nat := 0
  margin : Bool := false
  wdnear : Bool := false
  operr : Bool := false
  type : Nat := 0
  acause : Nat := 15
  sgcid : Nat := 0
  stick : BitVec 32 := 0
  nidx : Nat := 0
  nlvl : Nat := 0
  pseq : Nat := 0
  att : Nat := 0
  budget : Nat := 0
  narr : Nat := 0
  stepreq : BitVec 48 := 0
  deriving DecidableEq, Repr

/-- What a falling DECIDE carries (R32). -/
structure Decision where
  dec : Nat := 0
  rval : W64 := 0
  operr : Bool := false
  margin : Bool := false
  wdnear : Bool := false
  esc : Bool := false
  acause : Nat := 15
  sgcid : Nat := 0
  stick : BitVec 32 := 0
  stepinc : BitVec 48 := 0
  deriving DecidableEq, Repr

/-- The last decision that a device has carried out: the decision, and the superstep and the attempt that it closed. -/
structure Closed where
  decision : Decision := {}
  ssn : BitVec 48 := 0
  att : Nat := 0
  deriving DecidableEq, Repr

/-- A phase-barrier instance of a slot and a unit (R24): pennants on their way, combined nodes, the members counted in,
its decision, and the members that have not taken it yet. -/
structure PhaseInst where
  slot : Nat := 0
  unit : Nat := 0
  pseq : Nat := 0
  inbox : List Pennant := []
  nodes : List Pennant := []
  counted : List Nat := []
  decision : Option Decision := none
  left : List Nat := []
  deriving DecidableEq, Repr

/-- A submitted gang group (R66, R301). -/
structure GangGroup where
  pc : W64 := 0
  k : Nat := 0
  arg : W64 := 0
  deriving DecidableEq, Repr

/-- A gang record in the task graph, with the core that submitted it. -/
structure Gang where
  core : Nat := 0
  groups : List GangGroup := []
  deriving DecidableEq, Repr

/-- A commit domain with its barrier root (R23, R26, R34, R36, R47, R58-R60, R397-R401). Its field held says that this device
has sent DONE and RESUME has not come (R37, R38), doneDevs are the devices whose DONE the root holds, and ending is the status
with which containment or an escalation ends the launch (R45, R53). -/
structure Domain where
  id : BitVec 16 := 0
  phaseIds : List (BitVec 16) := []
  levels : List Nat := []
  vf : Nat := 0
  job : Nat := 0
  node : Nat := 0
  record : Nat := 0
  members : List Nat := []
  counts : Tab Nat := []
  size : Nat := 0
  base : Nat := 0
  deal : Tab (Nat × Nat) := []
  speed : Tab Nat := []
  espeed : Tab Nat := []
  paused : Bool := false
  began : Nat := 0
  psTicks : Tab Nat := []
  coreReplays : Tab Nat := []
  teamReplays : Tab Nat := []
  retry : Nat := 3
  dcs : Tab W64 := []
  ssn : BitVec 48 := 0
  step : BitVec 48 := 0
  total : BitVec 32 := 0
  consec : Nat := 0
  att : Nat := 0
  epoch : Nat := 0
  devices : List Nat := []
  absent : List Nat := []
  shrinks : List Nat := []
  collDone : List Coll := []
  collCount : Tab Nat := []
  contribs : List Contribution := []
  wdCount : Nat := 0
  wdBudget : Nat := 0
  wdRaise : Option Nat := none
  wdRun : Bool := false
  landed : Nat := 0
  given : Nat := 0
  inbox : List Pennant := []
  nodes : List Pennant := []
  root : Option Pennant := none
  strag : Option (Nat × BitVec 32) := none
  arrivals : Tab Pennant := []
  yieldReq : Bool := false
  away : Bool := false
  saved : List Nat := []
  pollAt : Option Nat := none
  polling : List Party := []
  decision : Option Decision := none
  done : List Party := []
  doneDevs : List Nat := []
  held : Bool := false
  last : Closed := {}
  insts : List PhaseInst := []
  pseqs : Tab Nat := []
  gangs : List Gang := []
  waitingGangs : List Gang := []
  pushes : List (Nat × List W64) := []
  changed : List Nat := []
  cancel : Bool := false
  runSince : Nat := 0
  prio : Nat := 0
  ending : Option Nat := none
  doomed : Bool := false
  ppol : BitVec 48 := 0xE5DAF5DFF5DF#48
  rweight : Nat := 8
  live : Bool := true
  deriving DecidableEq, Repr

/-! ### Tenants, records and paddocks -/

/-- The states of a launch record (R361, R378). -/
inductive RecState where
  | waiting | ready | gating | running | saving | copying | restoring | yielded | ended
  deriving DecidableEq, Repr

/-- A launch record in a tenant's store (R355, R361): order is its place among the records accepted, sel the effective
priority it was selected with (R362); a retired one is kept only while its recompute edge needs it (R363). -/
structure Rec where
  words : List W64 := []
  lid : Nat := 0
  state : RecState := .waiting
  since : Nat := 0
  order : Nat := 0
  sel : Nat := 0
  dyn : Bool := false
  replay : Bool := false
  dropped : Bool := false
  pooled : Bool := false
  preserved : Bool := false
  retired : Bool := false
  status : Nat := 0
  domain : Option Nat := none
  deriving DecidableEq, Repr

/-- A completion entry (R365); own says that it reports the end of a record, which retires when HEAD passes it (R361). -/
structure Completion where
  lid : Nat := 0
  status : Nat := 0
  cause : Nat := 0
  tenant : Nat := 0
  replay : Bool := false
  dyn : Bool := false
  ssn : BitVec 48 := 0
  aborts : BitVec 32 := 0
  tick : Nat := 0
  own : Bool := false
  deriving DecidableEq, Repr

/-- The TDISP states of R425. -/
inductive Tdisp where
  | unlocked | locked | run | error
  deriving DecidableEq, Repr

/-- A saved context area (R378): the retained images, the TCM outside scratch, the window table and the committed
images of versioned windows. -/
structure Area where
  record : Nat := 0
  domain : Nat := 0
  keeps : Tab Keep := []
  tcms : Tab Bytes := []
  wins : Tab (Tab Win) := []
  pads : Tab Bytes := []
  chains : List Chain := []
  sources : Tab TileSource := []
  deriving DecidableEq, Repr

/-- An outstanding export (R381). -/
structure Export where
  dev : Nat := 0
  ticket : List W64 := []
  used : Bool := false
  deriving DecidableEq, Repr

/-- An SPDM connection of a function (R425). -/
structure Spdm where
  version : Bool := false
  capable : Bool := false
  negotiated : Bool := false
  keyed : Bool := false
  session : Option (BitVec 256) := none
  pendingKeys : Option (BitVec 256) := none
  answer : List Nat := []
  error : Nat := 0
  deriving DecidableEq, Repr

/-- A page's copy below tier 0 (R367, R372): its tier, its index in the tenant's backing table, its bytes. The copy itself
is ciphertext in the peer's HBM or in host memory (R375). -/
structure Backed where
  tier : Nat := 2
  index : Nat := 0
  bytes : Bytes := []
  key : BitVec 512 := 0
  marks : Tab (BitVec 64) := []
  deriving DecidableEq, Repr

/-- A virtual function and its tenant (R353, R360, R364, R366, R375-R377, R381, R425). -/
structure Vf where
  node : Nat := 0
  bindResult : Nat := 0
  slots : Bytes := []
  posted : BitVec 32 := 0
  result : Nat := 0
  cqBase : W64 := 0
  cqCfg : W64 := 0
  cqHead : BitVec 16 := 0
  cqTail : BitVec 16 := 0
  vectors : Nat := 0
  held : Nat := 0
  records : List Rec := []
  waitingEntries : List Completion := []
  written : List (Nat × Nat × Bool) := []
  pages : Tab W64 := []
  bigs : Tab W64 := []
  tables : Tab Nat := []
  keyid : Nat := 0
  key : BitVec 512 := 0
  keySet : Bool := false
  wset : List Nat := []
  wbigs : List Nat := []
  tback : W64 := 0
  tblen : W64 := 0
  backing : Tab Backed := []
  areas : List Area := []
  tdisp : Tdisp := .unlocked
  exported : Option Export := none
  deriving DecidableEq, Repr

/-- The membership list of a job (R397). -/
structure Membership where
  job : Nat := 0
  devices : List Nat := []
  absent : List Nat := []
  epoch : Nat := 0
  deriving DecidableEq, Repr

/-- A tenant as another device exports it to this one (R381): the ticket, the source device, the tenant, its node there,
the bytes of its tier 0 pages, the commit domains of its saved launches and of its jobs between launches, its collective
operations, and the membership of its jobs. -/
structure Emigrant where
  ticket : List W64 := []
  src : Nat := 0
  tenant : Vf := {}
  frames : Tab Bytes := []
  marks : Tab (Tab (BitVec 64)) := []
  domains : List Domain := []
  jobs : List Domain := []
  colls : List Coll := []
  tables : List Membership := []
  deriving DecidableEq, Repr

/-- The states of a paddock node (R358). -/
inductive NodeState where
  | covered | split | idle | active | held
  deriving DecidableEq, Repr

/-- A paddock node (R358, R359, R373, R384, R418, R419). -/
structure Node where
  state : NodeState := .covered
  scrub : Bool := false
  result : Nat := 0
  ppol : BitVec 48 := 0xE5DAF5DFF5DF#48
  pcfg : W64 := 0xF424008#64
  pmem : W64 := 0
  ppool : BitVec 16 := 1024
  shres : Nat := 0
  key : W64 := 0
  running : Option Nat := none
  outgoing : Nat := 0
  selectable : Bool := true
  power : Nat := 0
  powerNext : Option Nat := none
  powerResult : Nat := 0
  egate : Bool := false
  deriving DecidableEq, Repr

/-- A frame of HBM: the tenant and page that hold it or held it last, whether it is in use, the lines not yet zeroed since
it was returned unscrubbed (R374), and the node whose unbound tenant left it (R358; 0 none). -/
structure Frame where
  vf : Nat := 0
  page : Nat := 0
  used : Bool := true
  dirtyLines : List Nat := []
  orphan : Nat := 0
  deriving DecidableEq, Repr

/-- A shadow page (R87): its frame and the written lines. -/
structure ShadowPage where
  vf : Nat := 0
  page : Nat := 0
  frame : Nat := 0
  lines : List Nat := []
  deriving DecidableEq, Repr

/-! ### Links -/

/-- A flit held for replay: sequence number and the module that last carried it. -/
structure Flit where
  seq : Nat := 0
  module : Nat := 0
  fails : Nat := 0
  deriving DecidableEq, Repr

/-- One direction of an edge (R391, R394). Its claims are the flits whose first sending has failed, or fell behind such a one:
the requests that cross next are theirs. See log 42. -/
structure Dir where
  txNext : BitVec 8 := 0
  acked : BitVec 8 := 0
  rxNext : BitVec 8 := 0
  crc : BitVec 16 := 0
  rpl : BitVec 16 := 0
  nak : Option (BitVec 8) := none
  skipping : Bool := false
  turn : Nat := 0
  buffer : List Flit := []
  claims : List Nat := []
  deriving DecidableEq, Repr

/-- A UCIe module of an edge (R390, R392, R394). -/
structure Ucie where
  mstate : Nat := 1
  spare0 : Nat := 0
  spare1 : Nat := 0
  half : Nat := 0
  narrow : Bool := false
  deriving DecidableEq, Repr

/-- An edge (R390-R394). See log 12. -/
structure Edge where
  dir0 : Dir := {}
  dir1 : Dir := {}
  modules : Tab Ucie := []
  repairs : BitVec 8 := 0
  lane : Nat := 0
  lmodule : Nat := 0
  ldir : Nat := 0
  down : Bool := false
  deriving DecidableEq, Repr

/-- A Llynnal port (R395, R404): fails counts the failures of the flit it expects, naks the peer's NAKs in a row for one number,
nakSeq, and report is what its peer last said of the master, with the number of devices on the way (R396). -/
structure Port where
  state : Nat := 2
  peer : Nat := 0
  pport : Nat := 0
  txNext : BitVec 12 := 0
  rxNext : BitVec 12 := 0
  crc : BitVec 16 := 0
  rpl : BitVec 16 := 0
  retrains : BitVec 8 := 0
  fails : Nat := 0
  naks : Nat := 0
  nakSeq : Nat := 0
  report : Option (Nat × Nat) := none
  failedRetrains : Nat := 0
  skipping : Bool := false
  lastBeat : Nat := 0
  buffer : List (List W64) := []
  deriving DecidableEq, Repr

/-- A flit on its way out (R395): the device that it comes from when it is passed on, destination device, class, lane, epoch and
payload words. -/
structure OutFlit where
  src : Option Nat := none
  dst : Nat := 0
  cls : Nat := 0
  lane : Nat := 0
  epoch : Nat := 0
  words : List W64 := []
  deriving DecidableEq, Repr

/-- A pennant or a collective post that has come before its launch was admitted here or before the shrink that its epoch belongs
to: its source, class, epoch and words. -/
structure KeptFlit where
  src : Nat := 0
  cls : Nat := 0
  epoch : Nat := 0
  words : List W64 := []
  deriving DecidableEq, Repr

/-! ### Start, firmware, reliability -/

/-- The record of a start step (R389). -/
structure StartStep where
  attempts : BitVec 8 := 0
  outcome : Nat := 0
  alt : Bool := false
  ext : Bool := false
  time : BitVec 32 := 0
  deriving DecidableEq, Repr

/-- A firmware bank (R420). -/
structure FwBank where
  svn : BitVec 16 := 0
  length : Nat := 0
  image : List Nat := []
  valid : Bool := false
  deriving DecidableEq, Repr

/-- A speed-table entry (R411) and the unit's trend (R410). -/
structure Speed where
  code : BitVec 6 := 12
  absent : Bool := false
  derated : Bool := false
  binned : BitVec 6 := 12
  pending : Bool := false
  trend : List Nat := []
  deriving DecidableEq, Repr

/-- An error-log entry (R415). -/
structure LogEntry where
  tick : Nat := 0
  src : Nat := 0
  kind : Nat := 0
  group : Nat := 15
  level : Nat := 7
  action : Nat := 0
  unit : Nat := 0
  addr : W64 := 0
  count : Nat := 0
  tenant : Nat := 0
  pos : Option Nat := none
  deriving DecidableEq, Repr

/-- The host's side of the module: functions, paddocks, frames, links, start record and firmware. -/
structure Platform where
  pf : Tab W64 := []
  hostMem : Bytes := []
  vfs : Tab Vf := []
  nodes : Tab Node := []
  frames : Tab Frame := []
  shadows : List ShadowPage := []
  poisoned : Tab (BitVec 64) := []
  moduleKey : BitVec 512 := 0
  order : Nat := 0
  draws : Nat := 0
  domIds : Nat := 0
  devNo : BitVec 12 := 0
  edges : Tab Edge := []
  ports : Tab Port := []
  pdisc : BitVec 16 := 0
  fdisc : BitVec 16 := 0
  sync : Bool := false
  master : BitVec 12 := 0
  mbResult : Nat := 0
  syncSince : Option Nat := none
  lastUp : Nat := 0
  members : List Membership := []
  coreSpeed : Tab Speed := []
  teamSpeed : Tab Speed := []
  withdrawn : List Nat := []
  log : List LogEntry := []
  lastLog : List LogEntry := []
  svnFloor : BitVec 16 := 0
  measuredFloor : BitVec 16 := 0
  measuredSafe : Bool := false
  fwResult : Nat := 0
  bankA : FwBank := { svn := 0, length := 1, image := [], valid := true }
  bankB : FwBank := {}
  running : FwBank := { svn := 0, length := 1, image := [], valid := true }
  active : Bool := false
  altBoot : Bool := false
  staged : Bool := false
  writing : Option FwBank := none
  identity : Config.DsaKey := { secret := Config.fusedSecret, image := none }
  aliasKey : Config.DsaKey := { secret := Config.fusedSecret, image := some (sha3 []) }
  lent : BitVec 16 := 0
  cycleBase : W64 := 0
  failCnt : BitVec 8 := 0
  lastFail : Nat := 0
  safe : Bool := false
  starts : BitVec 32 := 1
  steps : Tab StartStep := []
  failed : List Nat := []
  warm : Bool := false
  wrCause : Nat := 0
  wrMixed : Bool := false
  wrResult : Nat := 0
  wrCount : BitVec 16 := 0
  wrFail : W64 := 0
  wrTime : BitVec 32 := 0
  foreign : List Emigrant := []
  imported : BitVec 32 := 0
  migResult : Nat := 0
  spdm : Tab Spdm := []
  pfVectors : W64 := 0
  sysPol : BitVec 16 := 0xAAAA#16
  sent : List (Nat × List W64) := []
  unsent : List OutFlit := []
  kept : List KeptFlit := []
  deriving DecidableEq, Repr

/-! ### The schedule and the whole machine -/

/-- Whose turn it is: a context issues, a step that is no instruction word happens, or a memory meets an error (25 R413):
its source as R415 numbers it, core and context that use it (core times 8 plus context), the address, and whether its code
corrects it. Five more happen outside the steps of the opcode table: a line of local memory that gets a poison mark (02 R52), an error of the PCIe link (25 R415), a die sensor's new
reading (25 R419), the stacks that hold frames lent to another device's tier 1 (25 R419), and an SPDM or TDISP request, or a
version of it, that the device does not have (00 R7). See log 8. -/
inductive Turn where
  | context (core ctx : Nat)
  | event (i : Instr)
  | memoryError (src user addr : Nat) (corrected : Bool)
  | poisonLine (core addr : Nat)
  | pcieError (addr : Nat) (corrected : Bool)
  | temperature (die celsius : Nat)
  | lend (mask : BitVec 16)
  | spdmUnlisted (fn version : Nat)
  deriving DecidableEq, Repr

/-- A step that an earlier step has caused; the names are those of the steps in spec/opcode_table.json, but for flashWrite, the end of
a STAGE's writing of its bank (26 R421, log 48), pfePromote, the first access to an absent window that R74 lets choose its team's next page-fetch element, and for what one instruction
does over several steps: a near-bank command's results written after it has finished (R119), a local store performed (R108), a load's first 8 bytes (R109), an LDG's requests (R121), and a
FENCE.SC before an access or after an instruction (R111, R113). -/
inductive Chore where
  | walkerFetch (core ctx walker : Nat)
  | walkerStoreWrite (core ctx walker : Nat)
  | pageBringUp (tenant page : Nat)
  | backgroundScrub (frame : Nat)
  | startMessage (core : Nat) (pc arg : W64)
  | coreArrive (core slot : Nat)
  | risingPennant (dom : Nat)
  | pollTimer (dom : Nat)
  | poll (dom : Nat) (who : Party)
  | corePark (core : Nat)
  | decideCommit (dom : Nat) (who : Party)
  | decideAbort (dom : Nat) (who : Party)
  | decideProceed (core slot : Nat)
  | donePennant (dom : Nat)
  | resume (core : Nat)
  | watchdogExpiry (dom : Nat)
  | deltaArrive (core seq : Nat)
  | matrixJobStart (team : Nat)
  | drainRow (team : Nat)
  | matrixJobComplete (team : Nat)
  | chainForward (cluster : Nat)
  | streamPublishRead (cluster sid : Nat)
  | copyReusable (core id : Nat)
  | copyVisible (core id : Nat)
  | copyFault (core id : Nat)
  | pfeRun (team : Nat)
  | pfeLand (team : Nat)
  | pfePromote (team elem : Nat)
  | sweepComplete (core id : Nat)
  | bgemvComplete (core id : Nat)
  | bankWrite (core id : Nat)
  | nbuFault (core id : Nat)
  | collStart (die slot : Nat)
  | collComplete (die slot : Nat)
  | collTimeout (die slot : Nat)
  | globalAccessPerformed (core : Nat)
  | storeWrite (core ctx : Nat)
  | loadPart (core ctx seq part value : Nat)
  | loadSend (core ctx seq : Nat) (addr : W64) (size : Nat)
  | scStart (core ctx scope seq : Nat)
  | scFence (core ctx : Nat)
  | launchSelect (node : Nat)
  | gatePass (node : Nat)
  | recomputeDrop (node : Nat)
  | saveSignal (core : Nat)
  | copySaveDone (dom : Nat)
  | restoreDone (dom : Nat)
  | warmReset (cause : Nat) (failed : W64)
  | warmResetOverrun
  | edgeDown (edge : Nat)
  | moduleRetrain (edge module : Nat)
  | portRetrain (port : Nat)
  | heartbeatFlit (port errNs : Nat)
  | deviceFailed (dom dev : Nat)
  | powerStateApply (node : Nat)
  | derate (engine : Bool) (unit : Nat)
  | flashWrite
  deriving DecidableEq, Repr

/-- The model's own schedule: the turns that arrive from outside, the steps that past steps have caused, and the
context that ran last. -/
structure Sched where
  turns : List Turn := []
  pending : List Chore := []
  last : Nat := 0
  flip : Bool := false
  deriving DecidableEq, Repr

/-- The machine. -/
structure State where
  issue : Issue := {}
  cores : Tab Core := []
  teams : Tab Team := []
  clusters : Tab Cluster := []
  dies : Tab Die := []
  domains : Tab Domain := []
  hbm : List Host.Cell := []
  plat : Platform := {}
  hbt : Nat := 0
  fresh : Nat := 0
  sched : Sched := {}
  deriving DecidableEq, Repr

/-- The machine right after start (22 R387): node 1 of the paddock tree is IDLE and every other node COVERED (R358),
HBM holds zeros, no launch runs. See log 1 and 12. -/
def State.reset : State :=
  { plat := { nodes := [(1, { state := .idle })]
              pf := [(0x408008, 0x01000040#64), (0x408010, 1000#64)]
              steps := (List.range 16).map (fun s => (s + 1, { attempts := 1, outcome := 1 })) } }

end Sys2Proof.Machine
end

