-- ==== Sys2Proof/Machine/Classify.lean ====
section
/-!
DEFINITION. What the opcode alone fixes about an instruction word (07 R163, R164, R169, R172, R179, R236, R241,
R266): its half, whether it joins the halves, whether the front end waits for it, and which hints it takes.
-/

namespace Sys2Proof.Machine

open Sys2Proof

/-- The two halves of a core (R10). -/
inductive Half where
  | ah | eh
  deriving DecidableEq, Repr

/-- The half of an instruction (R172); a word that is not an instruction counts as EH (R173). -/
def halfOf (i : Instr) : Half :=
  match i with
  | .aadd .. | .asub .. | .aand .. | .aorr .. | .axor .. | .ashl .. | .ashr .. | .asar .. | .amul .. | .amad ..
  | .amin .. | .amax .. | .aminu .. | .amaxu .. | .aslt .. | .asltu .. | .aaddi .. | .aandi .. | .ashli ..
  | .ashri .. | .asari .. | .ali .. | .alui .. | .abeq .. | .abne .. | .ablt .. | .abge .. | .abltu .. | .abgeu ..
  | .abq .. | .ajmp .. | .acall .. | .aret | .ajr .. | .tnext .. | .tend | .spawn .. | .fan .. | .gang .. | .tqpush ..
  | .ld .. | .st .. | .ldg .. | .stg .. | .latm .. | .atom .. | .put .. | .msg .. | .wcfg .. | .wstart .. | .wstop ..
  | .wflags .. | .wpos .. | .cpy .. | .cpyw .. | .winset .. | .winget .. | .pflist .. | .rcpy .. | .rcfg .. | .rwait ..
  | .rresv .. | .rprod .. | .rcons .. | .rslot .. | .ssweep .. | .tvld .. | .coll .. | .cwait .. | .csig .. | .bar ..
  | .fence .. | .fenceSc .. | .fenceBank | .wait .. | .eret | .halt | .nop | .loop .. | .loopi .. | .loopw .. | .lbrk .. => .ah
  | _ => .eh

/-- The joining instructions of R164. -/
def joins (i : Instr) : Bool :=
  match i with
  | .bar .. | .wait .. | .fence .. | .fenceSc .. | .fenceBank | .mwait .. | .tend | .halt | .eret | .trap .. | .dbrk ..
  | .csrw .. | .csrs .. | .csrc .. => true
  | _ => false

/-- Instructions past which the front end delivers nothing until they are resolved (R163), and the joining ones,
past which nothing would issue anyway (R164). See log 9. -/
def holdsFront (i : Instr) : Bool :=
  joins i ||
  match i with
  | .abeq .. | .abne .. | .ablt .. | .abge .. | .abltu .. | .abgeu .. | .abq .. | .ajmp .. | .acall .. | .aret | .ajr ..
  | .tnext .. | .loop .. | .loopi .. | .loopw .. | .lbrk .. | .ebnz .. | .mdone .. | .illegalInstruction .. => true
  | _ => false

/-- Instructions with an immediate that HIMM extends (R169, R170). -/
def takesImm (i : Instr) : Bool :=
  match i with
  | .aaddi .. | .aandi .. | .ashli .. | .ashri .. | .asari .. | .ali .. | .alui .. | .abeq .. | .abne .. | .ablt ..
  | .abge .. | .abltu .. | .abgeu .. | .abq .. | .ajmp .. | .acall .. | .ajr .. | .tnext .. | .ld .. | .st .. | .ldg ..
  | .stg .. | .addi .. | .andi .. | .ori .. | .xori .. | .shli .. | .shri .. | .sari .. | .li .. | .lui .. | .ebnz ..
  | .rsld .. | .rsst .. | .trap .. | .dbrk .. | .loop .. | .loopi .. | .loopw .. => true
  | _ => false

/-- What an HMOD may carry for an instruction. -/
inductive ModClass where
  /-- no HMOD (R169) -/
  | none
  /-- LD, LDG (R111) -/
  | load
  /-- ST, STG (R111) -/
  | store
  /-- LATM (R111) -/
  | rmw
  /-- CPY, RCPY, MLOADN, MLOADW, MPUB: flags and scope (R195, R266) -/
  | flags
  /-- the seed-lane override only (R236, R241) -/
  | seed
  /-- PUT, MSG, ATOM: plain only (R266) -/
  | plain
  deriving DecidableEq, Repr

/-- The HMOD class of an instruction (R179, R236, R241, R266). -/
def modClass (i : Instr) : ModClass :=
  match i with
  | .ld .. | .ldg .. => .load
  | .st .. | .stg .. => .store
  | .latm .. => .rmw
  | .cpy .. | .rcpy .. | .mloadn .. | .mloadw .. | .mpub .. => .flags
  | .fadd .. | .fsub .. | .fmul .. | .fma .. | .frnd .. | .fcvt .. | .vfadd .. | .vfsub .. | .vfmul .. | .vfma ..
  | .vfcvt .. | .vfred .. | .vdot .. | .voptw .. | .vqpack .. | .vqunpk .. | .sadd .. | .smrg .. | .vsaddStamped ..
  | .vsmrg .. => .seed
  | .put .. | .msg .. | .atom .. => .plain
  | _ => .none

/-- The HMOD payload is legal for a target (R106, R111, R195, R236, R241, R266). -/
def modLegal (m : ModClass) (p : BitVec 24) : Bool :=
  let kind := p.toNat % 8
  let scope := p.toNat / 8 % 8
  let nt := p.toNat / 64 % 2
  decide (scope < 6) &&
  match m with
  | .none => false
  | .load => kind == 0 || kind == 1 || kind == 4
  | .store => kind == 0 || kind == 2 || kind == 4
  | .rmw => decide (kind < 5)
  | .flags => decide (kind < 4)
  | .seed => kind == 0 && scope == 0 && nt == 0
  | .plain => kind == 0

/-- Whether a word is a hint that joins the group of the next instruction (R168). -/
def isHint (i : Instr) : Bool :=
  match i with
  | .himm .. | .hmod .. | .hsched .. | .nopHint .. => true
  | _ => false

/-- Transfers and loop instructions: the front end goes on only when the instruction resolves (R163, R217-R219). -/
def deferred (i : Instr) : Bool :=
  match i with
  | .abeq .. | .abne .. | .ablt .. | .abge .. | .abltu .. | .abgeu .. | .abq .. | .ajmp .. | .acall .. | .aret | .ajr ..
  | .tnext .. | .loop .. | .loopi .. | .loopw .. | .lbrk .. | .ebnz .. => true
  | _ => false

/-- Size codes 5 to 7 (R166). -/
def badSize (s : BitVec 3) : Bool := decide (4 < s.toNat)

/-- Width in bits of a type code of R248. -/
def codeWidth (t : Nat) : Nat := match t with | 0 => 32 | 1 => 16 | 2 => 16 | 5 => 4 | 7 => 32 | _ => 8

/-- The ratio and part limits of R248 for a source and a destination width. -/
def partBad (sw dw p : Nat) : Bool :=
  let r := Nat.max sw dw / Nat.min sw dw
  decide (4 < r) || decide (r ≤ p)

/-- An unassigned value of a function field, of W, SZ or a rounding field: illegal-instruction at decode (R173). -/
def badForm (i : Instr) : Bool :=
  match i with
  | .illegalInstruction _ => true
  | .ld _ _ _ s => badSize s
  | .st _ _ _ s => badSize s
  | .ldg _ _ _ s => badSize s
  | .stg _ _ _ s => badSize s
  | .fadd _ _ _ r f | .fsub _ _ _ r f | .fmul _ _ _ r f | .fma _ _ _ r f => f == 0 || r == 6
  | .frnd _ _ r f => f == 0 || r == 6
  | .fmin _ _ _ f | .fmax _ _ _ f | .fclass _ _ f => f == 0
  | .fcmp _ _ _ c f => f == 0 || decide (4 < c.toNat)
  | .fsgn _ _ _ o f => f == 0 || decide (2 < o.toNat)
  | .fcvt _ _ k t s r => r == 6 || t == 7 || decide (11 < t.toNat) || (s == 7 && decide (7 < t.toNat)) || (s != 7 && k != 0)
  | .vcmp _ _ _ c _ => decide (5 < c.toNat)
  | .vfadd _ _ _ _ _ w | .vfsub _ _ _ _ _ w | .vfmul _ _ _ _ _ w | .vfma _ _ _ _ _ w | .vfmin _ _ _ _ _ w | .vfmax _ _ _ _ _ w => w == 0
  | .vfcmp _ _ _ c f => f == 0 || decide (4 < c.toNat)
  | .vfsgn _ _ _ o f => f == 0 || decide (2 < o.toNat)
  | .vfclass _ _ f => f == 0
  | .vfcvt _ _ p t s r => r == 6 || decide (7 < t.toNat) || (s == 7 && t == 7) || partBad (codeWidth s.toNat) (codeWidth t.toNat) p.toNat
  | .vfred _ _ o f => f == 0 || o == 3
  | .vdot _ _ _ r t => r == 6 || decide (4 < t.toNat)
  | .vext _ _ w k | .vins _ _ w k | .vslide _ _ _ w k => decide (128 / (8 * 2 ^ w.toNat) ≤ k.toNat)
  | .vshuf _ _ b o _ => decide (4 < o.toNat) || (o == 4 && b != 0)
  | .vnarrow _ _ _ m w => w == 3 || m == 3
  | .vwiden _ _ _ _ w => w == 3
  | .vscale _ _ t f => t == 3 || f == 0
  | .vqpack _ _ _ p t f | .vqunpk _ _ _ p t f =>
    t == 3 || f == 0 || partBad (if f == 2 then 32 else 16) (if t == 0 then 4 else 8) p.toNat
  | .cord _ _ n _ | .vcord _ _ n _ => n == 0
  | .sadd _ _ _ r | .smrg _ _ _ r | .vsaddStamped _ _ _ r | .vsmrg _ _ _ r => r == 6
  | .rsld _ _ _ s | .rsst _ _ _ s => badSize s
  | .latm _ _ p s => !(s == 2 || s == 3) || decide (9 < p.toNat)
  | .wpos _ a f _ => f == 0 && a != 0
  | .atom _ _ _ _ _ p => decide (8 < p.toNat)
  | .put _ _ _ s => badSize s
  | .msg _ _ b f => f == 0 && b != 0
  | .cpyw _ e => e == 0
  | .lbrk n => n == 0
  | .vote a c k => k == 3 || (c == 0 && a != 0)
  | .wait _ a b s c =>
    decide (4 < c.toNat) || (c != 2 && c != 3 && (s != 0 || a != 0)) || (c == 0 && b != 0) || (c == 1 && b.extractLsb' 4 2 != 0)
  | _ => false

/-! ### The instruction with its hint group (R169, R170, R173) -/

/-- The immediate of an n-bit field f under a hint group (R170), as a signed number of at most 64 bits. -/
def immOf (himm : List (BitVec 24)) (f : BitVec n) : Int :=
  match himm with
  | [] => f.toInt
  | [p] => sval (Nat.min 64 (24 + n)) (p.toNat * 2 ^ n + f.toNat)
  | p :: q :: _ => sval (Nat.min 64 (48 + n)) (p.toNat * 2 ^ (24 + n) + q.toNat * 2 ^ n + f.toNat)

/-- A composed immediate outside the values its instruction takes: illegal-instruction (08 R181, 09 R207, R216, R217).
See log 10. -/
def badImm (himm : List (BitVec 24)) (i : Instr) : Bool :=
  match i with
  | .ashli _ _ m | .ashri _ _ m | .asari _ _ m | .shli _ _ m | .shri _ _ m | .sari _ _ m => decide (immOf himm m < 0) || decide (63 < immOf himm m)
  | .loop _ m | .loopw _ _ m => decide (immOf himm m < 0) || decide (255 < immOf himm m)
  | .loopi m => decide (immOf himm m < 0)
  | _ => false

/-- An encoding that, with its hint group, is illegal at decode (R169, R173). See log 10. -/
def badAtDecode (himm : List (BitVec 24)) (i : Instr) : Bool :=
  badForm i || decide (2 < himm.length) || (!himm.isEmpty && !takesImm i) || badImm himm i

/-- The half whose buffer takes an instruction: an encoding illegal at decode is handled as EH (R173). -/
def halfIn (himm : List (BitVec 24)) (i : Instr) : Half := if badAtDecode himm i then .eh else halfOf i

/-! ### What the order of accesses asks of an instruction (05 R110, R111, R118) -/

/-- The walker of an operand code 48 to 55. -/
def walkerOf (c : BitVec 6) : Option Nat := if 48 ≤ c.toNat ∧ c.toNat < 56 then some (c.toNat - 48) else none

/-- The operand codes of an EH instruction, destination first (R158): what its word's operand fields name. -/
def ehCodes (i : Instr) : Option (BitVec 6) × List (BitVec 6) :=
  match i with
  | .add d a b _ | .sub d a b _ | .mul d a b _ | .mulh d a b _ | .mulhu d a b _ | .div d a b _ | .divu d a b _ | .rem d a b _
  | .remu d a b _ | .and d a b _ | .or d a b _ | .xor d a b _ | .shl d a b _ | .shr d a b _ | .sar d a b _ | .min d a b _
  | .max d a b _ | .minu d a b _ | .maxu d a b _ | .slt d a b _ | .sltu d a b _ | .seq d a b _ | .sel d a b _
  | .fmin d a b _ | .fmax d a b _ | .vslide d a b _ _ | .vrot d a b _ _ | .vshuf d a b _ _ | .vnarrow d a b _ _
  | .fadd d a b _ _ | .fsub d a b _ _ | .fmul d a b _ _ | .fma d a b _ _ | .fcmp d a b _ _ | .fsgn d a b _ _
  | .vcmp d a b _ _ | .vsel d a b _ _ | .vfcmp d a b _ _ | .vfsgn d a b _ _ | .vdot d a b _ _ | .sadd d a b _ | .smrg d a b _
  | .vsaddStamped d a b _ | .vsmrg d a b _ | .vqpack d a b _ _ _ | .vqunpk d a b _ _ _ | .msub d a b | .msend d a b | .mcap d a b
  | .vadd d a b _ _ _ | .vsub d a b _ _ _ | .vmul d a b _ _ _ | .vmulh d a b _ _ _ | .vmin d a b _ _ _ | .vmax d a b _ _ _
  | .vminu d a b _ _ _ | .vmaxu d a b _ _ _ | .vand d a b _ _ _ | .vor d a b _ _ _ | .vxor d a b _ _ _ | .vshl d a b _ _ _
  | .vshr d a b _ _ _ | .vsar d a b _ _ _ | .vsadd d a b _ _ _ | .vsaddu d a b _ _ _ | .vfadd d a b _ _ _ | .vfsub d a b _ _ _
  | .vfmul d a b _ _ _ | .vfma d a b _ _ _ | .vfmin d a b _ _ _ | .vfmax d a b _ _ _ | .vperm d a b _ _ _ => (some d, [a, b])
  | .clz d a _ | .popc d a _ | .sext d a _ | .addi d a _ | .andi d a _ | .ori d a _ | .xori d a _ | .shli d a _ | .shri d a _
  | .sari d a _ | .fcvt d a _ _ _ _ | .fclass d a _ | .frnd d a _ _ | .vfcvt d a _ _ _ _ | .vfclass d a _ | .vfred d a _ _
  | .voptw d a _ _ | .vmov d a _ _ _ | .vsplat d a _ _ _ | .vext d a _ _ | .vins d a _ _ | .vwiden d a _ _ _ | .vscale d a _ _
  | .vmpop d a _ _ | .vmfirst d a _ _ | .cord d a _ _ | .vcord d a _ _ | .sset d a _ | .sread d a | .vsread d a | .feat d a _
  | .mjob d a | .mwait d a | .mpoll d a | .mpub d a _ | .mchain d a _ | .bgemv d a | .bwait d a => (some d, [a])
  | .li d _ | .rsld d _ _ _ | .csrr d _ | .mloadn d _ | .mloadw d _ | .mhnd d => (some d, [])
  | .rsst d _ _ _ | .csrw d _ | .csrs d _ | .csrc d _ => (none, [d])
  | .epb a _ | .ebnz a _ _ | .munsub a | .vote a _ _ | .stepadv a => (none, [a])
  | _ => (none, [])

/-- An EH instruction names a walker, a channel or the mailbox, whose pops and pushes are accesses (R110, R191). -/
def ehAccess (i : Instr) : Bool :=
  let u := ehCodes i
  let acc := fun (c : BitVec 6) => decide (48 ≤ c.toNat) && decide (c.toNat ≤ 62) && c != 56 && c != 57
  u.1.any acc || u.2.any acc

/-- An EH instruction whose accesses an earlier acquire holds: operands that are accesses, and engine commands, whose issue
counts as a store (R110). -/
def ehOrdered (i : Instr) : Bool :=
  ehAccess i ||
  match i with
  | .mjob .. | .msend .. | .mloadn .. | .mloadw .. | .mpub .. | .msub .. | .mchain .. | .bgemv .. => true
  | _ => false

/-- An AH instruction that accesses memory or sends a command or a delta. -/
def ahAccess (i : Instr) : Bool :=
  match i with
  | .ld .. | .st .. | .ldg .. | .stg .. | .latm .. | .atom .. | .put .. | .msg .. | .wcfg .. | .cpy .. | .winset .. | .pflist .. | .rcpy ..
  | .rcfg .. | .ssweep .. | .tvld .. | .coll .. | .csig .. | .wait .. | .gang .. | .tqpush .. => true
  | _ => false

/-- The order kind and the scope that an instruction takes from its HMOD (R111); plain without one, and a missing scope is
system. -/
def Issue.kind (x : Issue) : Nat := match x.hmod.head? with | some p => bf p 0 3 | none => 0
def Issue.scope (x : Issue) : Nat := match x.hmod.head? with | some p => bf p 3 3 | none => 5

/-- An instruction of the AH that holds every later access of its context until it has issued: an acquire (R111), an SC
access, a wait for the visible event of a copy or for a collective (R118, R120), and the ring's acquires (08 R204). -/
def Slot.acquires (x : Slot) : Bool :=
  let acq := x.iss.kind == 4 || ((x.iss.kind == 1 || x.iss.kind == 3) && x.iss.scope != 0)
  match x.instr with
  | .ld .. | .st .. | .ldg .. | .stg .. | .latm .. => acq
  | .cpyw _ e => e != 1
  | .rwait .. | .rresv .. | .cwait .. => true
  | _ => false

end Sys2Proof.Machine
end

