-- ==== Sys2Proof/Decode.lean ====
section
/-!
DEFINITION. The decoder and the encoder of the 32-bit words (07 R165, R171, R172; 00 R2 for the byte order).
Every format of R165 splits bits [23:0] into four six-bit parts d, a, b and f or into runs of them. The decoder
rejects, by name, a reserved opcode and a non-zero reserved bit (R173); every other word is its row's
instruction, whose meaning judges the field values.
-/

namespace Sys2Proof

/-- Why a word is not an instruction (07 R173). -/
inductive DecodeError where
  /-- opcode 0x00, 0xFF or a reserved opcode of R171 -/
  | reservedOpcode
  /-- a non-zero reserved bit outside the hints -/
  | reservedBits
  /-- fewer than four bytes -/
  | truncated
  deriving DecidableEq, Repr

/-- A word of its opcode and its four six-bit parts. -/
def join (op : BitVec 8) (d a b f : BitVec 6) : BitVec 32 := op ++ d ++ a ++ b ++ f

/-- The major opcode, bits [31:24]. -/
def opOf (w : BitVec 32) : BitVec 8 := w.extractLsb' 24 8
/-- Bits [23:18]. -/
def dOf (w : BitVec 32) : BitVec 6 := w.extractLsb' 18 6
/-- Bits [17:12]. -/
def aOf (w : BitVec 32) : BitVec 6 := w.extractLsb' 12 6
/-- Bits [11:6]. -/
def bOf (w : BitVec 32) : BitVec 6 := w.extractLsb' 6 6
/-- Bits [5:0]. -/
def fOf (w : BitVec 32) : BitVec 6 := w.extractLsb' 0 6

/-- The opcode of the n-th no-op hint, 0xFB to 0xFE (07 R169). -/
def nopOpcode (op : BitVec 2) : BitVec 8 := 0xFB#8 + op.setWidth 8

/-- The instruction of an opcode and its parts (07 R171 and the format of its row in R172). -/
def decodeParts (op : Nat) (d a b f : BitVec 6) : Except DecodeError Instr :=
  match op with
  | 0x01 => if f.extractLsb' 2 4 == 0#4 then .ok (.aadd d a b (f.extractLsb' 0 2)) else .error .reservedBits
  | 0x02 => if f.extractLsb' 2 4 == 0#4 then .ok (.asub d a b (f.extractLsb' 0 2)) else .error .reservedBits
  | 0x03 => if f.extractLsb' 2 4 == 0#4 then .ok (.aand d a b (f.extractLsb' 0 2)) else .error .reservedBits
  | 0x04 => if f.extractLsb' 2 4 == 0#4 then .ok (.aorr d a b (f.extractLsb' 0 2)) else .error .reservedBits
  | 0x05 => if f.extractLsb' 2 4 == 0#4 then .ok (.axor d a b (f.extractLsb' 0 2)) else .error .reservedBits
  | 0x06 => if f.extractLsb' 2 4 == 0#4 then .ok (.ashl d a b (f.extractLsb' 0 2)) else .error .reservedBits
  | 0x07 => if f.extractLsb' 2 4 == 0#4 then .ok (.ashr d a b (f.extractLsb' 0 2)) else .error .reservedBits
  | 0x08 => if f.extractLsb' 2 4 == 0#4 then .ok (.asar d a b (f.extractLsb' 0 2)) else .error .reservedBits
  | 0x09 => if f.extractLsb' 2 4 == 0#4 then .ok (.amul d a b (f.extractLsb' 0 2)) else .error .reservedBits
  | 0x0A => if f.extractLsb' 2 4 == 0#4 then .ok (.amad d a b (f.extractLsb' 0 2)) else .error .reservedBits
  | 0x0B => if f.extractLsb' 2 4 == 0#4 then .ok (.amin d a b (f.extractLsb' 0 2)) else .error .reservedBits
  | 0x0C => if f.extractLsb' 2 4 == 0#4 then .ok (.amax d a b (f.extractLsb' 0 2)) else .error .reservedBits
  | 0x0D => if f.extractLsb' 2 4 == 0#4 then .ok (.aminu d a b (f.extractLsb' 0 2)) else .error .reservedBits
  | 0x0E => if f.extractLsb' 2 4 == 0#4 then .ok (.amaxu d a b (f.extractLsb' 0 2)) else .error .reservedBits
  | 0x0F => if f.extractLsb' 2 4 == 0#4 then .ok (.aslt d a b (f.extractLsb' 0 2)) else .error .reservedBits
  | 0x10 => if f.extractLsb' 2 4 == 0#4 then .ok (.asltu d a b (f.extractLsb' 0 2)) else .error .reservedBits
  | 0x11 => .ok (.aaddi d a (b ++ f))
  | 0x12 => .ok (.aandi d a (b ++ f))
  | 0x13 => .ok (.ashli d a (b ++ f))
  | 0x14 => .ok (.ashri d a (b ++ f))
  | 0x15 => .ok (.asari d a (b ++ f))
  | 0x16 => .ok (.ali d (a ++ b ++ f))
  | 0x17 => .ok (.alui d (a ++ b ++ f))
  | 0x18 => .ok (.abeq d a (b ++ f))
  | 0x19 => .ok (.abne d a (b ++ f))
  | 0x1A => .ok (.ablt d a (b ++ f))
  | 0x1B => .ok (.abge d a (b ++ f))
  | 0x1C => .ok (.abltu d a (b ++ f))
  | 0x1D => .ok (.abgeu d a (b ++ f))
  | 0x1E => if d.extractLsb' 1 5 == 0#5 && a == 0#6 then .ok (.abq (d.extractLsb' 0 1) (b ++ f)) else .error .reservedBits
  | 0x1F => .ok (.ajmp (d ++ a ++ b ++ f))
  | 0x20 => .ok (.acall (d ++ a ++ b ++ f))
  | 0x21 => if d == 0#6 && a == 0#6 && b == 0#6 && f == 0#6 then .ok (.aret) else .error .reservedBits
  | 0x22 => .ok (.ajr d a (b ++ f))
  | 0x23 => if a == 0#6 then .ok (.tnext d (b ++ f)) else .error .reservedBits
  | 0x24 => if d == 0#6 && a == 0#6 && b == 0#6 && f == 0#6 then .ok (.tend) else .error .reservedBits
  | 0x25 => if f == 0#6 then .ok (.spawn d a b) else .error .reservedBits
  | 0x26 => if d == 0#6 && f == 0#6 then .ok (.fan a b) else .error .reservedBits
  | 0x27 => if b == 0#6 && f == 0#6 then .ok (.gang d a) else .error .reservedBits
  | 0x28 => if b == 0#6 && f == 0#6 then .ok (.tqpush d a) else .error .reservedBits
  | 0x29 => .ok (.ld d a (b ++ f.extractLsb' 3 3) (f.extractLsb' 0 3))
  | 0x2A => .ok (.st d a (b ++ f.extractLsb' 3 3) (f.extractLsb' 0 3))
  | 0x2B => .ok (.ldg d a (b ++ f.extractLsb' 3 3) (f.extractLsb' 0 3))
  | 0x2C => .ok (.stg d a (b ++ f.extractLsb' 3 3) (f.extractLsb' 0 3))
  | 0x2D => if b.extractLsb' 0 2 == 0#2 && f.extractLsb' 3 3 == 0#3 then .ok (.latm d a (b.extractLsb' 2 4) (f.extractLsb' 0 3)) else .error .reservedBits
  | 0x2E => .ok (.atom d a b (f.extractLsb' 5 1) (f.extractLsb' 4 1) (f.extractLsb' 0 4))
  | 0x2F => if f.extractLsb' 3 3 == 0#3 then .ok (.put d a b (f.extractLsb' 0 3)) else .error .reservedBits
  | 0x30 => if f.extractLsb' 1 5 == 0#5 then .ok (.msg d a b (f.extractLsb' 0 1)) else .error .reservedBits
  | 0x31 => if d == 0#6 && b == 0#6 && f.extractLsb' 3 3 == 0#3 then .ok (.wcfg a (f.extractLsb' 0 3)) else .error .reservedBits
  | 0x32 => if d == 0#6 && a == 0#6 && b == 0#6 && f.extractLsb' 3 3 == 0#3 then .ok (.wstart (f.extractLsb' 0 3)) else .error .reservedBits
  | 0x33 => if d == 0#6 && a == 0#6 && b == 0#6 && f.extractLsb' 3 3 == 0#3 then .ok (.wstop (f.extractLsb' 0 3)) else .error .reservedBits
  | 0x34 => if a == 0#6 && b == 0#6 && f.extractLsb' 3 3 == 0#3 then .ok (.wflags d (f.extractLsb' 0 3)) else .error .reservedBits
  | 0x35 => if b == 0#6 && f.extractLsb' 4 2 == 0#2 then .ok (.wpos d a (f.extractLsb' 3 1) (f.extractLsb' 0 3)) else .error .reservedBits
  | 0x36 => if b == 0#6 && f == 0#6 then .ok (.cpy d a) else .error .reservedBits
  | 0x37 => if d == 0#6 && b == 0#6 && f.extractLsb' 2 4 == 0#4 then .ok (.cpyw a (f.extractLsb' 0 2)) else .error .reservedBits
  | 0x38 => if d == 0#6 && f == 0#6 then .ok (.winset a b) else .error .reservedBits
  | 0x39 => if b == 0#6 && f.extractLsb' 2 4 == 0#4 then .ok (.winget d a (f.extractLsb' 0 2)) else .error .reservedBits
  | 0x3A => if d == 0#6 && b == 0#6 && f == 0#6 then .ok (.pflist a) else .error .reservedBits
  | 0x3B => if b == 0#6 && f.extractLsb' 5 1 == 0#1 then .ok (.rcpy d a (f.extractLsb' 4 1) (f.extractLsb' 0 4)) else .error .reservedBits
  | 0x3C => if d == 0#6 && b == 0#6 && f.extractLsb' 4 2 == 0#2 then .ok (.rcfg a (f.extractLsb' 0 4)) else .error .reservedBits
  | 0x3D => if a == 0#6 && b == 0#6 && f.extractLsb' 4 2 == 0#2 then .ok (.rwait d (f.extractLsb' 0 4)) else .error .reservedBits
  | 0x3E => if a == 0#6 && b == 0#6 && f.extractLsb' 4 2 == 0#2 then .ok (.rresv d (f.extractLsb' 0 4)) else .error .reservedBits
  | 0x3F => if d == 0#6 && a == 0#6 && b == 0#6 && f.extractLsb' 4 2 == 0#2 then .ok (.rprod (f.extractLsb' 0 4)) else .error .reservedBits
  | 0x40 => if d == 0#6 && a == 0#6 && b == 0#6 && f.extractLsb' 4 2 == 0#2 then .ok (.rcons (f.extractLsb' 0 4)) else .error .reservedBits
  | 0x41 => if b == 0#6 && f.extractLsb' 4 2 == 0#2 then .ok (.rslot d a (f.extractLsb' 0 4)) else .error .reservedBits
  | 0x42 => if f == 0#6 then .ok (.ssweep d a b) else .error .reservedBits
  | 0x50 => if f.extractLsb' 2 4 == 0#4 then .ok (.add d a b (f.extractLsb' 0 2)) else .error .reservedBits
  | 0x51 => if f.extractLsb' 2 4 == 0#4 then .ok (.sub d a b (f.extractLsb' 0 2)) else .error .reservedBits
  | 0x52 => if f.extractLsb' 2 4 == 0#4 then .ok (.mul d a b (f.extractLsb' 0 2)) else .error .reservedBits
  | 0x53 => if f.extractLsb' 2 4 == 0#4 then .ok (.mulh d a b (f.extractLsb' 0 2)) else .error .reservedBits
  | 0x54 => if f.extractLsb' 2 4 == 0#4 then .ok (.mulhu d a b (f.extractLsb' 0 2)) else .error .reservedBits
  | 0x55 => if f.extractLsb' 2 4 == 0#4 then .ok (.div d a b (f.extractLsb' 0 2)) else .error .reservedBits
  | 0x56 => if f.extractLsb' 2 4 == 0#4 then .ok (.divu d a b (f.extractLsb' 0 2)) else .error .reservedBits
  | 0x57 => if f.extractLsb' 2 4 == 0#4 then .ok (.rem d a b (f.extractLsb' 0 2)) else .error .reservedBits
  | 0x58 => if f.extractLsb' 2 4 == 0#4 then .ok (.remu d a b (f.extractLsb' 0 2)) else .error .reservedBits
  | 0x59 => if f.extractLsb' 2 4 == 0#4 then .ok (.and d a b (f.extractLsb' 0 2)) else .error .reservedBits
  | 0x5A => if f.extractLsb' 2 4 == 0#4 then .ok (.or d a b (f.extractLsb' 0 2)) else .error .reservedBits
  | 0x5B => if f.extractLsb' 2 4 == 0#4 then .ok (.xor d a b (f.extractLsb' 0 2)) else .error .reservedBits
  | 0x5C => if f.extractLsb' 2 4 == 0#4 then .ok (.shl d a b (f.extractLsb' 0 2)) else .error .reservedBits
  | 0x5D => if f.extractLsb' 2 4 == 0#4 then .ok (.shr d a b (f.extractLsb' 0 2)) else .error .reservedBits
  | 0x5E => if f.extractLsb' 2 4 == 0#4 then .ok (.sar d a b (f.extractLsb' 0 2)) else .error .reservedBits
  | 0x5F => if f.extractLsb' 2 4 == 0#4 then .ok (.min d a b (f.extractLsb' 0 2)) else .error .reservedBits
  | 0x60 => if f.extractLsb' 2 4 == 0#4 then .ok (.max d a b (f.extractLsb' 0 2)) else .error .reservedBits
  | 0x61 => if f.extractLsb' 2 4 == 0#4 then .ok (.minu d a b (f.extractLsb' 0 2)) else .error .reservedBits
  | 0x62 => if f.extractLsb' 2 4 == 0#4 then .ok (.maxu d a b (f.extractLsb' 0 2)) else .error .reservedBits
  | 0x63 => if f.extractLsb' 2 4 == 0#4 then .ok (.slt d a b (f.extractLsb' 0 2)) else .error .reservedBits
  | 0x64 => if f.extractLsb' 2 4 == 0#4 then .ok (.sltu d a b (f.extractLsb' 0 2)) else .error .reservedBits
  | 0x65 => if f.extractLsb' 2 4 == 0#4 then .ok (.seq d a b (f.extractLsb' 0 2)) else .error .reservedBits
  | 0x66 => if f.extractLsb' 2 4 == 0#4 then .ok (.sel d a b (f.extractLsb' 0 2)) else .error .reservedBits
  | 0x67 => if b == 0#6 && f.extractLsb' 2 4 == 0#4 then .ok (.clz d a (f.extractLsb' 0 2)) else .error .reservedBits
  | 0x68 => if b == 0#6 && f.extractLsb' 2 4 == 0#4 then .ok (.popc d a (f.extractLsb' 0 2)) else .error .reservedBits
  | 0x69 => if b == 0#6 && f.extractLsb' 2 4 == 0#4 then .ok (.sext d a (f.extractLsb' 0 2)) else .error .reservedBits
  | 0x6A => .ok (.addi d a (b ++ f))
  | 0x6B => .ok (.andi d a (b ++ f))
  | 0x6C => .ok (.ori d a (b ++ f))
  | 0x6D => .ok (.xori d a (b ++ f))
  | 0x6E => .ok (.shli d a (b ++ f))
  | 0x6F => .ok (.shri d a (b ++ f))
  | 0x70 => .ok (.sari d a (b ++ f))
  | 0x71 => .ok (.li d (a ++ b ++ f))
  | 0x72 => .ok (.lui d (a ++ b ++ f))
  | 0x73 => if f.extractLsb' 5 1 == 0#1 then .ok (.fadd d a b (f.extractLsb' 2 3) (f.extractLsb' 0 2)) else .error .reservedBits
  | 0x74 => if f.extractLsb' 5 1 == 0#1 then .ok (.fsub d a b (f.extractLsb' 2 3) (f.extractLsb' 0 2)) else .error .reservedBits
  | 0x75 => if f.extractLsb' 5 1 == 0#1 then .ok (.fmul d a b (f.extractLsb' 2 3) (f.extractLsb' 0 2)) else .error .reservedBits
  | 0x76 => if f.extractLsb' 5 1 == 0#1 then .ok (.fma d a b (f.extractLsb' 2 3) (f.extractLsb' 0 2)) else .error .reservedBits
  | 0x77 => if f.extractLsb' 2 4 == 0#4 then .ok (.fmin d a b (f.extractLsb' 0 2)) else .error .reservedBits
  | 0x78 => if f.extractLsb' 2 4 == 0#4 then .ok (.fmax d a b (f.extractLsb' 0 2)) else .error .reservedBits
  | 0x79 => if f.extractLsb' 5 1 == 0#1 then .ok (.fcmp d a b (f.extractLsb' 2 3) (f.extractLsb' 0 2)) else .error .reservedBits
  | 0x7A => .ok (.fcvt d a (b.extractLsb' 4 2) (b.extractLsb' 0 4) (f.extractLsb' 3 3) (f.extractLsb' 0 3))
  | 0x7B => if f.extractLsb' 5 1 == 0#1 then .ok (.fsgn d a b (f.extractLsb' 2 3) (f.extractLsb' 0 2)) else .error .reservedBits
  | 0x7C => if b == 0#6 && f.extractLsb' 2 4 == 0#4 then .ok (.fclass d a (f.extractLsb' 0 2)) else .error .reservedBits
  | 0x7D => if b == 0#6 && f.extractLsb' 5 1 == 0#1 then .ok (.frnd d a (f.extractLsb' 2 3) (f.extractLsb' 0 2)) else .error .reservedBits
  | 0x7E => if d == 0#6 && b == 0#6 && f.extractLsb' 2 4 == 0#4 then .ok (.epb a (f.extractLsb' 0 2)) else .error .reservedBits
  | 0x7F => if a.extractLsb' 1 5 == 0#5 then .ok (.ebnz d (a.extractLsb' 0 1) (b ++ f)) else .error .reservedBits
  | 0x80 => .ok (.vadd d a b (f.extractLsb' 3 3) (f.extractLsb' 2 1) (f.extractLsb' 0 2))
  | 0x81 => .ok (.vsub d a b (f.extractLsb' 3 3) (f.extractLsb' 2 1) (f.extractLsb' 0 2))
  | 0x82 => .ok (.vmul d a b (f.extractLsb' 3 3) (f.extractLsb' 2 1) (f.extractLsb' 0 2))
  | 0x83 => .ok (.vmulh d a b (f.extractLsb' 3 3) (f.extractLsb' 2 1) (f.extractLsb' 0 2))
  | 0x84 => .ok (.vmin d a b (f.extractLsb' 3 3) (f.extractLsb' 2 1) (f.extractLsb' 0 2))
  | 0x85 => .ok (.vmax d a b (f.extractLsb' 3 3) (f.extractLsb' 2 1) (f.extractLsb' 0 2))
  | 0x86 => .ok (.vminu d a b (f.extractLsb' 3 3) (f.extractLsb' 2 1) (f.extractLsb' 0 2))
  | 0x87 => .ok (.vmaxu d a b (f.extractLsb' 3 3) (f.extractLsb' 2 1) (f.extractLsb' 0 2))
  | 0x88 => .ok (.vand d a b (f.extractLsb' 3 3) (f.extractLsb' 2 1) (f.extractLsb' 0 2))
  | 0x89 => .ok (.vor d a b (f.extractLsb' 3 3) (f.extractLsb' 2 1) (f.extractLsb' 0 2))
  | 0x8A => .ok (.vxor d a b (f.extractLsb' 3 3) (f.extractLsb' 2 1) (f.extractLsb' 0 2))
  | 0x8B => .ok (.vshl d a b (f.extractLsb' 3 3) (f.extractLsb' 2 1) (f.extractLsb' 0 2))
  | 0x8C => .ok (.vshr d a b (f.extractLsb' 3 3) (f.extractLsb' 2 1) (f.extractLsb' 0 2))
  | 0x8D => .ok (.vsar d a b (f.extractLsb' 3 3) (f.extractLsb' 2 1) (f.extractLsb' 0 2))
  | 0x8E => .ok (.vsadd d a b (f.extractLsb' 3 3) (f.extractLsb' 2 1) (f.extractLsb' 0 2))
  | 0x8F => .ok (.vsaddu d a b (f.extractLsb' 3 3) (f.extractLsb' 2 1) (f.extractLsb' 0 2))
  | 0x90 => if f.extractLsb' 5 1 == 0#1 then .ok (.vcmp d a b (f.extractLsb' 2 3) (f.extractLsb' 0 2)) else .error .reservedBits
  | 0x91 => if f.extractLsb' 2 1 == 0#1 then .ok (.vsel d a b (f.extractLsb' 3 3) (f.extractLsb' 0 2)) else .error .reservedBits
  | 0x92 => .ok (.vfadd d a b (f.extractLsb' 3 3) (f.extractLsb' 2 1) (f.extractLsb' 0 2))
  | 0x93 => .ok (.vfsub d a b (f.extractLsb' 3 3) (f.extractLsb' 2 1) (f.extractLsb' 0 2))
  | 0x94 => .ok (.vfmul d a b (f.extractLsb' 3 3) (f.extractLsb' 2 1) (f.extractLsb' 0 2))
  | 0x95 => .ok (.vfma d a b (f.extractLsb' 3 3) (f.extractLsb' 2 1) (f.extractLsb' 0 2))
  | 0x96 => .ok (.vfmin d a b (f.extractLsb' 3 3) (f.extractLsb' 2 1) (f.extractLsb' 0 2))
  | 0x97 => .ok (.vfmax d a b (f.extractLsb' 3 3) (f.extractLsb' 2 1) (f.extractLsb' 0 2))
  | 0x98 => if f.extractLsb' 5 1 == 0#1 then .ok (.vfcmp d a b (f.extractLsb' 2 3) (f.extractLsb' 0 2)) else .error .reservedBits
  | 0x99 => .ok (.vfcvt d a (b.extractLsb' 4 2) (b.extractLsb' 0 4) (f.extractLsb' 3 3) (f.extractLsb' 0 3))
  | 0x9A => if f.extractLsb' 5 1 == 0#1 then .ok (.vfsgn d a b (f.extractLsb' 2 3) (f.extractLsb' 0 2)) else .error .reservedBits
  | 0x9B => if b == 0#6 && f.extractLsb' 2 4 == 0#4 then .ok (.vfclass d a (f.extractLsb' 0 2)) else .error .reservedBits
  | 0x9C => if b == 0#6 && f.extractLsb' 4 2 == 0#2 then .ok (.vfred d a (f.extractLsb' 2 2) (f.extractLsb' 0 2)) else .error .reservedBits
  | 0x9D => .ok (.vdot d a b (f.extractLsb' 3 3) (f.extractLsb' 0 3))
  | 0x9E => .ok (.voptw d a b f)
  | 0x9F => if b == 0#6 then .ok (.vmov d a (f.extractLsb' 3 3) (f.extractLsb' 2 1) (f.extractLsb' 0 2)) else .error .reservedBits
  | 0xA0 => if b == 0#6 then .ok (.vsplat d a (f.extractLsb' 3 3) (f.extractLsb' 2 1) (f.extractLsb' 0 2)) else .error .reservedBits
  | 0xA1 => if b == 0#6 then .ok (.vext d a (f.extractLsb' 4 2) (f.extractLsb' 0 4)) else .error .reservedBits
  | 0xA2 => if b == 0#6 then .ok (.vins d a (f.extractLsb' 4 2) (f.extractLsb' 0 4)) else .error .reservedBits
  | 0xA3 => .ok (.vperm d a b (f.extractLsb' 3 3) (f.extractLsb' 2 1) (f.extractLsb' 0 2))
  | 0xA4 => if f.extractLsb' 5 1 == 0#1 then .ok (.vshuf d a b (f.extractLsb' 2 3) (f.extractLsb' 0 2)) else .error .reservedBits
  | 0xA5 => if f.extractLsb' 4 2 == 0#2 then .ok (.vnarrow d a b (f.extractLsb' 2 2) (f.extractLsb' 0 2)) else .error .reservedBits
  | 0xA6 => if b == 0#6 && f.extractLsb' 4 2 == 0#2 then .ok (.vwiden d a (f.extractLsb' 3 1) (f.extractLsb' 2 1) (f.extractLsb' 0 2)) else .error .reservedBits
  | 0xA7 => .ok (.vslide d a b (f.extractLsb' 4 2) (f.extractLsb' 0 4))
  | 0xA8 => .ok (.vqpack d a b (f.extractLsb' 4 2) (f.extractLsb' 2 2) (f.extractLsb' 0 2))
  | 0xA9 => .ok (.vqunpk d a b (f.extractLsb' 4 2) (f.extractLsb' 2 2) (f.extractLsb' 0 2))
  | 0xAA => if b == 0#6 && f.extractLsb' 4 2 == 0#2 then .ok (.vscale d a (f.extractLsb' 2 2) (f.extractLsb' 0 2)) else .error .reservedBits
  | 0xAB => if b == 0#6 && f.extractLsb' 2 1 == 0#1 then .ok (.vmpop d a (f.extractLsb' 3 3) (f.extractLsb' 0 2)) else .error .reservedBits
  | 0xAC => if b == 0#6 && f.extractLsb' 2 1 == 0#1 then .ok (.vmfirst d a (f.extractLsb' 3 3) (f.extractLsb' 0 2)) else .error .reservedBits
  | 0xAD => if f.extractLsb' 3 3 == 0#3 then .ok (.vrot d a b (f.extractLsb' 2 1) (f.extractLsb' 0 2)) else .error .reservedBits
  | 0xAE => if b.extractLsb' 5 1 == 0#1 && f.extractLsb' 4 2 == 0#2 then .ok (.cord d a (b.extractLsb' 0 5) (f.extractLsb' 0 4)) else .error .reservedBits
  | 0xAF => if b.extractLsb' 5 1 == 0#1 && f.extractLsb' 4 2 == 0#2 then .ok (.vcord d a (b.extractLsb' 0 5) (f.extractLsb' 0 4)) else .error .reservedBits
  | 0xB0 => if b == 0#6 && f.extractLsb' 4 2 == 0#2 then .ok (.sset d a (f.extractLsb' 0 4)) else .error .reservedBits
  | 0xB1 => if b == 0#6 && f == 0#6 then .ok (.sread d a) else .error .reservedBits
  | 0xB2 => if f.extractLsb' 3 3 == 0#3 then .ok (.sadd d a b (f.extractLsb' 0 3)) else .error .reservedBits
  | 0xB3 => if f.extractLsb' 3 3 == 0#3 then .ok (.smrg d a b (f.extractLsb' 0 3)) else .error .reservedBits
  | 0xB4 => if b == 0#6 && f == 0#6 then .ok (.vsread d a) else .error .reservedBits
  | 0xB5 => if f.extractLsb' 3 3 == 0#3 then .ok (.vsaddStamped d a b (f.extractLsb' 0 3)) else .error .reservedBits
  | 0xB6 => if f.extractLsb' 3 3 == 0#3 then .ok (.vsmrg d a b (f.extractLsb' 0 3)) else .error .reservedBits
  | 0xB7 => .ok (.rsld d a (b ++ f.extractLsb' 3 3) (f.extractLsb' 0 3))
  | 0xB8 => .ok (.rsst d a (b ++ f.extractLsb' 3 3) (f.extractLsb' 0 3))
  | 0xC0 => if d == 0#6 && b == 0#6 && f.extractLsb' 4 2 == 0#2 then .ok (.tvld a (f.extractLsb' 0 4)) else .error .reservedBits
  | 0xC1 => if a == 0#6 && b == 0#6 && f.extractLsb' 4 2 == 0#2 then .ok (.mloadn d (f.extractLsb' 0 4)) else .error .reservedBits
  | 0xC2 => if a == 0#6 && b == 0#6 && f.extractLsb' 4 2 == 0#2 then .ok (.mloadw d (f.extractLsb' 0 4)) else .error .reservedBits
  | 0xC3 => if b == 0#6 && f == 0#6 then .ok (.mjob d a) else .error .reservedBits
  | 0xC4 => if b == 0#6 && f == 0#6 then .ok (.mwait d a) else .error .reservedBits
  | 0xC5 => if b == 0#6 && f == 0#6 then .ok (.mpoll d a) else .error .reservedBits
  | 0xC6 => if b == 0#6 && f.extractLsb' 4 2 == 0#2 then .ok (.mpub d a (f.extractLsb' 0 4)) else .error .reservedBits
  | 0xC7 => if f == 0#6 then .ok (.msub d a b) else .error .reservedBits
  | 0xC8 => if d == 0#6 && b == 0#6 && f == 0#6 then .ok (.munsub a) else .error .reservedBits
  | 0xC9 => if b == 0#6 && f.extractLsb' 3 3 == 0#3 then .ok (.mchain d a (f.extractLsb' 0 3)) else .error .reservedBits
  | 0xCA => if f == 0#6 then .ok (.msend d a b) else .error .reservedBits
  | 0xCB => if f == 0#6 then .ok (.mcap d a b) else .error .reservedBits
  | 0xCC => if a == 0#6 && b == 0#6 && f == 0#6 then .ok (.mhnd d) else .error .reservedBits
  | 0xCD => if d == 0#6 && a == 0#6 && b == 0#6 && f.extractLsb' 5 1 == 0#1 then .ok (.mdone (f.extractLsb' 4 1) (f.extractLsb' 3 1) (f.extractLsb' 0 3)) else .error .reservedBits
  | 0xCE => if b == 0#6 && f == 0#6 then .ok (.bgemv d a) else .error .reservedBits
  | 0xCF => if b == 0#6 && f == 0#6 then .ok (.bwait d a) else .error .reservedBits
  | 0xD0 => if b == 0#6 && f == 0#6 then .ok (.coll d a) else .error .reservedBits
  | 0xD1 => if b == 0#6 && f == 0#6 then .ok (.cwait d a) else .error .reservedBits
  | 0xD2 => if d == 0#6 then .ok (.csig a b (f.extractLsb' 3 3) (f.extractLsb' 0 3)) else .error .reservedBits
  | 0xD3 => if b == 0#6 && f.extractLsb' 5 1 == 0#1 then .ok (.bar d a (f.extractLsb' 2 3) (f.extractLsb' 0 2)) else .error .reservedBits
  | 0xD4 => if d == 0#6 && b == 0#6 && f.extractLsb' 3 3 == 0#3 then .ok (.vote a (f.extractLsb' 2 1) (f.extractLsb' 0 2)) else .error .reservedBits
  | 0xD5 => if d == 0#6 && b == 0#6 && f == 0#6 then .ok (.stepadv a) else .error .reservedBits
  | 0xD6 => if d == 0#6 && a == 0#6 && b == 0#6 then .ok (.fence (f.extractLsb' 3 3) (f.extractLsb' 0 3)) else .error .reservedBits
  | 0xD7 => if d == 0#6 && a == 0#6 && b == 0#6 && f.extractLsb' 0 3 == 0#3 then .ok (.fenceSc (f.extractLsb' 3 3)) else .error .reservedBits
  | 0xD8 => if d == 0#6 && a == 0#6 && b == 0#6 && f == 0#6 then .ok (.fenceBank) else .error .reservedBits
  | 0xD9 => .ok (.wait d a b (f.extractLsb' 3 3) (f.extractLsb' 0 3))
  | 0xE0 => if f == 0#6 then .ok (.csrr d (a ++ b)) else .error .reservedBits
  | 0xE1 => if f == 0#6 then .ok (.csrw d (a ++ b)) else .error .reservedBits
  | 0xE2 => if f == 0#6 then .ok (.csrs d (a ++ b)) else .error .reservedBits
  | 0xE3 => if f == 0#6 then .ok (.csrc d (a ++ b)) else .error .reservedBits
  | 0xE4 => .ok (.trap (d ++ a ++ b ++ f))
  | 0xE5 => if d == 0#6 && a == 0#6 && b == 0#6 && f == 0#6 then .ok (.eret) else .error .reservedBits
  | 0xE6 => if d == 0#6 && a == 0#6 && b == 0#6 && f == 0#6 then .ok (.halt) else .error .reservedBits
  | 0xE7 => if d == 0#6 && a == 0#6 && b == 0#6 && f == 0#6 then .ok (.nop) else .error .reservedBits
  | 0xE8 => if b == 0#6 && f.extractLsb' 1 5 == 0#5 then .ok (.feat d a (f.extractLsb' 0 1)) else .error .reservedBits
  | 0xE9 => .ok (.dbrk (d ++ a ++ b ++ f))
  | 0xEA => if d == 0#6 then .ok (.loop a (b ++ f)) else .error .reservedBits
  | 0xEB => if d == 0#6 then .ok (.loopi (a ++ b ++ f)) else .error .reservedBits
  | 0xEC => if d == 0#6 && a.extractLsb' 5 1 == 0#1 then .ok (.loopw (a.extractLsb' 3 2) (a.extractLsb' 0 3) (b ++ f)) else .error .reservedBits
  | 0xED => if d == 0#6 && a == 0#6 && b == 0#6 && f.extractLsb' 2 4 == 0#4 then .ok (.lbrk (f.extractLsb' 0 2)) else .error .reservedBits
  | 0xF8 => .ok (.himm (d ++ a ++ b ++ f))
  | 0xF9 => .ok (.hmod (d ++ a ++ b.extractLsb' 2 4) (b.extractLsb' 1 1) (b.extractLsb' 0 1) (f.extractLsb' 3 3) (f.extractLsb' 0 3))
  | 0xFA => .ok (.hsched (d ++ a ++ b ++ f.extractLsb' 5 1) (f.extractLsb' 4 1) (f.extractLsb' 2 2) (f.extractLsb' 0 2))
  | 0xFB => .ok (.nopHint 0#2 (d ++ a ++ b ++ f))
  | 0xFC => .ok (.nopHint 1#2 (d ++ a ++ b ++ f))
  | 0xFD => .ok (.nopHint 2#2 (d ++ a ++ b ++ f))
  | 0xFE => .ok (.nopHint 3#2 (d ++ a ++ b ++ f))
  | _ => .error .reservedOpcode

/-- The decoder: total on words. -/
def decode (w : BitVec 32) : Except DecodeError Instr :=
  decodeParts (opOf w).toNat (dOf w) (aOf w) (bOf w) (fOf w)

/-- Four bytes, the first at the lowest address, as a little-endian word (00 R2). -/
def wordOfBytes (b0 b1 b2 b3 : BitVec 8) : BitVec 32 := b3 ++ b2 ++ b1 ++ b0

/-- The decoder on bytes: the instruction and the rest. -/
def decodeBytes : List (BitVec 8) → Except DecodeError (Instr × List (BitVec 8))
  | b0 :: b1 :: b2 :: b3 :: rest =>
    match decode (wordOfBytes b0 b1 b2 b3) with
    | .ok i => .ok (i, rest)
    | .error e => .error e
  | _ => .error .truncated

/-- The bytes of a word as the machine stores it. -/
def bytesOfWord (w : BitVec 32) : List (BitVec 8) :=
  [w.extractLsb' 0 8, w.extractLsb' 8 8, w.extractLsb' 16 8, w.extractLsb' 24 8]

/-- The word of an instruction; none for a step that has no word. -/
def encode (i : Instr) : Option (BitVec 32) :=
  match i with
  | .aadd d a b w => some (join 0x01 d a b (0#4 ++ w))
  | .asub d a b w => some (join 0x02 d a b (0#4 ++ w))
  | .aand d a b w => some (join 0x03 d a b (0#4 ++ w))
  | .aorr d a b w => some (join 0x04 d a b (0#4 ++ w))
  | .axor d a b w => some (join 0x05 d a b (0#4 ++ w))
  | .ashl d a b w => some (join 0x06 d a b (0#4 ++ w))
  | .ashr d a b w => some (join 0x07 d a b (0#4 ++ w))
  | .asar d a b w => some (join 0x08 d a b (0#4 ++ w))
  | .amul d a b w => some (join 0x09 d a b (0#4 ++ w))
  | .amad d a b w => some (join 0x0A d a b (0#4 ++ w))
  | .amin d a b w => some (join 0x0B d a b (0#4 ++ w))
  | .amax d a b w => some (join 0x0C d a b (0#4 ++ w))
  | .aminu d a b w => some (join 0x0D d a b (0#4 ++ w))
  | .amaxu d a b w => some (join 0x0E d a b (0#4 ++ w))
  | .aslt d a b w => some (join 0x0F d a b (0#4 ++ w))
  | .asltu d a b w => some (join 0x10 d a b (0#4 ++ w))
  | .aaddi d a i => some (join 0x11 d a (i.extractLsb' 6 6) (i.extractLsb' 0 6))
  | .aandi d a i => some (join 0x12 d a (i.extractLsb' 6 6) (i.extractLsb' 0 6))
  | .ashli d a i => some (join 0x13 d a (i.extractLsb' 6 6) (i.extractLsb' 0 6))
  | .ashri d a i => some (join 0x14 d a (i.extractLsb' 6 6) (i.extractLsb' 0 6))
  | .asari d a i => some (join 0x15 d a (i.extractLsb' 6 6) (i.extractLsb' 0 6))
  | .ali d i => some (join 0x16 d (i.extractLsb' 12 6) (i.extractLsb' 6 6) (i.extractLsb' 0 6))
  | .alui d i => some (join 0x17 d (i.extractLsb' 12 6) (i.extractLsb' 6 6) (i.extractLsb' 0 6))
  | .abeq a b o => some (join 0x18 a b (o.extractLsb' 6 6) (o.extractLsb' 0 6))
  | .abne a b o => some (join 0x19 a b (o.extractLsb' 6 6) (o.extractLsb' 0 6))
  | .ablt a b o => some (join 0x1A a b (o.extractLsb' 6 6) (o.extractLsb' 0 6))
  | .abge a b o => some (join 0x1B a b (o.extractLsb' 6 6) (o.extractLsb' 0 6))
  | .abltu a b o => some (join 0x1C a b (o.extractLsb' 6 6) (o.extractLsb' 0 6))
  | .abgeu a b o => some (join 0x1D a b (o.extractLsb' 6 6) (o.extractLsb' 0 6))
  | .abq s o => some (join 0x1E (0#5 ++ s) 0#6 (o.extractLsb' 6 6) (o.extractLsb' 0 6))
  | .ajmp i => some (join 0x1F (i.extractLsb' 18 6) (i.extractLsb' 12 6) (i.extractLsb' 6 6) (i.extractLsb' 0 6))
  | .acall i => some (join 0x20 (i.extractLsb' 18 6) (i.extractLsb' 12 6) (i.extractLsb' 6 6) (i.extractLsb' 0 6))
  | .aret => some (join 0x21 0#6 0#6 0#6 0#6)
  | .ajr d a i => some (join 0x22 d a (i.extractLsb' 6 6) (i.extractLsb' 0 6))
  | .tnext d i => some (join 0x23 d 0#6 (i.extractLsb' 6 6) (i.extractLsb' 0 6))
  | .tend => some (join 0x24 0#6 0#6 0#6 0#6)
  | .spawn d a b => some (join 0x25 d a b 0#6)
  | .fan a b => some (join 0x26 0#6 a b 0#6)
  | .gang d a => some (join 0x27 d a 0#6 0#6)
  | .tqpush d a => some (join 0x28 d a 0#6 0#6)
  | .ld d b o s => some (join 0x29 d b (o.extractLsb' 3 6) (o.extractLsb' 0 3 ++ s))
  | .st d b o s => some (join 0x2A d b (o.extractLsb' 3 6) (o.extractLsb' 0 3 ++ s))
  | .ldg d b o s => some (join 0x2B d b (o.extractLsb' 3 6) (o.extractLsb' 0 3 ++ s))
  | .stg d b o s => some (join 0x2C d b (o.extractLsb' 3 6) (o.extractLsb' 0 3 ++ s))
  | .latm d b p s => some (join 0x2D d b (p ++ 0#2) (0#3 ++ s))
  | .atom d a b r w p => some (join 0x2E d a b (r ++ w ++ p))
  | .put d a b s => some (join 0x2F d a b (0#3 ++ s))
  | .msg d a b f => some (join 0x30 d a b (0#5 ++ f))
  | .wcfg a n => some (join 0x31 0#6 a 0#6 (0#3 ++ n))
  | .wstart n => some (join 0x32 0#6 0#6 0#6 (0#3 ++ n))
  | .wstop n => some (join 0x33 0#6 0#6 0#6 (0#3 ++ n))
  | .wflags d n => some (join 0x34 d 0#6 0#6 (0#3 ++ n))
  | .wpos d a f n => some (join 0x35 d a 0#6 (0#2 ++ f ++ n))
  | .cpy d a => some (join 0x36 d a 0#6 0#6)
  | .cpyw a e => some (join 0x37 0#6 a 0#6 (0#4 ++ e))
  | .winset a b => some (join 0x38 0#6 a b 0#6)
  | .winget d a k => some (join 0x39 d a 0#6 (0#4 ++ k))
  | .pflist a => some (join 0x3A 0#6 a 0#6 0#6)
  | .rcpy d a r h => some (join 0x3B d a 0#6 (0#1 ++ r ++ h))
  | .rcfg a h => some (join 0x3C 0#6 a 0#6 (0#2 ++ h))
  | .rwait d h => some (join 0x3D d 0#6 0#6 (0#2 ++ h))
  | .rresv d h => some (join 0x3E d 0#6 0#6 (0#2 ++ h))
  | .rprod h => some (join 0x3F 0#6 0#6 0#6 (0#2 ++ h))
  | .rcons h => some (join 0x40 0#6 0#6 0#6 (0#2 ++ h))
  | .rslot d a h => some (join 0x41 d a 0#6 (0#2 ++ h))
  | .ssweep d a b => some (join 0x42 d a b 0#6)
  | .add d a b w => some (join 0x50 d a b (0#4 ++ w))
  | .sub d a b w => some (join 0x51 d a b (0#4 ++ w))
  | .mul d a b w => some (join 0x52 d a b (0#4 ++ w))
  | .mulh d a b w => some (join 0x53 d a b (0#4 ++ w))
  | .mulhu d a b w => some (join 0x54 d a b (0#4 ++ w))
  | .div d a b w => some (join 0x55 d a b (0#4 ++ w))
  | .divu d a b w => some (join 0x56 d a b (0#4 ++ w))
  | .rem d a b w => some (join 0x57 d a b (0#4 ++ w))
  | .remu d a b w => some (join 0x58 d a b (0#4 ++ w))
  | .and d a b w => some (join 0x59 d a b (0#4 ++ w))
  | .or d a b w => some (join 0x5A d a b (0#4 ++ w))
  | .xor d a b w => some (join 0x5B d a b (0#4 ++ w))
  | .shl d a b w => some (join 0x5C d a b (0#4 ++ w))
  | .shr d a b w => some (join 0x5D d a b (0#4 ++ w))
  | .sar d a b w => some (join 0x5E d a b (0#4 ++ w))
  | .min d a b w => some (join 0x5F d a b (0#4 ++ w))
  | .max d a b w => some (join 0x60 d a b (0#4 ++ w))
  | .minu d a b w => some (join 0x61 d a b (0#4 ++ w))
  | .maxu d a b w => some (join 0x62 d a b (0#4 ++ w))
  | .slt d a b w => some (join 0x63 d a b (0#4 ++ w))
  | .sltu d a b w => some (join 0x64 d a b (0#4 ++ w))
  | .seq d a b w => some (join 0x65 d a b (0#4 ++ w))
  | .sel d a b w => some (join 0x66 d a b (0#4 ++ w))
  | .clz d a w => some (join 0x67 d a 0#6 (0#4 ++ w))
  | .popc d a w => some (join 0x68 d a 0#6 (0#4 ++ w))
  | .sext d a w => some (join 0x69 d a 0#6 (0#4 ++ w))
  | .addi d a i => some (join 0x6A d a (i.extractLsb' 6 6) (i.extractLsb' 0 6))
  | .andi d a i => some (join 0x6B d a (i.extractLsb' 6 6) (i.extractLsb' 0 6))
  | .ori d a i => some (join 0x6C d a (i.extractLsb' 6 6) (i.extractLsb' 0 6))
  | .xori d a i => some (join 0x6D d a (i.extractLsb' 6 6) (i.extractLsb' 0 6))
  | .shli d a i => some (join 0x6E d a (i.extractLsb' 6 6) (i.extractLsb' 0 6))
  | .shri d a i => some (join 0x6F d a (i.extractLsb' 6 6) (i.extractLsb' 0 6))
  | .sari d a i => some (join 0x70 d a (i.extractLsb' 6 6) (i.extractLsb' 0 6))
  | .li d i => some (join 0x71 d (i.extractLsb' 12 6) (i.extractLsb' 6 6) (i.extractLsb' 0 6))
  | .lui d i => some (join 0x72 d (i.extractLsb' 12 6) (i.extractLsb' 6 6) (i.extractLsb' 0 6))
  | .fadd d a b r f => some (join 0x73 d a b (0#1 ++ r ++ f))
  | .fsub d a b r f => some (join 0x74 d a b (0#1 ++ r ++ f))
  | .fmul d a b r f => some (join 0x75 d a b (0#1 ++ r ++ f))
  | .fma d a b r f => some (join 0x76 d a b (0#1 ++ r ++ f))
  | .fmin d a b f => some (join 0x77 d a b (0#4 ++ f))
  | .fmax d a b f => some (join 0x78 d a b (0#4 ++ f))
  | .fcmp d a b c f => some (join 0x79 d a b (0#1 ++ c ++ f))
  | .fcvt d a k t s r => some (join 0x7A d a (k ++ t) (s ++ r))
  | .fsgn d a b o f => some (join 0x7B d a b (0#1 ++ o ++ f))
  | .fclass d a f => some (join 0x7C d a 0#6 (0#4 ++ f))
  | .frnd d a r f => some (join 0x7D d a 0#6 (0#1 ++ r ++ f))
  | .epb a c => some (join 0x7E 0#6 a 0#6 (0#4 ++ c))
  | .ebnz a s o => some (join 0x7F a (0#5 ++ s) (o.extractLsb' 6 6) (o.extractLsb' 0 6))
  | .vadd d a b m k w => some (join 0x80 d a b (m ++ k ++ w))
  | .vsub d a b m k w => some (join 0x81 d a b (m ++ k ++ w))
  | .vmul d a b m k w => some (join 0x82 d a b (m ++ k ++ w))
  | .vmulh d a b m k w => some (join 0x83 d a b (m ++ k ++ w))
  | .vmin d a b m k w => some (join 0x84 d a b (m ++ k ++ w))
  | .vmax d a b m k w => some (join 0x85 d a b (m ++ k ++ w))
  | .vminu d a b m k w => some (join 0x86 d a b (m ++ k ++ w))
  | .vmaxu d a b m k w => some (join 0x87 d a b (m ++ k ++ w))
  | .vand d a b m k w => some (join 0x88 d a b (m ++ k ++ w))
  | .vor d a b m k w => some (join 0x89 d a b (m ++ k ++ w))
  | .vxor d a b m k w => some (join 0x8A d a b (m ++ k ++ w))
  | .vshl d a b m k w => some (join 0x8B d a b (m ++ k ++ w))
  | .vshr d a b m k w => some (join 0x8C d a b (m ++ k ++ w))
  | .vsar d a b m k w => some (join 0x8D d a b (m ++ k ++ w))
  | .vsadd d a b m k w => some (join 0x8E d a b (m ++ k ++ w))
  | .vsaddu d a b m k w => some (join 0x8F d a b (m ++ k ++ w))
  | .vcmp d a b c w => some (join 0x90 d a b (0#1 ++ c ++ w))
  | .vsel d a b m w => some (join 0x91 d a b (m ++ 0#1 ++ w))
  | .vfadd d a b m k w => some (join 0x92 d a b (m ++ k ++ w))
  | .vfsub d a b m k w => some (join 0x93 d a b (m ++ k ++ w))
  | .vfmul d a b m k w => some (join 0x94 d a b (m ++ k ++ w))
  | .vfma d a b m k w => some (join 0x95 d a b (m ++ k ++ w))
  | .vfmin d a b m k w => some (join 0x96 d a b (m ++ k ++ w))
  | .vfmax d a b m k w => some (join 0x97 d a b (m ++ k ++ w))
  | .vfcmp d a b c f => some (join 0x98 d a b (0#1 ++ c ++ f))
  | .vfcvt d a p t s r => some (join 0x99 d a (p ++ t) (s ++ r))
  | .vfsgn d a b o f => some (join 0x9A d a b (0#1 ++ o ++ f))
  | .vfclass d a f => some (join 0x9B d a 0#6 (0#4 ++ f))
  | .vfred d a o f => some (join 0x9C d a 0#6 (0#2 ++ o ++ f))
  | .vdot d a b r t => some (join 0x9D d a b (r ++ t))
  | .voptw d a b p => some (join 0x9E d a b p)
  | .vmov d a m k w => some (join 0x9F d a 0#6 (m ++ k ++ w))
  | .vsplat d a m k w => some (join 0xA0 d a 0#6 (m ++ k ++ w))
  | .vext d a w k => some (join 0xA1 d a 0#6 (w ++ k))
  | .vins d a w k => some (join 0xA2 d a 0#6 (w ++ k))
  | .vperm d a b m k w => some (join 0xA3 d a b (m ++ k ++ w))
  | .vshuf d a b o w => some (join 0xA4 d a b (0#1 ++ o ++ w))
  | .vnarrow d a b m w => some (join 0xA5 d a b (0#2 ++ m ++ w))
  | .vwiden d a h s w => some (join 0xA6 d a 0#6 (0#2 ++ h ++ s ++ w))
  | .vslide d a b w s => some (join 0xA7 d a b (w ++ s))
  | .vqpack d a b p t f => some (join 0xA8 d a b (p ++ t ++ f))
  | .vqunpk d a b p t f => some (join 0xA9 d a b (p ++ t ++ f))
  | .vscale d a t f => some (join 0xAA d a 0#6 (0#2 ++ t ++ f))
  | .vmpop d a m w => some (join 0xAB d a 0#6 (m ++ 0#1 ++ w))
  | .vmfirst d a m w => some (join 0xAC d a 0#6 (m ++ 0#1 ++ w))
  | .vrot d a b r w => some (join 0xAD d a b (0#3 ++ r ++ w))
  | .cord d a n f => some (join 0xAE d a (0#1 ++ n) (0#2 ++ f))
  | .vcord d a n f => some (join 0xAF d a (0#1 ++ n) (0#2 ++ f))
  | .sset d a c => some (join 0xB0 d a 0#6 (0#2 ++ c))
  | .sread d a => some (join 0xB1 d a 0#6 0#6)
  | .sadd d a b r => some (join 0xB2 d a b (0#3 ++ r))
  | .smrg d a b r => some (join 0xB3 d a b (0#3 ++ r))
  | .vsread d a => some (join 0xB4 d a 0#6 0#6)
  | .vsaddStamped d a b r => some (join 0xB5 d a b (0#3 ++ r))
  | .vsmrg d a b r => some (join 0xB6 d a b (0#3 ++ r))
  | .rsld d b o s => some (join 0xB7 d b (o.extractLsb' 3 6) (o.extractLsb' 0 3 ++ s))
  | .rsst d b o s => some (join 0xB8 d b (o.extractLsb' 3 6) (o.extractLsb' 0 3 ++ s))
  | .tvld a n => some (join 0xC0 0#6 a 0#6 (0#2 ++ n))
  | .mloadn d n => some (join 0xC1 d 0#6 0#6 (0#2 ++ n))
  | .mloadw d n => some (join 0xC2 d 0#6 0#6 (0#2 ++ n))
  | .mjob d a => some (join 0xC3 d a 0#6 0#6)
  | .mwait d a => some (join 0xC4 d a 0#6 0#6)
  | .mpoll d a => some (join 0xC5 d a 0#6 0#6)
  | .mpub d a n => some (join 0xC6 d a 0#6 (0#2 ++ n))
  | .msub d a b => some (join 0xC7 d a b 0#6)
  | .munsub a => some (join 0xC8 0#6 a 0#6 0#6)
  | .mchain d a n => some (join 0xC9 d a 0#6 (0#3 ++ n))
  | .msend d a b => some (join 0xCA d a b 0#6)
  | .mcap d a b => some (join 0xCB d a b 0#6)
  | .mhnd d => some (join 0xCC d 0#6 0#6 0#6)
  | .mdone d a m => some (join 0xCD 0#6 0#6 0#6 (0#1 ++ d ++ a ++ m))
  | .bgemv d a => some (join 0xCE d a 0#6 0#6)
  | .bwait d a => some (join 0xCF d a 0#6 0#6)
  | .coll d a => some (join 0xD0 d a 0#6 0#6)
  | .cwait d a => some (join 0xD1 d a 0#6 0#6)
  | .csig a b s k => some (join 0xD2 0#6 a b (s ++ k))
  | .bar d a o s => some (join 0xD3 d a 0#6 (0#1 ++ o ++ s))
  | .vote a c k => some (join 0xD4 0#6 a 0#6 (0#3 ++ c ++ k))
  | .stepadv a => some (join 0xD5 0#6 a 0#6 0#6)
  | .fence s k => some (join 0xD6 0#6 0#6 0#6 (s ++ k))
  | .fenceSc s => some (join 0xD7 0#6 0#6 0#6 (s ++ 0#3))
  | .fenceBank => some (join 0xD8 0#6 0#6 0#6 0#6)
  | .wait d a b s c => some (join 0xD9 d a b (s ++ c))
  | .csrr d c => some (join 0xE0 d (c.extractLsb' 6 6) (c.extractLsb' 0 6) 0#6)
  | .csrw d c => some (join 0xE1 d (c.extractLsb' 6 6) (c.extractLsb' 0 6) 0#6)
  | .csrs d c => some (join 0xE2 d (c.extractLsb' 6 6) (c.extractLsb' 0 6) 0#6)
  | .csrc d c => some (join 0xE3 d (c.extractLsb' 6 6) (c.extractLsb' 0 6) 0#6)
  | .trap i => some (join 0xE4 (i.extractLsb' 18 6) (i.extractLsb' 12 6) (i.extractLsb' 6 6) (i.extractLsb' 0 6))
  | .eret => some (join 0xE5 0#6 0#6 0#6 0#6)
  | .halt => some (join 0xE6 0#6 0#6 0#6 0#6)
  | .nop => some (join 0xE7 0#6 0#6 0#6 0#6)
  | .feat d a t => some (join 0xE8 d a 0#6 (0#5 ++ t))
  | .dbrk i => some (join 0xE9 (i.extractLsb' 18 6) (i.extractLsb' 12 6) (i.extractLsb' 6 6) (i.extractLsb' 0 6))
  | .loop a i => some (join 0xEA 0#6 a (i.extractLsb' 6 6) (i.extractLsb' 0 6))
  | .loopi i => some (join 0xEB 0#6 (i.extractLsb' 12 6) (i.extractLsb' 6 6) (i.extractLsb' 0 6))
  | .loopw f w i => some (join 0xEC 0#6 (0#1 ++ f ++ w) (i.extractLsb' 6 6) (i.extractLsb' 0 6))
  | .lbrk n => some (join 0xED 0#6 0#6 0#6 (0#4 ++ n))
  | .himm p => some (join 0xF8 (p.extractLsb' 18 6) (p.extractLsb' 12 6) (p.extractLsb' 6 6) (p.extractLsb' 0 6))
  | .hmod e s n c k => some (join 0xF9 (e.extractLsb' 10 6) (e.extractLsb' 4 6) (e.extractLsb' 0 4 ++ s ++ n) (c ++ k))
  | .hsched x k r l => some (join 0xFA (x.extractLsb' 13 6) (x.extractLsb' 7 6) (x.extractLsb' 1 6) (x.extractLsb' 0 1 ++ k ++ r ++ l))
  | .nopHint op p => some (join (nopOpcode op) (p.extractLsb' 18 6) (p.extractLsb' 12 6) (p.extractLsb' 6 6) (p.extractLsb' 0 6))
  | .illegalInstruction _ => none
  | .fetchDeliver _ _ => none
  | .walkerFetch _ _ _ => none
  | .walkerStoreWrite _ _ _ => none
  | .translationWalk _ _ _ => none
  | .pageBringUp _ _ => none
  | .backgroundScrub _ => none
  | .startMessage _ _ _ => none
  | .coreArrive _ _ => none
  | .risingPennant _ => none
  | .pollTimer _ => none
  | .poll _ _ => none
  | .corePark _ => none
  | .decideCommit _ _ => none
  | .decideAbort _ _ => none
  | .donePennant _ => none
  | .resume _ => none
  | .watchdogExpiry _ => none
  | .deltaArrive _ _ => none
  | .matrixJobStart _ => none
  | .drainRow _ => none
  | .matrixJobComplete _ => none
  | .chainForward _ => none
  | .streamPublishRead _ _ => none
  | .copyReusable _ _ => none
  | .copyVisible _ _ => none
  | .copyFault _ _ => none
  | .pfeRun _ => none
  | .pfeLand _ => none
  | .sweepComplete _ _ => none
  | .bgemvComplete _ _ => none
  | .nbuFault _ _ => none
  | .collStart _ _ => none
  | .collComplete _ _ => none
  | .collTimeout _ _ => none
  | .timingReplay _ _ => none
  | .currentLimit _ => none
  | .thermalTrip _ _ _ => none
  | .derate _ _ => none
  | .lwpost _ _ => none
  | .lwcancel _ _ => none
  | .lwcqhead _ _ => none
  | .registerWrite _ _ _ => none
  | .launchSelect _ => none
  | .gatePass _ => none
  | .recomputeDrop _ => none
  | .split _ => none
  | .merge _ => none
  | .release _ => none
  | .paddockConfigWrite _ _ _ => none
  | .vfBind _ _ => none
  | .setpte => none
  | .fetch => none
  | .evict => none
  | .hwrite => none
  | .hread => none
  | .shres => none
  | .saveSignal _ => none
  | .copySaveDone _ => none
  | .restoreDone _ => none
  | .exportTenant => none
  | .importTenant _ => none
  | .importConfirm _ => none
  | .abandon => none
  | .warmReset _ _ => none
  | .warmResetOverrun => none
  | .wrcmdResume _ => none
  | .wdbudget _ => none
  | .start _ => none
  | .membershipLoad => none
  | .d2dFlitReceive _ _ _ _ => none
  | .d2dNak _ _ => none
  | .moduleRetrain _ _ => none
  | .edgeDown _ => none
  | .llynnalFlitReceive _ _ _ _ => none
  | .portRetrain _ => none
  | .heartbeatFlit _ _ => none
  | .deviceFailed _ _ => none
  | .pwcmd _ => none
  | .powerStateApply _ => none
  | .pwgate _ => none
  | .pwhbm _ => none
  | .stage => none
  | .commitSvn => none
  | .getVersion _ => none
  | .getCapabilities _ => none
  | .negotiateAlgorithms _ _ _ _ _ => none
  | .getCertificate _ => none
  | .challenge _ _ => none
  | .getMeasurements _ _ => none
  | .keyExchange _ _ => none
  | .finish _ _ => none
  | .setkey _ _ => none
  | .tdispLockInterface _ => none
  | .tdispStartInterface _ => none
  | .stopInterface _ => none
  | .decideProceed _ _ => none
  | .globalAccessPerformed _ => none
  | .moduleRetrainDone _ _ _ _ => none
  | .portRetrainDone _ _ => none
  | .currentFallsBack _ => none
  | .debuggerAttach _ _ _ => none
  | .debuggerResume _ _ => none
  | .recoverySelfTest _ _ => none
  | .rovasCommand => none
  | .elhead _ => none

/-- The host's question: the instruction the decoder reads from table bits w. Every word is 32 bits, so nbits,
which is 32 or (for a row without a word) 0, adds nothing. -/
def decodeTableWord (_nbits w : Nat) : Option Instr :=
  match decodeBytes (bytesOfWord (BitVec.ofNat 32 w)) with
  | .ok (i, _) => some i
  | .error _ => none

end Sys2Proof
end

