-- ==== Sys2Proof/Machine/Units.lean ====
section
/-!
DEFINITION. Reaching the units of the machine by number (01 R11, R13), and the monad in which the meanings of
instruction words are written: a state, and the two ways an instruction does not complete (a stall, a trap).
-/

namespace Sys2Proof.Machine

open Sys2Proof

/-- A core by its identifier. -/
def State.core (s : State) (c : Nat) : Core := tget s.cores c {}
/-- A core changed. -/
def State.modCore (s : State) (c : Nat) (f : Core → Core) : State := { s with cores := tmod s.cores c {} f }
/-- A context of a core. -/
def Core.ctx (c : Core) (k : Nat) : Ctx := tget c.ctxs k {}
/-- A context of a core changed. -/
def Core.modCtx (c : Core) (k : Nat) (f : Ctx → Ctx) : Core := { c with ctxs := tmod c.ctxs k {} f }
/-- A context by core and context number. -/
def State.ctx (s : State) (c k : Nat) : Ctx := (s.core c).ctx k
/-- A context changed. -/
def State.modCtx (s : State) (c k : Nat) (f : Ctx → Ctx) : State := s.modCore c (fun co => co.modCtx k f)
/-- A team by module team number. -/
def State.team (s : State) (t : Nat) : Team := tget s.teams t {}
/-- A team changed. -/
def State.modTeam (s : State) (t : Nat) (f : Team → Team) : State := { s with teams := tmod s.teams t {} f }
/-- A cluster by module cluster number. -/
def State.cluster (s : State) (k : Nat) : Cluster := tget s.clusters k {}
/-- A cluster changed. -/
def State.modCluster (s : State) (k : Nat) (f : Cluster → Cluster) : State :=
  { s with clusters := tmod s.clusters k {} f }
/-- A die. -/
def State.die (s : State) (d : Nat) : Die := tget s.dies d {}
/-- A die changed. -/
def State.modDie (s : State) (d : Nat) (f : Die → Die) : State := { s with dies := tmod s.dies d {} f }
/-- A commit domain by the model's key. -/
def State.domain (s : State) (d : Nat) : Domain := tget s.domains d { live := false }
/-- A commit domain changed. -/
def State.modDomain (s : State) (d : Nat) (f : Domain → Domain) : State :=
  { s with domains := tmod s.domains d { live := false } f }
/-- The platform changed. -/
def State.modPlat (s : State) (f : Platform → Platform) : State := { s with plat := f s.plat }
/-- A virtual function. -/
def State.vf (s : State) (v : Nat) : Vf := tget s.plat.vfs v {}
/-- A virtual function changed. -/
def State.modVf (s : State) (v : Nat) (f : Vf → Vf) : State :=
  s.modPlat (fun p => { p with vfs := tmod p.vfs v {} f })
/-- A paddock node. -/
def State.node (s : State) (n : Nat) : Node := tget s.plat.nodes n {}
/-- A paddock node changed. -/
def State.modNode (s : State) (n : Nat) (f : Node → Node) : State :=
  s.modPlat (fun p => { p with nodes := tmod p.nodes n {} f })
/-- An edge. -/
def State.edge (s : State) (e : Nat) : Edge := tget s.plat.edges e {}
/-- An edge changed. -/
def State.modEdge (s : State) (e : Nat) (f : Edge → Edge) : State :=
  s.modPlat (fun p => { p with edges := tmod p.edges e {} f })
/-- A Llynnal port. -/
def State.port (s : State) (p : Nat) : Port := tget s.plat.ports p {}
/-- A Llynnal port changed. -/
def State.modPort (s : State) (p : Nat) (f : Port → Port) : State :=
  s.modPlat (fun q => { q with ports := tmod q.ports p {} f })
/-- A stored PF register by its BAR0 offset. -/
def State.pf (s : State) (off : Nat) : W64 := tget s.plat.pf off 0
/-- A unit's entry in the speed table. -/
def State.speedOf (s : State) (engine : Bool) (u : Nat) : Speed := tget (if engine then s.plat.teamSpeed else s.plat.coreSpeed) u {}
def State.modSpeed (s : State) (engine : Bool) (u : Nat) (f : Speed → Speed) : State :=
  s.modPlat (fun p => if engine then { p with teamSpeed := tmod p.teamSpeed u {} f } else { p with coreSpeed := tmod p.coreSpeed u {} f })
/-- A stored PF register written. -/
def State.setPf (s : State) (off : Nat) (v : W64) : State := s.modPlat (fun p => { p with pf := tput p.pf off v })
/-- Steps caused by this one, to happen after those caused earlier; one that is pending already is not put twice. -/
def State.pend (s : State) (l : List Chore) : State :=
  { s with sched := { s.sched with pending := l.foldl (fun p c => if p.contains c then p else p ++ [c]) s.sched.pending } }
/-- The heartbeat tick as a 64-bit word (R225). -/
def State.tick (s : State) : W64 := w64 s.hbt

/-! ### Lanes and flits (05 R121, 23 R390-R395) -/

/-- The lane of a global address (05 R121). -/
def reqLane (a : Nat) : Nat := (List.range 13).foldl (fun x i => x ^^^ (a / 64 % 2 ^ 49 / 16 ^ i % 16)) 0

/-- One byte into a CRC-64 with the ECMA-182 polynomial, most significant bit first (23 R395). -/
def crcByte (c : W64) (b : Byte) : W64 :=
  (List.range 8).foldl (fun c _ => if c.getLsbD 63 then (c <<< 1) ^^^ 0x42F0E1EBA9EA3693#64 else c <<< 1) (c ^^^ (b.setWidth 64 <<< 56))
/-- The CRC-64 over bytes 0 to 247 of a flit: its header and its payload, zeros after it. See log 43. -/
def flitCrc (l : List W64) : W64 := (List.range 248).foldl (fun c i => crcByte c (byteOf (l.getD (i / 8) 0).toNat (i % 8))) 0

/-- The header of a flit (23 R395). -/
def flitHeader (own : Nat) (seq : BitVec 12) (f : OutFlit) : W64 :=
  w64 (seq.toNat + f.dst % 4096 * 2 ^ 12 + f.src.getD own % 4096 * 2 ^ 24 + f.cls % 8 * 2 ^ 36 + f.lane % 16 * 2 ^ 39 + f.epoch % 16 * 2 ^ 43 + 8 * f.words.length * 2 ^ 48)

/-- The up ports that reach a device: those cabled to it, else every one, whose peer passes the flit on. See log 43. -/
def State.reaching (s : State) (dst : Nat) : List Nat :=
  let up := (List.range 32).filter (fun k => (s.port k).state == 2)
  let direct := up.filter (fun k => (s.port k).peer == dst)
  if direct.isEmpty then up else direct
/-- The port that a flit takes (23 R395): classes 0 to 2 by their lane, so that a lane keeps its order; others in turn. -/
def State.portFor (s : State) (f : OutFlit) : Option Nat :=
  let l := s.reaching f.dst
  l[(if f.cls ≤ 2 then f.lane else s.plat.sent.length) % l.length]?
/-- A flit leaves a port with the port's next SEQ, and is kept until it is acknowledged. -/
def State.transmit (s : State) (k : Nat) (f : OutFlit) : State :=
  let x := flitHeader s.plat.devNo.toNat (s.port k).txNext f :: f.words
  let x := x ++ [flitCrc x]
  (s.modPort k (fun p => { p with txNext := p.txNext + 1, buffer := p.buffer ++ [x] })).modPlat
    (fun p => { p with sent := p.sent ++ [(k, x)] })
/-- A flit sent, or kept behind earlier ones of its class and lane, for want of a port, or while the port's buffer holds
1,024 flits (23 R391, R395). A pennant has credits of its own and never waits behind data. -/
def State.sendOut (s : State) (f : OutFlit) : State :=
  let keep := s.modPlat (fun p => { p with unsent := p.unsent ++ [f] })
  if s.plat.unsent.any (fun g => g.cls == f.cls && g.lane == f.lane) then keep
  else match s.portFor f with
    | none => keep
    | some k => if f.cls ≠ 7 ∧ f.cls ≠ 3 ∧ 1024 ≤ (s.port k).buffer.length then keep else s.transmit k f
/-- Kept flits tried again, in order, pennants before data. -/
def State.flushOut (s : State) : State :=
  let l := s.plat.unsent
  (l.filter (fun f => f.cls == 3) ++ l.filter (fun f => f.cls != 3)).foldl State.sendOut (s.modPlat (fun p => { p with unsent := [] }))
/-- Words sent to another device over the fabric, with the class of their flit and the sender's epoch (23 R395, R399).
See log 5. -/
def State.sendFlit (s : State) (dst cls epoch : Nat) (words : List W64) : State := s.sendOut { dst := dst, cls := cls, epoch := epoch, words := words }

/-- One direction of an edge (23 R391). -/
def Edge.dir (e : Edge) (d : Nat) : Dir := if d = 0 then e.dir0 else e.dir1
def Edge.modDir (e : Edge) (d : Nat) (f : Dir → Dir) : Edge := if d = 0 then { e with dir0 := f e.dir0 } else { e with dir1 := f e.dir1 }
/-- A module of an edge, and whether it carries flits. -/
def Edge.module (e : Edge) (m : Nat) : Ucie := tget e.modules m {}
def Edge.carries (e : Edge) (m : Nat) : Bool := decide (m < 8) && ((e.module m).mstate == 1 || (e.module m).mstate == 2)
/-- No module carries flits. -/
def Edge.dead (e : Edge) : Bool := !(List.range 8).any e.carries

/-- The place in the round of sixteen turns, from a place on, whose module carries flits; a module at 32 lanes has every
second of its turns (R391). -/
def Edge.nextTurn (e : Edge) (from_ : Nat) : Option Nat :=
  ((List.range 16).map (fun i => (from_ + i) % 16)).find? (fun t => e.carries (t % 8) && ((e.module (t % 8)).mstate == 1 || decide (t < 8)))

/-- A new flit leaves the transmitter on the next module in turn; at most 128 wait for acknowledgement. -/
def Edge.sendNew (e : Edge) (d : Nat) : Option Edge :=
  if 128 ≤ (e.dir d).buffer.length then none
  else (e.nextTurn (e.dir d).turn).map (fun t => e.modDir d (fun x =>
    { x with txNext := x.txNext + 1, turn := (t + 1) % 16, buffer := x.buffer ++ [{ seq := x.txNext.toNat, module := t % 8 }] }))

/-- A flit of the buffer changed. -/
def Dir.modFlit (x : Dir) (seq : Nat) (f : Flit → Flit) : Dir := { x with buffer := x.buffer.map (fun y => if y.seq = seq then f y else y) }

/-- A flit reaches the receiver (R391): in sequence it is delivered and acknowledges what came before; a failed CRC asks for
a replay, and until the expected flit comes again the rest is discarded unchecked. See log 42. -/
def Dir.receive (x : Dir) (seq : BitVec 8) (crcOk : Bool) : Dir :=
  if x.skipping ∧ seq ≠ x.rxNext then x
  else if !crcOk then
    { (x.modFlit seq.toNat (fun y => { y with fails := y.fails + 1 })) with crc := satAdd x.crc 1, skipping := true, nak := some x.rxNext }
  else if seq = x.rxNext then
    { x with rxNext := x.rxNext + 1, acked := x.rxNext + 1, skipping := false, nak := none, buffer := x.buffer.filter (fun y => y.seq != seq.toNat) }
  else x

/-- A step from a die within its row, or within its column: the edge, its direction, and the die reached (23 R390). -/
def hop (d : Nat) (column : Bool) : Nat × Nat × Nat :=
  if column then (2 + d % 2, d / 2 % 2, (d + 2) % 4) else (d / 2, d % 2, if d % 2 = 0 then d + 1 else d - 1)
/-- The edges and directions of a path of steps. -/
def hops (d : Nat) (path : List Bool) : List (Nat × Nat) :=
  match path with
  | [] => []
  | k :: r => let h := hop d k; (h.1, h.2.1) :: hops h.2.2 r
/-- The paths from a die to another (23 R390, R393): the direct one first, to the diagonal die through the source's row; then
the detour through the other dies. -/
def paths (a b : Nat) : List (List Bool) :=
  if a = b then [[]]
  else if a / 2 = b / 2 then [[false], [true, false, true]]
  else if a % 2 = b % 2 then [[true], [false, true, false]]
  else [[false, true], [true, false]]
/-- The edges that a request from die a to die b crosses: the first path without an edge that is down (23 R393); none when every
path has one. An edge whose loss is not yet an EDGE_DOWN holds what would cross it. -/
def State.route (s : State) (a b : Nat) : Option (List (Nat × Nat)) :=
  ((paths a b).map (hops a)).find? (fun l => l.all (fun h => !(s.edge h.1).down))

/-- A request crosses one direction: as the flit that was sent for it and has been delivered since, or as a new one that is
delivered at once. It waits while a replay is awaited or 128 flits are not acknowledged (R391). See log 42. -/
def Edge.pass (e : Edge) (d : Nat) : Option Edge :=
  match (e.dir d).claims with
  | q :: r => if (e.dir d).buffer.any (fun y => y.seq == q) then none else some (e.modDir d (fun x => { x with claims := r }))
  | [] => if (e.dir d).skipping then none else (e.sendNew d).map (fun x => x.modDir d (fun z => z.receive (e.dir d).txNext true))

/-- Every direction of a route passed, or none of them. -/
def State.passAll (s : State) (l : List (Nat × Nat)) : Option State :=
  l.foldlM (fun s h => ((s.edge h.1).pass h.2).map (fun x => s.modEdge h.1 (fun _ => x))) s

/-- The flit of a request had left for an edge that has gone down since: it has crossed the detour with the edge's other flits
(R393). -/
def State.detoured (s : State) (a b : Nat) : Option (Nat × Nat) :=
  (hops a ((paths a b).headD [])).find? (fun h => (s.edge h.1).down && !((s.edge h.1).dir h.2).claims.isEmpty)

/-- A request crosses from die a to die b; none while it must wait. See log 42. -/
def State.cross (s : State) (a b : Nat) : Option State :=
  match s.detoured a b with
  | some h => s.passAll [h]
  | none => (s.route a b).bind s.passAll

/-- The lanes that a retraining finds failing, repaired with the free spares of their direction, in increasing number (R392); with
failing lanes left, the half that holds none, else the module is off. -/
def Ucie.trained (u : Ucie) (l0 l1 : List Nat) : Ucie :=
  let r0 := l0.drop (4 - u.spare0)
  let r1 := l1.drop (4 - u.spare1)
  let u := { u with spare0 := Nat.min 4 (u.spare0 + l0.length), spare1 := Nat.min 4 (u.spare1 + l1.length) }
  let bad := fun h => (r0 ++ r1).any (fun l => l / 32 == h)
  if r0.isEmpty ∧ r1.isEmpty then { u with mstate := if u.narrow then 2 else 1 }
  else if !bad 0 then { u with mstate := 2, half := 0, narrow := true }
  else if !bad 1 then { u with mstate := 2, half := 1, narrow := true }
  else { u with mstate := 0 }

/-- A module trained with the lanes that fail in each direction; the edge's registers take the repairs and the last failing lane
(R392, R394). -/
def Edge.train (x : Edge) (m : Nat) (l0 l1 : List Nat) : Edge :=
  let u := x.module m
  let v := u.trained l0 l1
  let x := { x with modules := tput x.modules m v, repairs := x.repairs + BitVec.ofNat 8 (v.spare0 + v.spare1 - u.spare0 - u.spare1) }
  match l1.getLast?, l0.getLast? with
  | some l, _ => { x with lane := l, lmodule := m, ldir := 1 }
  | none, some l => { x with lane := l, lmodule := m, ldir := 0 }
  | none, none => x

/-- Module cluster number of a core (R11). -/
def clusterOf (c : Nat) : Nat := c / 128
/-- Module team number of a core (R11). -/
def teamOf (c : Nat) : Nat := c / 8
/-- Die of a core (R11). -/
def dieOf (c : Nat) : Nat := c / 2048
/-- Core-in-cluster number (R11). -/
def inCluster (c : Nat) : Nat := c % 128
/-- Global core identifier (R11). -/
def State.gcid (s : State) (c : Nat) : Nat := s.plat.devNo.toNat * 8192 + c
/-- Neighbour of a core in direction 0 N, 1 E, 2 S, 3 W on the torus of R13. -/
def neighbour (c dir : Nat) : Nat :=
  let k := inCluster c
  let col := k % 16
  let row := k / 16
  let n := match dir with
    | 0 => (row + 7) % 8 * 16 + col
    | 1 => row * 16 + (col + 1) % 16
    | 2 => (row + 1) % 8 * 16 + col
    | _ => row * 16 + (col + 15) % 16
  clusterOf c * 128 + n
/-- The unit of a phase-domain level (R355: 1 core, 2 cluster, 3 die, 4 module) that holds a core. -/
def unitOf (level c : Nat) : Nat :=
  match level with
  | 1 => c
  | 2 => clusterOf c
  | 3 => dieOf c
  | _ => 0

/-- The inbound channel of a direction. -/
def Core.chan (c : Core) (dir : Nat) : List Entry :=
  match dir with
  | 0 => c.chanN
  | 1 => c.chanE
  | 2 => c.chanS
  | _ => c.chanW
/-- The inbound channel of a direction replaced. -/
def Core.setChan (c : Core) (dir : Nat) (l : List Entry) : Core :=
  match dir with
  | 0 => { c with chanN := l }
  | 1 => { c with chanE := l }
  | 2 => { c with chanS := l }
  | _ => { c with chanW := l }
/-- Entries held in all four inbound channels. -/
def Core.chanCount (c : Core) : Nat := c.chanN.length + c.chanE.length + c.chanS.length + c.chanW.length
/-- The set of non-empty inbound channels, bit 0 N to bit 3 W (R226 code 14, R305). -/
def Core.chanSet (c : Core) : Nat :=
  b2n (c.chanN.length != 0) + 2 * b2n (c.chanE.length != 0) + 4 * b2n (c.chanS.length != 0)
    + 8 * b2n (c.chanW.length != 0)
/-- A field of MEMDIAG counted up, saturating at 0xFFFF (R76): 0 UNCONF, 1 STAGEW, 2 DDISC, 3 CHDISC. -/
def Core.diag (c : Core) (field n : Nat) : Core :=
  { c with memdiag := bput c.memdiag (16 * field) 16 (Nat.min (bf c.memdiag (16 * field) 16 + n) 0xFFFF) }

/-- A unit is marked absent, by firmware or with its cluster at start (22 R387, 25 R411). -/
def State.unitAbsent (s : State) (engine : Bool) (u : Nat) : Bool :=
  (s.speedOf engine u).absent || s.plat.failed.contains (if engine then u / 16 else clusterOf u)
/-- A core is marked absent by firmware or with its cluster at start (22 R387), or runs in the alternate numerics mode, which
counts as absent (R57, R128). -/
def State.coreAbsent (s : State) (c : Nat) : Bool :=
  s.unitAbsent false c || (s.core c).anm

/-- The commit domain a core is a member of. -/
def State.domOf (s : State) (c : Nat) : Option Domain :=
  match (s.core c).domain with
  | some d => if (s.domain d).live then some (s.domain d) else none
  | none => none
/-- The tenant whose launch a core runs; 0 when none. -/
def State.tenantOf (s : State) (c : Nat) : Nat := match s.domOf c with | some d => d.vf | none => 0
/-- The paddock node of a core's launch; 0 when none. -/
def State.nodeOf (s : State) (c : Nat) : Nat := match s.domOf c with | some d => d.node | none => 0

/-- First and last cluster, exclusive, of a paddock node (R358). -/
def nodeRange (n : Nat) : Nat × Nat :=
  let l := Nat.log2 n
  let w := 64 / 2 ^ l
  ((n - 2 ^ l) * w, (n - 2 ^ l) * w + w)
/-- log2 of a node's cluster count (R355 PSIZE). -/
def nodeLog (n : Nat) : Nat := 6 - Nat.log2 n
/-- The cores of a node, in increasing number. -/
def nodeCores (n : Nat) : List Nat :=
  let r := nodeRange n
  (List.range ((r.2 - r.1) * 128)).map (fun i => r.1 * 128 + i)

/-! ### The monad -/

/-- Why an instruction word does not complete in this step: it stalls, causing device steps meanwhile, or it traps
with a cause of R226 and its TVAL; committed tells poison of group 3 from poison of group 2. See log 6. -/
inductive Stop where
  | stall (cause : List Chore)
  | trap (cause : Nat) (tval : W64) (committed : Bool)
  deriving DecidableEq, Repr

/-- Meanings of instruction words. A stop drops every change, so traps and stalls are precise (R160, R173). -/
abbrev M (α : Type) := StateT State (Except Stop) α

/-- The instruction waits. -/
def stall : M α := throw (.stall [])
/-- The instruction waits for a device step, which it asks for. -/
def stallFor (l : List Chore) : M α := throw (.stall l)
/-- The instruction traps. -/
def trapWith (cause : Nat) (tval : W64) : M α := throw (.trap cause tval false)
/-- Whether containment told this instruction to ignore a cause (R53). -/
def ignoring (cause : Nat) : M Bool := return (← get).issue.ign.contains cause
/-- A condition the instruction waits for. -/
def await (p : Bool) : M Unit := if p then pure () else stall
/-- A condition the instruction waits for, with the device steps that bring it about. -/
def awaitFor (p : Bool) (l : List Chore) : M Unit := if p then pure () else stallFor l

/-- The core that issues. -/
def me : M Nat := return (← get).issue.core
/-- The context that issues. -/
def myCtx : M Nat := return (← get).issue.ctx
/-- The issuing core's state. -/
def getCore : M Core := return (← get).core (← get).issue.core
/-- The issuing core's state changed. -/
def modCore (f : Core → Core) : M Unit := modify (fun s => s.modCore s.issue.core f)
/-- The issuing context's state. -/
def getCtx : M Ctx := return (← get).ctx (← get).issue.core (← get).issue.ctx
/-- The issuing context's state changed. -/
def modCtx (f : Ctx → Ctx) : M Unit := modify (fun s => s.modCtx s.issue.core s.issue.ctx f)

/-- The state between steps: nothing issues. -/
def State.quiet (s : State) : State := { s with issue := {} }

/-- The outcome of a device, host, link or firmware step: its next state, or that it cannot occur here (R27). See log 6. -/
def event (name : String) (o : Option State) : Host.Outcome State Fault Refusal :=
  match o with
  | some s => .next s.quiet
  | none => .refused (.cannotOccur name)

end Sys2Proof.Machine
end

