-- ==== Sys2Proof/Machine/Memory.lean ====
section
/-!
DEFINITION. Local and global memory as the cores and the engines reach them: window resolution (04 R73, R74, R78),
classes (R80-R82), kept versions and reservations (R84-R88, R334), deltas (R89), translation (21 R366-R370) and
frames (R374).
-/

namespace Sys2Proof.Machine

open Sys2Proof

/-! ### Bytes of the stores -/

/-- A byte of HBM by frame address: unlisted bytes are zero (22 R387 step 7). See log 2. -/
def State.hbyte (s : State) (a : Nat) : Byte := tget s.hbm a 0
/-- n bytes of HBM. -/
def State.hread (s : State) (a n : Nat) : Nat := gather s.hbyte a n
/-- A byte of HBM written; the list keeps its canonical form. See log 2. -/
def State.hputb (s : State) (a : Nat) (b : Byte) : State := { s with hbm := tset s.hbm a b 0 }
/-- Bytes written from an address, where the mask says so. -/
def State.hwriteMask (s : State) (a : Nat) (n v m : Nat) : State :=
  (List.range n).foldl (fun s i => if m.testBit i then s.hputb (a + i) (byteOf v i) else s) s
/-- n bytes of HBM written. -/
def State.hwrite (s : State) (a n v : Nat) : State := s.hwriteMask a n v (2 ^ n - 1)
/-- A byte of host memory. -/
def State.hostByte (s : State) (a : Nat) : Byte := tget s.plat.hostMem a 0
/-- n bytes of host memory. -/
def State.hostRead (s : State) (a n : Nat) : Nat := gather s.hostByte a n
/-- n bytes of host memory written. -/
def State.hostWrite (s : State) (a n v : Nat) : State :=
  s.modPlat (fun p => { p with hostMem := (List.range n).foldl (fun m i => tset m (a + i) (byteOf v i) 0) p.hostMem })

/-- The TCM scratch range of R75. -/
def inScratch (cfg : W64) (off : Nat) : Bool :=
  decide (256 * bf cfg 0 8 ≤ off) && decide (off < 256 * bf cfg 0 8 + 256 * bf cfg 8 8)
/-- A byte of a core's TCM: versioned bytes are zero until written, scratch bytes are a free value (R81). -/
def Core.tcmByte (c : Core) (num off : Nat) : Byte :=
  if inScratch c.tcmcfg off then (tfind c.scratch off).getD (Config.scratchByte (c.gen * 8192 + num) off)
  else tget c.tcm off 0
/-- A byte of a core's TCM written. -/
def Core.putTcm (c : Core) (off : Nat) (b : Byte) : Core :=
  if inScratch c.tcmcfg off then { c with scratch := tput c.scratch off b } else { c with tcm := tset c.tcm off b 0 }
/-- A scratchpad byte lies in one of some ranges; ranges wrap at the end of the scratchpad (R78). -/
def inRanges (l : List (Nat × Nat)) (a : Nat) : Bool :=
  l.any (fun r => decide ((a + Config.padBytes - r.1 % Config.padBytes) % Config.padBytes < r.2))
/-- The boundary that last left a scratchpad byte unknown; 0 for the state at reset. -/
def Cluster.era (k : Cluster) (a : Nat) : Nat :=
  match k.lost.find? (fun x => inRanges x.ranges a && !inRanges x.kept a) with
  | some x => x.gen
  | none => 0
/-- A byte of a cluster scratchpad, whatever the window that names it (R78): a byte that nothing has written since
the reset or the last boundary that left it unknown is a free value (R81). See log 4. -/
def Cluster.padByte (k : Cluster) (num a : Nat) : Byte :=
  (tfind k.pad a).getD (Config.scratchByte (2 ^ 40 + k.era a * 64 + num) a)
/-- The committed image of a scratchpad byte: the logged line where the owner has written (R85). -/
def Cluster.committedByte (k : Cluster) (num a : Nat) : Byte :=
  match k.logged.find? (fun l => l.1 == a / 64) with
  | some l => byteOf l.2.toNat (a % 64)
  | none => k.padByte num a

/-! ### Local addresses -/

/-- Fields of a window-table entry (R78). -/
def Win.base (w : Win) : Nat := bf w.w0 0 16
def Win.lsize (w : Win) : Nat := bf w.w0 16 5
def Win.cls (w : Win) : Nat := bf w.w0 24 2
def Win.owner (w : Win) : Nat := bf w.w0 26 7
def Win.state (w : Win) : Nat := bf w.w0 33 2
/-- An entry with another STATE. -/
def Win.setState (w : Win) (v : Nat) : Win := { w with w0 := bput w.w0 33 2 v }

/-- The bytes that a window offset of cluster k names for an access of n bytes, whatever the window's STATE (R73, R78). -/
def State.resolveWin (s : State) (k win off n : Nat) : Loc :=
  let e := tget (s.cluster k).wins win {}
  if e.lsize = 0 then .unconf
  else
    let o := alignTo n (off % 2 ^ e.lsize)
    .pad ((64 * e.base + o) % Config.padBytes) e.cls e.owner win o

/-- Resolution of a window offset of cluster k for an access of n bytes (R73, R74, R78). -/
def State.locateWin (s : State) (k win off n : Nat) : Loc :=
  let e := tget (s.cluster k).wins win {}
  if e.lsize ≠ 0 ∧ e.state ≠ 0 then .absent k win else s.resolveWin k win off n

/-- Resolution of a local address for an access of n bytes by core c (R73). -/
def State.locate (s : State) (c addr n : Nat) : Loc :=
  let a := addr % 2 ^ 32
  if a / 2 ^ 24 = 0 then .tcm (alignTo n (a % 65536))
  else s.locateWin (clusterOf c) (a / 2 ^ 24) (a % 2 ^ 24) n

/-- The bytes a local address of core c names for an access of n bytes, whatever its window's STATE (R93). -/
def State.resolve (s : State) (c addr n : Nat) : Loc :=
  let a := addr % 2 ^ 32
  if a / 2 ^ 24 = 0 then .tcm (alignTo n (a % 65536))
  else s.resolveWin (clusterOf c) (a / 2 ^ 24) (a % 2 ^ 24) n

/-- n bytes as core c reads them (R82). -/
def State.lreadAt (s : State) (c : Nat) (l : Loc) (n : Nat) : Nat :=
  match l with
  | .unconf => 0
  | .absent _ _ => 0
  | .tcm off => gather ((s.core c).tcmByte c) off n
  | .pad off cls owner _ _ =>
    let k := s.cluster (clusterOf c)
    gather (fun a => if cls = 1 ∧ owner ≠ inCluster c then k.committedByte (clusterOf c) (a % Config.padBytes)
      else k.padByte (clusterOf c) (a % Config.padBytes)) off n

/-! ### Deltas -/

/-- The entries that stored deltas take: combined ones take one (R88). -/
def entriesOf (l : List Delta) : Nat := (l.filter (fun d => !d.shared)).length
/-- Version-pool entries of a cluster in use or reserved (R85, R86). -/
def Cluster.poolUsed (k : Cluster) : Nat := k.logged.length + entriesOf k.deltas + k.reserved
/-- Delta-store entries of a die in use or reserved (R88). -/
def Die.storeUsed (d : Die) : Nat := entriesOf d.deltas + (d.reserved.map (fun p => p.2)).sum
/-- A delta-store entry reserved for a tenant. -/
def Die.reserve (d : Die) (v : Nat) : Die := { d with reserved := tmod d.reserved v 0 (fun n => n + 1) }
/-- A reserved entry taken. -/
def Die.unreserve (d : Die) (v : Nat) : Die := { d with reserved := tmod d.reserved v 0 (fun n => n - 1) }

/-- The open superstep, attempt and epoch of a core's domain (R41, R399). -/
def State.stamp (s : State) (c : Nat) : BitVec 48 × Nat × Nat :=
  match s.domOf c with
  | some d => (d.ssn, d.att, d.epoch)
  | none => (0, 0, 0)

/-- A delta sent with a given sequence number, counted in the sender's pending bytes (R34); a line delta of the same
sequence number and target already in flight takes the new bytes over the old. See log 54. -/
def State.emit (s : State) (c seq bytes : Nat) (kind : DeltaKind) (target : Target) : State :=
  let st := s.stamp c
  let d : Delta := { core := c, seq := seq, ssn := st.1, att := st.2.1, epoch := st.2.2, bytes := bytes,
                     kind := kind, target := target }
  (s.modCore c (fun co => { co with flight := co.flight ++ [d], sent := co.sent + BitVec.ofNat 48 bytes })).pend
    [.deltaArrive c seq]

/-- The next sequence number of a core (R89). -/
def State.takeSeq (s : State) (c : Nat) : Nat × State :=
  ((s.core c).seq, s.modCore c (fun co => { co with seq := (co.seq + 1) % 2 ^ 32 }))

/-- Bytes of a line delta over those already in it. -/
def mergeLine (d : BitVec 512) (m : BitVec 64) (off n v : Nat) : BitVec 512 × BitVec 64 :=
  let msk := (2 ^ (8 * n) - 1) * 2 ^ (8 * off)
  (BitVec.ofNat 512 ((d.toNat &&& ((2 ^ 512 - 1) ^^^ msk)) ||| ((v % 2 ^ (8 * n)) * 2 ^ (8 * off))),
   m ||| BitVec.ofNat 64 ((2 ^ n - 1) * 2 ^ off))

/-- Whether a line delta in flight has this sequence number and line. -/
def Delta.sameLine (d : Delta) (seq : Nat) (target : Target) : Bool :=
  d.seq == seq && decide (d.target = target) &&
    (match d.kind with | .line _ _ => true | _ => false)

/-- n bytes at an offset of a line sent as a line delta; an engine's words of one line share one delta. -/
def State.emitLine (s : State) (c seq : Nat) (target : Target) (off n v : Nat) : State :=
  if (s.core c).flight.any (fun d => d.sameLine seq target) then
    s.modCore c (fun co => { co with flight := co.flight.map (fun d =>
      if d.sameLine seq target then
        match d.kind with
        | .line dt m => let r := mergeLine dt m off n v; { d with kind := .line r.1 r.2 }
        | _ => d
      else d) })
  else
    let r := mergeLine 0 0 off n v
    s.emit c seq 64 (.line r.1 r.2) target

/-- The deltas of a sequence number that core c has in flight share the entry that their command has reserved (R335). -/
def State.share (s : State) (c seq : Nat) : State :=
  s.modCore c (fun co => { co with flight := co.flight.map (fun d => if d.seq == seq then { d with shared := true } else d) })

/-! ### Local writes -/

/-- Why a write does not happen: a cause of R226 with its TVAL. -/
abbrev Fail := Nat × W64

/-- Whether an undo-log entry for a line exists or can be taken (R84, R86); an engine (eng) has reserved its entry. -/
def Core.canLog (c : Core) (line : Nat) (eng : Bool) : Bool :=
  c.undo.any (fun l => l.1 == line) || (eng && c.undoRes.contains line)
    || decide (c.undo.length + c.undoRes.length < Config.undoLines)

/-- The 64-byte line of a core's TCM. -/
def Core.tcmLine (c : Core) (num line : Nat) : BitVec 512 := BitVec.ofNat 512 (gather (c.tcmByte num) (64 * line) 64)

/-- A line entered in the undo log before its first write (R84); an engine (eng) uses the entry it has reserved. -/
def Core.logLine (c : Core) (num line : Nat) (eng : Bool) : Core :=
  if c.undo.any (fun l => l.1 == line) then c
  else { c with undo := (line, c.tcmLine num line) :: c.undo, badLog := c.bad.filter (fun w => w / 8 == line) ++ c.badLog
                markedLog := c.marked.filter (fun a => a / 64 == line) ++ c.markedLog, undoRes := if eng then c.undoRes.erase line else c.undoRes }

/-- The 8-byte words with an error that cannot be corrected, less those that n bytes from off write in full (25 R413). -/
def healed (bad : List Nat) (off n : Nat) : List Nat := bad.filter (fun w => !(decide (off ≤ 8 * w) && decide (8 * w + 8 ≤ off + n)))
/-- A word with an error lies among n bytes. -/
def meetsBad (bad : List Nat) (off n : Nat) : Bool := bad.any (fun w => decide (off < 8 * w + 8) && decide (8 * w < off + n))
/-- The words of some 64-byte lines. -/
def inLines (lines : List (Nat × BitVec 512)) (w : Nat) : Bool := lines.any (fun l => l.1 == w / 8)

/-- The bytes of poisoned lines that have not been written since, less n bytes from off (25 R413). -/
def unmarked (marked : List Nat) (off n : Nat) : List Nat := marked.filter (fun a => !(decide (off ≤ a) && decide (a < off + n)))
/-- n bytes lie in a line that keeps its mark. -/
def meetsMark (marked : List Nat) (off n : Nat) : Bool := marked.any (fun a => decide (off / 64 ≤ a / 64) && decide (64 * (a / 64) < off + n))

/-- n bytes of TCM written, byte by byte. -/
def Core.putTcms (c : Core) (off n v : Nat) : Core :=
  (List.range n).foldl (fun c i => c.putTcm (off + i) (byteOf v i)) { c with bad := healed c.bad off n, marked := unmarked c.marked off n }

/-- n bytes of a scratchpad written, byte by byte. -/
def Cluster.putPads (k : Cluster) (off n v : Nat) : Cluster :=
  { k with pad := (List.range n).foldl (fun m i => tput m ((off + i) % Config.padBytes) (byteOf v i)) k.pad
           bad := healed k.bad off n, marked := unmarked k.marked off n }

/-- The words with an error in the committed images of a core's TCM and of a scratchpad, where a logged line has its own (25 R413), and
the marked bytes of those images (02 R52). -/
def Core.committedBad (c : Core) : List Nat := c.bad.filter (fun w => !inLines c.undo w) ++ c.badLog
def Cluster.committedBad (k : Cluster) : List Nat := k.bad.filter (fun w => !inLines k.logged w) ++ k.badLog
def Core.committedMarked (c : Core) : List Nat := c.marked.filter (fun a => !c.undo.any (fun x => x.1 == a / 64)) ++ c.markedLog
def Cluster.committedMarked (k : Cluster) : List Nat := k.marked.filter (fun a => !k.logged.any (fun x => x.1 == a / 64)) ++ k.markedLog

/-- A read of n bytes by core c at a place meets a word with an error that cannot be corrected (25 R413): of the scratchpad, or,
where the committed image is read from the version pool (R85), of the pool entry. See log 13. -/
def State.meetsError (s : State) (c : Nat) (l : Loc) (n : Nat) : Bool :=
  match l with
  | .tcm off => meetsBad (s.core c).bad off n
  | .pad off cls owner _ _ =>
    let k := s.cluster (clusterOf c)
    if cls = 1 ∧ owner ≠ inCluster c then meetsBad k.committedBad off n else meetsBad k.bad off n
  | _ => false

/-- The poison mark that a read of n bytes by core c at a place meets, with the local address that names it (R226, R242): of a working
image when its core has logged the line in the superstep (02 R52). See log 13. -/
def State.localMark (s : State) (c : Nat) (l : Loc) (addr n : Nat) : Option Mark :=
  let mark (m : List Nat) (off : Nat) (logged : List (Nat × BitVec 512)) : Option Mark :=
    if meetsMark m off n then some { line := w64 (alignTo 64 (addr % 2 ^ 32)), committed := !logged.any (fun x => x.1 == off / 64) } else none
  match l with
  | .tcm off => mark (s.core c).marked off (s.core c).undo
  | .pad off cls owner _ _ =>
    let k := s.cluster (clusterOf c)
    if cls = 1 ∧ owner ≠ inCluster c then mark k.committedMarked off []
    else mark k.marked off (if cls = 1 then k.logged else [])
  | _ => none

/-- The containment group of a fault that an engine meets as core c (R196): poison of a working image is group 2. -/
def State.meetsWorking (s : State) (c cause : Nat) (a : W64) : Bool :=
  cause == 9 && (match s.localMark c (s.resolve c a.toNat 64) a.toNat 64 with | some m => !m.committed | none => false)

/-- A scratchpad line entered in the version pool before its owner's first write (R85). -/
def Cluster.logLine (k : Cluster) (num line : Nat) (eng : Bool) : Cluster :=
  if k.logged.any (fun l => l.1 == line) then k
  else { k with logged := (line, BitVec.ofNat 512 (gather (k.padByte num) (64 * line) 64)) :: k.logged
                badLog := k.bad.filter (fun w => w / 8 == line) ++ k.badLog
                markedLog := k.marked.filter (fun a => a / 64 == line) ++ k.markedLog
                reserved := if eng then k.reserved - 1 else k.reserved }

/-- n bytes written as core c writes them (R82, R84, R85). An engine (eng) uses the entries reserved at its issue and
the sequence number it was given; a store reserves now and takes the next one. -/
def State.lwriteAt (s : State) (c : Nat) (l : Loc) (n v : Nat) (eng : Option Nat) : Except Fail State :=
  match l with
  | .unconf => .ok s
  | .absent _ _ => .ok s
  | .tcm off =>
    let co := s.core c
    if inScratch co.tcmcfg off then .ok (s.modCore c (fun co => co.putTcms off n v))
    else if co.canLog (off / 64) eng.isSome then .ok (s.modCore c (fun co => (co.logLine c (off / 64) eng.isSome).putTcms off n v))
    else .error (11, 0)
  | .pad off cls owner win woff =>
    let k := s.cluster (clusterOf c)
    if cls = 0 then .ok (s.modCluster (clusterOf c) (fun k => k.putPads off n v))
    else if cls = 2 then .ok (s.modCore c (fun co => co.diag 1 1))
    else if owner = inCluster c then
      if k.logged.any (fun x => x.1 == off / 64) || eng.isSome || decide (k.poolUsed < Config.poolEntries) then
        .ok (s.modCluster (clusterOf c) (fun k => (k.logLine (clusterOf c) (off / 64) eng.isSome).putPads off n v))
      else .error (12, 0)
    else
      match eng with
      | some seq => .ok (s.emitLine c seq (.window (clusterOf c) win (alignTo 64 woff)) (woff % 64) n v)
      | none =>
        if k.poolUsed < Config.poolEntries then
          let (seq, s) := s.takeSeq c
          .ok ((s.modCluster (clusterOf c) (fun k => { k with reserved := k.reserved + 1 })).emitLine c seq
            (.window (clusterOf c) win (alignTo 64 woff)) (woff % 64) n v)
        else .error (12, 0)

/-- The version entry that a store of core c to a place takes at its issue (R84-R86), with the sequence number of its
delta (R89): the line is entered in its log then, for no byte of an unlogged versioned line is ever written. -/
def State.takeEntry (s : State) (c : Nat) (l : Loc) : Except Fail (Nat × State) :=
  match l with
  | .unconf => .ok (0, s)
  | .absent _ _ => .ok (0, s)
  | .tcm off =>
    if inScratch (s.core c).tcmcfg off then .ok (0, s)
    else if (s.core c).canLog (off / 64) false then .ok (0, s.modCore c (fun co => co.logLine c (off / 64) false))
    else .error (11, 0)
  | .pad off cls owner _ _ =>
    let k := s.cluster (clusterOf c)
    if cls = 0 ∨ cls = 2 then .ok (0, s)
    else if owner = inCluster c ∧ k.logged.any (fun x => x.1 == off / 64) then .ok (0, s)
    else if k.poolUsed < Config.poolEntries then
      if owner = inCluster c then .ok (0, s.modCluster (clusterOf c) (fun k => k.logLine (clusterOf c) (off / 64) false))
      else .ok ((s.takeSeq c).1, (s.takeSeq c).2.modCluster (clusterOf c) (fun k => { k with reserved := k.reserved + 1 }))
    else .error (12, 0)

/-- A store that has issued is performed: its bytes are written, as its core writes them. -/
def State.writeHeld (s : State) (c : Nat) (h : Held) : State :=
  match h.loc with
  | .unconf => s.modCore c (fun co => co.diag 0 1)
  | l => match s.lwriteAt c l h.size (h.data.toNat % 2 ^ (8 * h.size)) (some h.seq) with
    | .ok t => t
    | .error _ => s

/-! ### Global addresses -/

/-- The kinds of access of R370. -/
inductive Acc where
  | read | write | fetch
  deriving DecidableEq, Repr

/-- Fields of a page-table entry (R367). -/
def pteV (e : W64) : Bool := bit e 0
def pteClass (e : W64) : Nat := bf e 1 3
def pteTier (e : W64) : Nat := bf e 5 2
def pteKey (e : W64) : Nat := bf e 7 8
def pteScrub (e : W64) : Bool := bit e 15
def pteA (e : W64) : Bool := bit e 16
def pteD (e : W64) : Bool := bit e 17
def pteRd (e : W64) : Bool := bit e 18
def pteWr (e : W64) : Bool := bit e 19
def pteEx (e : W64) : Bool := bit e 20
def ptePch (e : W64) : Nat := bf e 24 10
def pteFrame (e : W64) : Nat := bf e 34 30

/-- Where a tenant's frames of tables are listed (R366): the level 0 table, the level 1 table of a level 0 index, the
level 2 table of the two upper indices. -/
def rootKey : Nat := 0
def midKey (va : Nat) : Nat := 1 + va / 2 ^ 42
def lowKey (va : Nat) : Nat := 2 ^ 14 + va / 2 ^ 29

/-- An entry that points to a table (R367). -/
def tableEntry (keyid frame : Nat) : W64 := w64 (1 + keyid * 2 ^ 7 + frame * 2 ^ 34)
/-- The level 0 entry of an address; all zero, so not valid, where there is none. -/
def Vf.entry0 (t : Vf) (va : Nat) : W64 := match tfind t.tables (midKey va) with | some f => tableEntry t.keyid f | none => 0
/-- The level 1 entry of an address: a leaf or a table. -/
def Vf.entry1 (t : Vf) (va : Nat) : W64 :=
  match tfind t.bigs (va / 2 ^ 29) with
  | some e => e
  | none => match tfind t.tables (lowKey va) with | some f => tableEntry t.keyid f | none => 0
/-- The level 2 entry of an address. -/
def Vf.entry2 (t : Vf) (va : Nat) : W64 := tget t.pages (va / 2 ^ 16) 0

/-- LEAF (R367). -/
def pteLeaf (e : W64) : Bool := bit e 4

/-- The entry that maps an address, with whether it is a 512 MiB page: the walk of the three levels (R366). -/
def State.pte (s : State) (v : Nat) (va : W64) : Option (W64 × Bool) :=
  let t := s.vf v
  let a := va.toNat
  if !pteV (t.entry0 a) || !pteV (t.entry1 a) then none
  else if pteLeaf (t.entry1 a) then some (t.entry1 a, true)
  else if pteV (t.entry2 a) then some (t.entry2 a, false)
  else none

/-- The entry that maps an address, changed. -/
def State.modPte (s : State) (v : Nat) (va : W64) (f : W64 → W64) : State :=
  s.modVf v (fun t =>
    match tfind t.bigs (va.toNat / 2 ^ 29) with
    | some e => { t with bigs := tput t.bigs (va.toNat / 2 ^ 29) (f e) }
    | none =>
      match tfind t.pages (va.toNat / 2 ^ 16) with
      | some e => { t with pages := tput t.pages (va.toNat / 2 ^ 16) (f e) }
      | none => t)

/-- What a translation finds (R370). -/
inductive Xl where
  /-- a translation fault: 6 not mapped, 7 permission -/
  | fault (cause : Nat)
  /-- a page that must come to tier 0 first -/
  | wait
  /-- the HBM address, the page class and the entry -/
  | ok (phys cls : Nat) (entry : W64)
  deriving DecidableEq, Repr

/-- Translation of an address of tenant v (R366, R370). See log 35. -/
def State.xlate (s : State) (v : Nat) (va : W64) (k : Acc) : Xl :=
  if bf va 55 9 ≠ 0 then .fault 6
  else match s.pte v va with
    | none => .fault 6
    | some (e, big) =>
      let permitted := match k with
        | .read => pteRd e
        | .write => pteWr e && decide (pteClass e ≠ 4)
        | .fetch => pteEx e
      if !permitted then .fault 7
      else if pteTier e ≠ 0 then .wait
      else .ok ((pteFrame e % 2 ^ 24) * 65536 + va.toNat % (if big then 2 ^ 29 else 2 ^ 16)) (pteClass e) e

/-- Home die of an HBM address (R367). -/
def homeDie (phys : Nat) : Nat := phys / 2 ^ 36 / 4 % 4

/-- A translation cache holds a page's translation, with D set for a write (R369). -/
def cacheHit (l : List Cached) (v page : Nat) (write : Bool) : Option Cached :=
  l.find? (fun x => x.vf == v && x.page == page && (!write || x.dirty))
/-- A translation put into a cache of n entries; the oldest one leaves a full cache. See log 35. -/
def cachePut (n : Nat) (l : List Cached) (e : Cached) : List Cached := (e :: l.filter (fun x => !(x.vf == e.vf && x.page == e.page))).take n

/-- A translation installed in the caches of core c: its own, its cluster's and its die's (R369). -/
def State.install (s : State) (c : Nat) (e : Cached) : State :=
  ((s.modCore c (fun x => { x with cached := cachePut Config.coreCache x.cached e })).modCluster (clusterOf c)
    (fun x => { x with cached := cachePut Config.clusterCache x.cached e })).modDie (dieOf c)
    (fun x => { x with cached := cachePut Config.dieCache x.cached e })

/-- The walk of R369: A is set, D when the access writes, and the translation is installed. -/
def State.walk (s : State) (c v : Nat) (va : W64) (write : Bool) : State :=
  let page := va.toNat / 2 ^ 16
  let s := s.modPte v va (fun e => e ||| 0x10000#64 ||| (if write then 0x20000#64 else 0))
  let old := match s.pte v va with | some (e, _) => pteD e | none => false
  s.install c { vf := v, page := page, dirty := old }

/-- The look-up of R369: the core's cache, the cluster's, the die's, and a walk when all three miss or, for a write, hold
the entry with D clear. See log 35. -/
def State.lookup (s : State) (c v : Nat) (va : W64) (write : Bool) : State :=
  let page := va.toNat / 2 ^ 16
  match cacheHit (s.core c).cached v page write with
  | some _ => s
  | none =>
    match cacheHit (s.cluster (clusterOf c)).cached v page write, cacheHit (s.die (dieOf c)).cached v page write with
    | some e, _ => s.modCore c (fun x => { x with cached := cachePut Config.coreCache x.cached e })
    | none, some e => (s.modCore c (fun x => { x with cached := cachePut Config.coreCache x.cached e })).modCluster (clusterOf c)
        (fun x => { x with cached := cachePut Config.clusterCache x.cached e })
    | none, none => s.walk c v va write

/-- Every translation cache drops the entries that a test names (R371). -/
def State.dropCaches (s : State) (p : Cached → Bool) : State :=
  let keep := fun (l : List Cached) => l.filter (fun x => !p x)
  { s with cores := s.cores.map (fun x => (x.1, { x.2 with cached := keep x.2.cached }))
           clusters := s.clusters.map (fun x => (x.1, { x.2 with cached := keep x.2.cached }))
           dies := s.dies.map (fun x => (x.1, { x.2 with cached := keep x.2.cached })) }

/-- Scrub on touch of one line (R374): a line not yet zeroed is zeroed and its bit set. -/
def State.scrubLine (s : State) (phys : Nat) : State :=
  let f := phys / 65536
  let line := phys % 65536 / 64
  match tfind s.plat.frames f with
  | none => s
  | some fr =>
    if fr.dirtyLines.contains line then
      (s.hwrite (alignTo 64 phys) 64 0).modPlat
        (fun p => { p with frames := tput p.frames f { fr with dirtyLines := fr.dirtyLines.erase line } })
    else s

/-- The poison mark of a line of HBM (R413). -/
def State.poisonAt (s : State) (phys : Nat) : Bool := (tfind s.plat.poisoned (phys / 64)).isSome

/-- Bytes of one line written: a marked line keeps its mark until every byte of it has been written (R413). -/
def State.notePoison (s : State) (phys n m : Nat) : State :=
  match tfind s.plat.poisoned (phys / 64) with
  | none => s
  | some w =>
    let w := w ||| BitVec.ofNat 64 ((m % 2 ^ n) * 2 ^ (phys % 64))
    s.modPlat (fun p => { p with poisoned := if w = BitVec.allOnes 64 then tdel p.poisoned (phys / 64) else tput p.poisoned (phys / 64) w })

/-- The mark of a line copied with its data from line src to line dst. -/
def State.copyPoison (s : State) (src dst : Nat) : State :=
  s.modPlat (fun p => { p with poisoned := match tfind p.poisoned src with | some w => tput p.poisoned dst w | none => tdel p.poisoned dst })

/-- Stacks that are powered down offer no frames (R419). -/
def State.stackDown (s : State) (stack : Nat) : Bool := (s.pf 0x420020).getLsbD stack

/-- The lowest free frame from a first number, among the used ones. -/
def freeFrom (frames : Tab Frame) (first fuel : Nat) : Nat :=
  match fuel with
  | 0 => first
  | k + 1 =>
    match tfind frames first with
    | some f => if f.used then freeFrom frames (first + 1) k else first
    | none => first

/-- A free frame: in the pseudo-channel a BANKMAT page names, else the lowest of the powered stacks, of one die where one
is named. -/
def State.freeFrame (s : State) (die pch : Option Nat) : Option Nat :=
  match pch with
  | some u =>
    let f := freeFrom s.plat.frames (u * 2 ^ 14) s.plat.frames.length
    if f / 2 ^ 14 = u ∧ !s.stackDown (u / 64) then some f else none
  | none =>
    match (List.range 16).find? (fun k => !s.stackDown k && die.all (fun d => k / 4 == d) &&
      decide (freeFrom s.plat.frames (k * 2 ^ 20) s.plat.frames.length < (k + 1) * 2 ^ 20)) with
    | some k => some (freeFrom s.plat.frames (k * 2 ^ 20) s.plat.frames.length)
    | none => none

/-- A frame taken for a page; lines it was returned with unscrubbed stay to be zeroed (R374). -/
def State.takeFrame (s : State) (f v page : Nat) : State :=
  s.modPlat (fun p =>
    let fr := tget p.frames f { used := false }
    { p with frames := tput p.frames f { fr with vf := v, page := page, used := true } })

/-- A frame returned unscrubbed (R373, R374): every line is to be zeroed before its next access. -/
def State.dropFrame (s : State) (f : Nat) : State :=
  s.modPlat (fun p =>
    let fr := tget p.frames f {}
    { p with frames := tput p.frames f { fr with used := false, dirtyLines := List.range 1024 } })

/-- Shadow pages held by the tenants of a node (R87). -/
def State.shadowCount (s : State) (n : Nat) : Nat :=
  (s.plat.shadows.filter (fun x => (s.vf x.vf).node == n)).length

/-- The home die of a tenant's 64 KiB page. -/
def State.pageDie (s : State) (v page : Nat) : Nat := homeDie (pteFrame (tget (s.vf v).pages page 0) % 2 ^ 24 * 65536)

/-- The shadow page of a page, allocated at its home die from the paddock's reserve at the first write of a superstep (R87). -/
def State.shadowFor (s : State) (v page : Nat) (pch : Option Nat) : Except Nat State :=
  if s.plat.shadows.any (fun x => x.vf == v && x.page == page) then .ok s
  else if s.shadowCount (s.vf v).node < (s.node (s.vf v).node).shres then
    match s.freeFrame (some (s.pageDie v page)) pch with
    | some f => .ok ((s.takeFrame f v page).modPlat (fun p =>
        { p with shadows := p.shadows ++ [{ vf := v, page := page, frame := f }] }))
    | none => .error 8
  else .error 8

/-- Bytes of one line written to the shadow of a page; the first write to the line copies the original's line, with its
poison mark (R87, R413). -/
def State.shadowWrite (s : State) (v : Nat) (va : W64) (phys n x m : Nat) : State :=
  let page := va.toNat / 2 ^ 16
  let line := va.toNat % 65536 / 64
  match s.plat.shadows.find? (fun y => y.vf == v && y.page == page) with
  | none => s
  | some sh =>
    let base := sh.frame * 65536
    let s := if sh.lines.contains line then s else
      ((s.hwrite (base + 64 * line) 64 (s.hread (alignTo 64 phys) 64)).copyPoison (phys / 64) (base / 64 + line)).modPlat (fun p => { p with
        frames := tmod p.frames sh.frame {} (fun f => { f with dirtyLines := f.dirtyLines.erase line })
        shadows := p.shadows.map (fun y => if y.vf == v && y.page == page then { y with lines := line :: y.lines } else y) })
    (s.hwriteMask (base + va.toNat % 65536) n x m).notePoison (base + va.toNat % 65536) n m

/-- A store, or an engine's word, performed at its home for the page's class (R82); masked to whole bytes. See log 53. -/
def State.performGlobal (s : State) (v : Nat) (va : W64) (n x m : Nat) : State :=
  match s.xlate v va .write with
  | .ok phys cls _ =>
    let s := s.scrubLine phys
    if cls = 2 then (s.hwriteMask phys n x m).notePoison phys n m
    else s.shadowWrite v va phys n x m
  | _ => s

/-- A write performed at its home for core c, after the look-up that sets D (R369). -/
def State.performAs (s : State) (c v : Nat) (va : W64) (n x m : Nat) : State :=
  match s.xlate v va .write with
  | .ok _ _ _ => (s.lookup c v va true).performGlobal v va n x m
  | _ => s

/-- n bytes as core c reads them from a global address: the committed image (R82), poison and scrub applied by the
caller. -/
def State.greadAt (s : State) (phys n : Nat) : Nat := s.hread phys n

/-- What a global write by core c takes at its issue (R86, R88): the translation, then the entry its class needs. -/
inductive GKind where
  /-- a store that travels to its home -/
  | posted
  /-- a line delta to home die d -/
  | delta (die : Nat)
  deriving DecidableEq, Repr

/-- The issue-time part of a global write of core c: translation, permission, and the version entry. -/
def State.gprepare (s : State) (c v : Nat) (va : W64) : Except (Option Fail) (GKind × State) :=
  match s.xlate v va .write with
  | .fault k => .error (some (k, va))
  | .wait => .error none
  | .ok phys cls e =>
    let s := s.lookup c v va true
    if cls = 2 then .ok (.posted, s)
    else if cls = 1 then
      if (s.die (homeDie phys)).storeUsed < Config.deltaEntries then
        .ok (.delta (homeDie phys), s.modDie (homeDie phys) (fun d => d.reserve v))
      else .error (some (13, w64 (homeDie phys)))
    else
      match s.shadowFor v (va.toNat / 2 ^ 16) (if cls = 3 then some (ptePch e) else none) with
      | .ok s => .ok (.posted, s)
      | .error k => .error (some (k, va))

/-! ### Absent windows -/

/-- Destination window of a page-fetch element (R99). -/
def Elem.dwin (e : Elem) : Nat := (bf (e.words.getD 2 0) 27 8)

/-- The first touch of an absent window of cluster k (R74, R100): its bound element, or else the first element that
names it, becomes the next one its copy unit starts, unless it has started. -/
def State.wanted (s : State) (k win : Nat) : List Chore :=
  let bound := alignTo 32 (bf (tget (s.cluster k).wins win {}).w1 0 55)
  let open_ := (List.range 16).flatMap (fun i =>
    (s.team (k * 16 + i)).chains.flatMap (fun c => (c.elems.filter (fun e => !e.started)).map (fun e => (k * 16 + i, e))))
  match open_.find? (fun p => bound != 0 && p.2.addr.toNat == bound) with
  | some p => [.pfePromote p.1 p.2.id]
  | none => match open_.find? (fun p => p.2.dwin == win) with
    | some p => [.pfePromote p.1 p.2.id]
    | none => []

/-! ### Engine accesses -/

/-- Why an engine's access does not happen. -/
inductive EStop where
  /-- a fault (cause, address) -/
  | fault (cause : Nat) (addr : W64)
  /-- the place is not there yet: a page to bring up (tenant, page), or an absent window -/
  | wait (l : List Chore)
  deriving DecidableEq, Repr

/-- n bytes read by an engine as core c: local when g is false (R83). -/
def State.eread (s : State) (c : Nat) (g : Bool) (a : W64) (n : Nat) : Except EStop (Nat × State) :=
  if g then
    let v := s.tenantOf c
    match s.xlate v a .read with
    | .fault k => .error (.fault k a)
    | .wait => .error (.wait [.pageBringUp v (a.toNat / 2 ^ 16)])
    | .ok phys _ _ =>
      let s := (s.lookup c v a false).scrubLine phys
      if s.poisonAt phys then .error (.fault 9 (w64 (alignTo 64 a.toNat)))
      else .ok (s.greadAt phys n, s)
  else
    match s.locate c a.toNat n with
    | .absent k win => .error (.wait (s.wanted k win))
    | .unconf => .ok (0, s.modCore c (fun co => co.diag 0 1))
    | l =>
      if (s.localMark c l a.toNat n).isSome then .error (.fault 9 (w64 (alignTo 64 (a.toNat % 2 ^ 32))))
      else if s.meetsError c l n then .error (.fault 10 (w64 (alignTo 64 (a.toNat % 2 ^ 32)))) else .ok (s.lreadAt c l n, s)

/-- n bytes written by an engine as core c, with the sequence number its delta carries (R83, R89). -/
def State.ewrite (s : State) (c : Nat) (g : Bool) (a : W64) (n x seq : Nat) : Except EStop State :=
  if g then
    let v := s.tenantOf c
    match s.xlate v a .write with
    | .fault k => .error (.fault k a)
    | .wait => .error (.wait [.pageBringUp v (a.toNat / 2 ^ 16)])
    | .ok _ cls e =>
      let s := s.lookup c v a true
      if cls = 1 then
        .ok ((s.emitLine c seq (.page v (w64 (alignTo 64 a.toNat))) (a.toNat % 64) n x).share c seq)
      else if cls = 2 then .ok (s.performGlobal v a n x (2 ^ n - 1))
      else
        match s.shadowFor v (a.toNat / 2 ^ 16) (if cls = 3 then some (ptePch e) else none) with
        | .ok s => .ok (s.performGlobal v a n x (2 ^ n - 1))
        | .error k => .error (.fault k a)
  else
    match s.locate c a.toNat n with
    | .absent k win => .error (.wait (s.wanted k win))
    | .unconf => .ok (s.modCore c (fun co => co.diag 0 1))
    | l =>
      match s.lwriteAt c l n x (some seq) with
      | .ok s => .ok (s.share c seq)
      | .error f => .error (.fault f.1 f.2)

/-- A read of committed memory for the device itself: zero where it cannot be read. -/
def State.ereadD (s : State) (c : Nat) (g : Bool) (a : W64) (n : Nat) : Nat :=
  match s.eread c g a n with
  | .ok (v, _) => v
  | .error _ => 0

/-! ### Reservations of the engines (R86, R335) -/

/-- What a destination line needs. -/
inductive Need where
  | undo (line : Nat)
  | pool
  | store (die : Nat)
  | shadow (vf page : Nat) (pch : Option Nat)
  /-- a page that must come to tier 0 first, so that its home is known (R370) -/
  | page (vf page : Nat)
  | none
  deriving DecidableEq, Repr

/-- The entry that a write of core c to the line of an address needs (R335): none for a line that it has logged already.
A translation fault is found by the access itself. -/
def State.need (s : State) (c : Nat) (g : Bool) (a : W64) : Need :=
  if g then
    match s.xlate (s.tenantOf c) a .write with
    | .ok phys cls e =>
      if cls = 1 then .store (homeDie phys) else if cls = 2 then .none
      else .shadow (s.tenantOf c) (a.toNat / 2 ^ 16) (if cls = 3 then some (ptePch e) else none)
    | .wait => .page (s.tenantOf c) (a.toNat / 2 ^ 16)
    | .fault _ => .none
  else
    match s.resolve c a.toNat 1 with
    | .tcm off =>
      if inScratch (s.core c).tcmcfg off ∨ (s.core c).undo.any (fun l => l.1 == off / 64) then .none else .undo (off / 64)
    | .pad off cls owner _ _ =>
      if cls ≠ 1 then .none
      else if owner = inCluster c ∧ (s.cluster (clusterOf c)).logged.any (fun l => l.1 == off / 64) then .none
      else .pool
    | _ => .none

/-- One entry reserved at issue, or why it is not (R86). -/
def State.reserve1 (s : State) (c : Nat) (g : Bool) (a : W64) : Except EStop State :=
  match s.need c g a with
  | .none => .ok s
  | .page v p => .error (.wait [.pageBringUp v p])
  | .undo line =>
    let co := s.core c
    if co.undo.length + co.undoRes.length < Config.undoLines then
      .ok (s.modCore c (fun co => { co with undoRes := line :: co.undoRes }))
    else .error (.fault 11 0)
  | .pool =>
    if (s.cluster (clusterOf c)).poolUsed < Config.poolEntries then
      .ok (s.modCluster (clusterOf c) (fun k => { k with reserved := k.reserved + 1 }))
    else .error (.fault 12 0)
  | .store d =>
    if (s.die d).storeUsed < Config.deltaEntries then
      .ok (s.modDie d (fun x => x.reserve (s.tenantOf c)))
    else .error (.fault 13 (w64 d))
  | .shadow v page pch =>
    match s.shadowFor v page pch with
    | .ok s => .ok s
    | .error k => .error (.fault k (w64 (page * 65536)))

/-- Of two lines whose reservation fails, what the instruction meets (R428): the trap with the lower cause; a page that is not there
is awaited before a trap that it could still outdo. -/
def EStop.before (a b : EStop) : EStop :=
  match a, b with
  | .fault k _, .fault j _ => if k ≤ j then a else b
  | .fault k _, .wait _ => if k ≤ 8 then a else b
  | .wait _, .fault j _ => if j ≤ 8 then b else a
  | .wait _, .wait _ => a

/-- One entry for each of some lines, all or nothing, each reserved by one. -/
def reserveEach (one : State → α → Except EStop State) (s : State) (lines : List α) : Except EStop State :=
  match lines with
  | [] => .ok s
  | a :: r =>
    match one s a with
    | .ok s => reserveEach one s r
    | .error f => match reserveEach one s r with | .error e => .error (f.before e) | .ok _ => .error f

/-- One entry for each of the given line addresses, all or nothing. -/
def State.reserveAll (s : State) (c : Nat) (g : Bool) (lines : List W64) : Except EStop State :=
  reserveEach (fun s a => s.reserve1 c g a) s lines

/-- Line addresses touched by len bytes from an address. -/
def linesOf (a len : Nat) : List Nat :=
  if len = 0 then [] else (List.range ((a + len - 1) / 64 - a / 64 + 1)).map (fun i => (a / 64 + i) * 64)

end Sys2Proof.Machine
end

