-- ==== Sys2Proof/Machine/Operands.lean ====
section
/-!
DEFINITION. Operands: the immediates of 07 R170, the operand codes of R158 with the queues of R159 and R160, the
register-store views of 01 R17 and R18, the channels of R14, the mailbox of 11 R299 and the walkers of 08 R190, R191.
-/

namespace Sys2Proof.Machine

open Sys2Proof

/-! ### Immediates and hints -/

/-- The immediate of the instruction that issues. -/
def State.imm (s : State) (f : BitVec n) : Int := immOf s.issue.himm f

/-- A 64-bit register value of an integer. -/
def wi (i : Int) : W64 := BitVec.ofInt 64 i

/-- The HMOD payload of the instruction that issues. -/
def State.mod (s : State) : Option (BitVec 24) := s.issue.hmod.head?

/-- The order kind and the scope an access takes from its HMOD (R111); plain without one, and a missing scope is system. -/
def State.kind (s : State) : Nat := match s.mod with | some p => bf p 0 3 | none => 0
def State.scope (s : State) : Nat := match s.mod with | some p => bf p 3 3 | none => 5

/-- The seed-lane override of an HMOD (R235). -/
def State.seedOverride (s : State) : Option Nat :=
  match s.mod with
  | some p => if bit p 7 then some (bf p 8 16) else none
  | none => none

/-! ### Which operand codes are legal (R158, R159, R239) -/

/-- An AH source code. -/
def ahSrc (c : BitVec 6) : Bool := decide (c.toNat < 32) || c == 56 || c == 57 || c == 63
/-- An AH destination code. -/
def ahDst (c : BitVec 6) : Bool := decide (c.toNat < 32) || c == 57 || c == 63
/-- Codes 0 to 31. -/
def xOnly (c : BitVec 6) : Bool := decide (c.toNat < 32)
/-- Codes 0 to 31 and 63. -/
def xOrZero (c : BitVec 6) : Bool := decide (c.toNat < 32) || c == 63
/-- Codes 0 to 47. -/
def gOnly (c : BitVec 6) : Bool := decide (c.toNat < 48)
/-- Codes 0 to 47 and 63. -/
def gOrZero (c : BitVec 6) : Bool := decide (c.toNat < 48) || c == 63

/-- Walker w of the issuing context. -/
def State.walker (s : State) (w : Nat) : Walker := tget (s.ctx s.issue.core s.issue.ctx).walkers w {}

/-- An EH source code, for scalar or vector operands; a walker must be an active load walker (R158, R191). -/
def State.ehSrc (s : State) (vec : Bool) (c : BitVec 6) : Bool :=
  match walkerOf c with
  | some w => !(s.walker w).store && (s.walker w).active
  | none => decide (c.toNat < 48) || c == 56 || (decide (58 ≤ c.toNat) && decide (c.toNat ≤ 61)) || (c == 62 && !vec) || c == 63

/-- An EH destination code; a walker must be an active store walker. -/
def State.ehDst (s : State) (vec : Bool) (c : BitVec 6) : Bool :=
  match walkerOf c with
  | some w => (s.walker w).store && (s.walker w).active
  | none => decide (c.toNat < 48) || c == 57 || (decide (58 ≤ c.toNat) && decide (c.toNat ≤ 61)) || (c == 62 && !vec) || c == 63

/-- A scalar EH instruction with this destination and these sources is illegal (R158). -/
def State.gBad (s : State) (d : BitVec 6) (srcs : List (BitVec 6)) : Bool := !s.ehDst false d || srcs.any (fun c => !s.ehSrc false c)
/-- A vector EH instruction with this destination and these sources is illegal (R239). -/
def State.vBad (s : State) (d : BitVec 6) (srcs : List (BitVec 6)) : Bool := !s.ehDst true d || srcs.any (fun c => !s.ehSrc true c)
/-- An AH instruction with this destination and these sources is illegal. -/
def aBad (d : BitVec 6) (srcs : List (BitVec 6)) : Bool := !ahDst d || srcs.any (fun c => !ahSrc c)

/-! ### What an instruction has read, and the traps that reading raises -/

/-- Data with a poison mark was read, from a queue or a walker. See log 13. -/
def noteMark (m : Option Mark) : M Unit :=
  match m with
  | none => pure ()
  | some m => modify (fun s => { s with issue := { s.issue with bad := some (s.issue.bad.getD (2048, m)) } })

/-- n register-store bytes from an address were read: the lowest one, and the lowest marked one, are kept. See log 13. -/
def noteRead (off n : Nat) : M Unit :=
  modify (fun s =>
    let c := s.ctx s.issue.core s.issue.ctx
    let seen := (List.range n).map (fun j => (off + j) % 2048)
    let low := seen.foldl Nat.min (s.issue.low.getD 2048)
    let bad := seen.foldl (fun (b : Option (Nat × Mark)) a =>
      match tfind c.marks a with
      | some m => (match b with | some (o, m') => if o ≤ a then some (o, m') else some (a, m) | none => some (a, m))
      | none => b) s.issue.bad
    { s with issue := { s.issue with low := some low, bad := bad } })

/-- The TVAL of a poison trap on register-store byte o (R226), or on queue data. -/
def markVal (vec : Bool) (o : Nat) (m : Mark) : W64 := if vec ∨ o = 2048 then m.line else w64 (2 ^ 63 + o)

/-- ERRINJ injects an error of a kind into the context's next read of that kind (R225). -/
def Ctx.injects (c : Ctx) (kind : Nat) : Bool := bf c.errinj 0 2 == kind
/-- The context's next read of its register store finds a parity error: one that ERRINJ injects (R225), or one of the store
itself (25 R413). -/
def Ctx.parityDue (c : Ctx) : Bool := c.injects 1 || c.upset == 1

/-- Poison, then register-store parity, of what the instruction has read (R226, R242, R225 ERRINJ kind 1). An
instruction of the vector chapter reports the recorded line address. -/
def checkReads (vec : Bool) : M Unit := do
  let s ← get
  match s.issue.bad with
  | some (o, m) => if !s.issue.ign.contains 9 then throw (.trap 9 (markVal vec o m) m.committed) else pure ()
  | none => pure ()
  match s.issue.low with
  | some o =>
    if (s.ctx s.issue.core s.issue.ctx).parityDue ∧ !s.issue.ign.contains 10 then trapWith 10 (w64 (2 ^ 63 + o)) else pure ()
  | none => pure ()

/-! ### AH registers and queues -/

/-- x register n; x0 reads as zero (R16). -/
def Ctx.xreg (c : Ctx) (n : Nat) : W64 := if n = 0 then 0 else tget c.x n 0
/-- x register n written; x0 discards. -/
def Ctx.setX (c : Ctx) (n : Nat) (v : W64) : Ctx := if n = 0 then c else { c with x := tset c.x n v 0 }
/-- The value of an x register of the issuing context by operand code; 63 is zero. -/
def State.xval (s : State) (c : BitVec 6) : W64 := if c.toNat < 32 then (s.ctx s.issue.core s.issue.ctx).xreg c.toNat else 0
/-- x register read. -/
def xget (c : BitVec 6) : M W64 := return (← get).xval c
/-- x register written by operand code; 63 discards. -/
def xset (c : BitVec 6) (v : W64) : M Unit := if c.toNat < 32 then modCtx (fun k => k.setX c.toNat v) else pure ()

/-- The queues of a context (R159). -/
inductive Que where
  | lq | sq | xq
  deriving DecidableEq, Repr

def Ctx.que (c : Ctx) (q : Que) : List Entry := match q with | .lq => c.lq | .sq => c.sq | .xq => c.xq
def Ctx.setQue (c : Ctx) (q : Que) (l : List Entry) : Ctx :=
  match q with | .lq => { c with lq := l } | .sq => { c with sq := l } | .xq => { c with xq := l }
/-- Entries a queue holds (R159). -/
def Que.room (q : Que) : Nat := match q with | .lq => 16 | .sq => 16 | .xq => 8

/-- Pop of a queue; an empty queue stalls (R160). -/
def popQ (q : Que) : M Entry := do
  match (← getCtx).que q with
  | [] => stall
  | e :: r => modCtx (fun c => c.setQue q r); pure e

/-- Push to a queue; a full queue stalls. -/
def pushQ (q : Que) (e : Entry) : M Unit := do
  let c ← getCtx
  if (c.que q).length < q.room then modCtx (fun c => c.setQue q (c.que q ++ [e])) else stall

/-- An AH source operand, popped (R158). -/
def ahPop (c : BitVec 6) : M W128 := do
  if c = 56 then (do let e ← popQ .xq; noteMark e.mark; pure e.data)
  else if c = 57 then (do let e ← popQ .sq; noteMark e.mark; pure e.data)
  else return ((← get).xval c).setWidth 128

/-- An AH destination operand (R158): a register takes 64 bits, lq zero-extends (R159). -/
def ahPush (c : BitVec 6) (v : W64) : M Unit :=
  if c = 57 then pushQ .lq { data := v.setWidth 128 } else xset c v

/-! ### The register store -/

/-- n register-store bytes as a number. -/
def Ctx.rsGet (c : Ctx) (off n : Nat) : Nat := gather (fun a => tget c.rs (a % 2048) 0) off n
/-- n register-store bytes written; the bytes lose their marks (R242). -/
def Ctx.rsPut (c : Ctx) (off n v : Nat) : Ctx :=
  { c with rs := (List.range n).foldl (fun m j => tset m ((off + j) % 2048) (byteOf v j) 0) c.rs,
           marks := (List.range n).foldl (fun m j => tdel m ((off + j) % 2048)) c.marks }

/-- Byte address of vector register n under a VIEW (R18). -/
def vAddr (view : W64) (n : Nat) : Nat :=
  let slot := if n < 32 ∨ !bit view 16 then n else 32 + (n - 32 + bf view 20 4) % 16
  (16 * bf view 0 7 + 16 * slot) % 2048

/-- n register-store bytes read by the instruction. -/
def rsRead (off n : Nat) : M Nat := do
  noteRead off n
  return (← getCtx).rsGet off n
/-- n register-store bytes written by the instruction; withheld under an ignored poison (R226). -/
def rsWrite (off n v : Nat) : M Unit := do
  if ← ignoring 9 then pure () else modCtx (fun c => c.rsPut off n v)

/-! ### Walkers (R190, R191) -/

/-- Elements of a walker. -/
def Walker.count (w : Walker) : Nat := w.c0.toNat * w.c1.toNat * w.c2.toNat
/-- The position of element i in the three dimensions. -/
def Walker.pos (w : Walker) (i : Nat) : Nat × Nat × Nat :=
  (i % w.c0.toNat, i / w.c0.toNat % w.c1.toNat, i / (w.c0.toNat * w.c1.toNat))
/-- Local address of element i. -/
def Walker.addr (w : Walker) (i : Nat) : Nat :=
  let p := w.pos i
  let off := (bf w.base 0 24 : Int) + p.1 * w.s0.toInt + p.2.1 * w.s1.toInt + p.2.2 * w.s2.toInt
  bf w.base 24 8 * 2 ^ 24 + wrap 24 off
/-- Element bytes. -/
def Walker.size (w : Walker) : Nat := 2 ^ w.esize.toNat
/-- The flags and INDEX after element i is consumed. -/
def Walker.advance (w : Walker) : Walker :=
  let p := w.pos w.index.toNat
  let a := p.1 + 1 == w.c0.toNat
  let b := a && p.2.1 + 1 == w.c1.toNat
  let c := b && p.2.2 + 1 == w.c2.toNat
  { w with e0 := a, e1 := b, e2 := c, index := w.index + 1 }

/-- The bytes of a resolved access: whether in the scratchpad, and the first byte. -/
def Loc.span (l : Loc) : Option (Bool × Nat) :=
  match l with
  | .tcm off => some (false, off)
  | .pad off .. => some (true, off)
  | _ => none

/-- Two resolved accesses touch a common byte. -/
def touches (a : Loc) (n : Nat) (b : Loc) (m : Nat) : Bool :=
  match a.span, b.span with
  | some (p, x), some (q, y) => p == q && decide (x < y + m) && decide (y < x + n)
  | _, _ => false

/-- A range-scoreboard entry that holds one of n bytes (R93). -/
def Core.busy (c : Core) (l : Loc) (n : Nat) : Bool :=
  match l.span with
  | some (p, x) => c.ranges.any (fun r => r.pad == p && r.bytes.any (fun b => decide (x < b.1 + b.2) && decide (b.1 < x + n)))
  | none => false

/-- The local stores of a context that have issued and are not performed (R108, R191). -/
def Ctx.unwritten (x : Ctx) : List Held := x.stores ++ x.walkers.flatMap (fun p => p.2.held)

/-- A local store of the context that is not performed stands over n bytes (R108, R191). -/
def State.heldOver (s : State) (c k : Nat) (l : Loc) (n : Nat) : Bool := (s.ctx c k).unwritten.any (fun h => touches l n h.loc h.size)

/-- The steps that perform the local stores of a context. -/
def State.storeChores (s : State) (c k : Nat) : List Chore :=
  let x := s.ctx c k
  (if x.stores.isEmpty then [] else [.storeWrite c k])
    ++ (x.walkers.filter (fun p => !p.2.held.isEmpty)).map (fun p => .walkerStoreWrite c k p.1)

/-- A global request of another context of the core that a release at core scope has passed on (R110): what happens before that
release happens before whatever follows its acquire. See log 53. -/
def State.passedOn (s : State) (c k : Nat) (g : GReq) : Bool := g.ctx != k && decide (g.id < (s.ctx c g.ctx).lent)

/-- Every earlier access of a context that a store waits for has been performed (R111, R112). -/
def State.afterDone (s : State) (c k : Nat) (a : After) : Bool :=
  (s.ctx c k).unwritten.all (fun h => decide (a.near ≤ h.id))
    && (s.core c).gstores.all (fun g => (g.ctx != k && !s.passedOn c k g) || decide (a.far ≤ g.id))
    && !(s.ctx c k).eh.any (fun sl => decide (sl.iss.seq < a.eh) && ehAccess sl.instr)

/-- The steps that let a store be performed that waits for earlier accesses. -/
def State.afterChores (s : State) (c k : Nat) : List Chore :=
  s.storeChores c k ++ (if (s.core c).gstores.isEmpty then [] else [.globalAccessPerformed c])

/-- What a store waits for that another party of its core may see (R107): a release at core scope, which orders the global requests
of the core by their lanes, makes it wait for them. -/
def After.inCore (a : After) : After := { a with far := Nat.max a.far a.near }

/-- What the release fences of the issuing context hold a later store for has been performed (R112): a store that has no store
path waits here. With inCore the parties of the core see it, as they see the issue of an engine command. -/
def passPoint (inCore : Bool) : M Unit := do
  let s ← get
  let c := s.issue.core
  let k := s.issue.ctx
  let a := (s.ctx c k).point
  if s.afterDone c k (if inCore then a.inCore else a) then pure () else stallFor (s.afterChores c k)

/-- A local store of the issuing context leaves n bytes to be written at a place: its version entry and its delta's
sequence number are taken, and it gets the next access number. A release waits for what w adds. None when an ignored
cause withholds it. -/
def holdStore (l : Loc) (n v : Nat) (w : After → Nat → After) : M (Option Held) := do
  let s ← get
  let c := s.issue.core
  match s.takeEntry c l with
  | .error f => if s.issue.ign.contains f.1 then pure none else do trapWith f.1 f.2; pure none
  | .ok (q, t) =>
    let id := (t.core c).accesses
    set (t.modCore c (fun co => { co with accesses := id + 1 }))
    pure (some { id := id, loc := l, size := n, data := BitVec.ofNat 128 v, seq := q, after := (w (s.ctx c s.issue.ctx).point id).inCore })

/-- The local access of an AH instruction, by operand code of its base, offset, size, and whether it writes: loads and
stores, and the descriptors that are read as one access (R178). -/
def localForm (i : Instr) : Option (BitVec 6 × BitVec 9 × Nat × Bool) :=
  match i with
  | .ld _ b o z => some (b, o, z.toNat, false)
  | .st _ b o z => some (b, o, z.toNat, true)
  | .latm _ b _ z => some (b, 0, z.toNat, true)
  | .wcfg a _ | .coll _ a => some (a, 0, 6, false)
  | .cpy _ a | .tvld a _ | .rcfg a _ => some (a, 0, 5, false)
  | .winset _ b => some (b, 0, 5, false)
  | .gang _ a | .tqpush _ a => some (a, 0, 7, false)
  | _ => none

/-- The D field of an instruction word. -/
def dField (i : Instr) : Nat := bf ((encode i).getD 0) 18 6

/-- An AH instruction may wait for the EH: it names a queue. -/
def queueForm (i : Instr) : Bool :=
  let w := (encode i).getD 0
  let q := fun (k : Nat) => decide (56 ≤ bf w k 6) && decide (bf w k 6 ≤ 57)
  match i with | .abq .. => true | _ => q 18 || q 12 || q 6

/-- An access of the AH, earlier in program order and not issued yet, that touches these bytes (R108: program order
holds across both halves). While an unissued instruction may still change its base register, it counts as touching; but of
two reads the later one is not held then when the earlier may wait for the EH. See log 53. -/
def State.ahAhead (s : State) (l : Loc) (n : Nat) (writes : Bool) : Bool :=
  let x := s.ctx s.issue.core s.issue.ctx
  let ah := x.ah.filter (fun sl => decide (sl.iss.seq < s.issue.seq))
  (List.range ah.length).any (fun k =>
    match ah[k]? with
    | none => false
    | some sl =>
      match localForm sl.instr with
      | none => false
      | some (b, o, z, w) =>
          (((ah.take k).any (fun e => dField e.instr == b.toNat && b != 0 && b != 63) || b == 56 || b == 57) &&
            (w || writes || !(ah.take (k + 1)).any (fun e => queueForm e.instr))) ||
            (let a := ((if b.toNat < 32 then x.xreg b.toNat else 0) + wi (2 ^ z * immOf sl.iss.himm o)).toNat % 2 ^ 32
            touches l n (s.locate s.issue.core a (2 ^ z)) (2 ^ z)))

/-- Walker w of the issuing context changed. -/
def modWalker (w : Nat) (f : Walker → Walker) : M Unit := modCtx (fun c => { c with walkers := tmod c.walkers w {} f })

/-- A pop of a load walker. The element's value is read at its pop, where R191 counts its access, so that a store of
the context to a fetched element, or what an acquire makes visible, is always seen. See log 14. -/
def popWalker (w : Nat) : M Nat := do
  let s ← get
  let k := s.walker w
  let c := s.issue.core
  let l := s.locate c (k.addr k.index.toNat) k.size
  if !k.active then trapWith 2 0
  else if k.count ≤ k.index.toNat then (do modWalker w (fun k => { k with spent := true }); pure 0)
  else match l with
    | .absent cl win => stallFor (s.wanted cl win)
    | _ =>
      if (s.core c).busy l k.size || s.ahAhead l k.size false then stall
      else if s.heldOver c s.issue.ctx l k.size then stallFor (s.storeChores c s.issue.ctx)
      else if k.fetched = 0 then stallFor [.walkerFetch c s.issue.ctx w]
      else if s.meetsError c l k.size && (s.localMark c l (k.addr k.index.toNat) k.size).isNone && !s.issue.ign.contains 10 then trapWith 10 (w64 (alignTo 64 (k.addr k.index.toNat)))
      else do
        modWalker w (fun k => { k.advance with fetched := k.fetched - 1 })
        modify (fun s => (if l = .unconf then s.modCore c (fun co => co.diag 0 1) else s).pend [.walkerFetch c s.issue.ctx w])
        noteMark (s.localMark c l (k.addr k.index.toNat) k.size)
        pure (s.lreadAt c l k.size)

/-- A write of core c to this place becomes a delta: another core's versioned window (R82, R85). -/
def Loc.isDelta (l : Loc) (c : Nat) : Bool :=
  match l with | .pad _ cls owner _ _ => cls == 1 && owner != inCluster c | _ => false

/-- A push to a store walker: the push counts as the access (R191), so the place, the version entry its bytes need and the
delta's place in the issue order are taken now. See log 14. -/
def pushWalker (w v : Nat) : M Unit := do
  let s ← get
  let k := s.walker w
  let c := s.issue.core
  if !k.active then trapWith 2 0
  else if k.count ≤ k.index.toNat then modWalker w (fun k => { k with spent := true })
  else if 8 ≤ k.held.length then stallFor [.walkerStoreWrite c s.issue.ctx w]
  else
    let a := k.addr k.index.toNat
    let l := s.locate c a k.size
    match l with
    | .absent cl win => stallFor (s.wanted cl win)
    | _ =>
      if (s.core c).busy l k.size || s.ahAhead l k.size true then stall
      else if s.heldOver c s.issue.ctx l k.size then stallFor (s.storeChores c s.issue.ctx)
      else do
        let h ← holdStore l k.size v (fun p _ => p)
        modWalker w (fun k => { k.advance with held := k.held ++ h.toList })
        modify (fun s => s.pend [.walkerStoreWrite c s.issue.ctx w])

/-! ### Channels (R14) and the mailbox (R299) -/

/-- Pop of the inbound channel of a direction. -/
def popChan (dir : Nat) : M Entry := do
  let c ← getCore
  match c.chan dir with
  | [] => stall
  | e :: r => modCore (fun c => c.setChan dir r); pure e

/-- Push towards a neighbour: into its inbound channel from this core. A neighbour that has restored takes nothing of the
aborted attempt (R15). -/
def pushChan (dir : Nat) (e : Entry) : M Unit := do
  passPoint false
  let s ← get
  let n := neighbour s.issue.core dir
  let back := (dir + 2) % 4
  if s.coreAbsent n then modCore (fun c => c.diag 3 1)
  else if (s.core n).phase = .restore then modify (fun s => s.modCore n (fun c => c.diag 3 1))
  else if ((s.core n).chan back).length < Config.channelEntries then
    modify (fun s => let t := s.modCore n (fun c => c.setChan back (c.chan back ++ [e]))
                     if (s.core n).phase = .arrived ∧ (s.core n).slot = 0 then t.pend [.coreArrive n 0] else t)
  else stall

/-- Pop of the mailbox. -/
def popMail : M W64 := do
  match (← getCore).mail with
  | [] => stall
  | w :: r => modCore (fun c => { c with mail := r }); pure w

/-! ### EH operands -/

/-- A source operand of n bytes of the register class whose register r lies at off. -/
def ehPop (off n : Nat) (c : BitVec 6) : M Nat := do
  if c.toNat < 48 then rsRead off n
  else match walkerOf c with
    | some w => popWalker w
    | none =>
      if c = 56 then (do let e ← popQ .lq; noteMark e.mark; pure (e.data.toNat % 2 ^ (8 * n)))
      else if 58 ≤ c.toNat ∧ c.toNat ≤ 61 then (do let e ← popChan (c.toNat - 58); noteMark e.mark; pure (e.data.toNat % 2 ^ (8 * n)))
      else if c = 62 then return (← popMail).toNat
      else pure 0

/-- A destination operand; a queue or channel takes zero under an ignored poison (R226). -/
def ehPush (off n : Nat) (c : BitVec 6) (v : Nat) : M Unit := do
  if c.toNat < 48 then rsWrite off n v
  else
    let e : Entry := { data := BitVec.ofNat 128 (if ← ignoring 9 then 0 else v) }
    match walkerOf c with
    | some w => pushWalker w e.data.toNat
    | none =>
      if c = 57 then pushQ .sq e
      else if 58 ≤ c.toNat ∧ c.toNat ≤ 61 then pushChan (c.toNat - 58) e
      else if c = 62 then pushQ .xq e
      else pure ()

/-- A scalar source. -/
def gPop (c : BitVec 6) : M W64 := return w64 (← ehPop (8 * c.toNat) 8 c)
/-- A scalar destination; the reads are judged first. -/
def gPush (c : BitVec 6) (v : W64) : M Unit := do
  checkReads false
  ehPush (8 * c.toNat) 8 c v.toNat
/-- A vector source. -/
def vPop (c : BitVec 6) : M W128 := do
  let s ← get
  return BitVec.ofNat 128 (← ehPop (vAddr s.issue.view c.toNat) 16 c)
/-- A vector destination. -/
def vPush (c : BitVec 6) (v : W128) : M Unit := do
  checkReads true
  let s ← get
  ehPush (vAddr s.issue.view c.toNat) 16 c v.toNat
/-- A scalar source or destination of an instruction of the vector chapter. -/
def gPushV (c : BitVec 6) (v : W64) : M Unit := do
  checkReads true
  ehPush (8 * c.toNat) 8 c v.toNat

end Sys2Proof.Machine
end

