-- ==== Sys2Proof/Machine/Records.lean ====
section
/-!
DEFINITION. Launch records and their end (20 R355, R356, R361, R365), the error log (25 R415, R416), containment
policies and their actions (02 R51-R55), and the retirement of a context (03 R63).
-/

namespace Sys2Proof.Machine

open Sys2Proof

/-! ### Fields of a launch record (R355) -/

/-- Word n of a record. -/
def Rec.w (r : Rec) (n : Nat) : W64 := r.words.getD n 0
def Rec.entry (r : Rec) : W64 := w64 (bf (r.w 0) 0 55)
def Rec.argp (r : Rec) : W64 := w64 (bf (r.w 1) 0 55)
def Rec.rows (r : Rec) : Nat := bf (r.w 2) 0 16 + 1
def Rec.cols (r : Rec) : Nat := bf (r.w 2) 16 16 + 1
def Rec.psize (r : Rec) : Nat := bf (r.w 2) 32 3
def Rec.prio (r : Rec) : Nat := bf (r.w 2) 35 3
def Rec.retry (r : Rec) : Nat := bf (r.w 2) 38 8
def Rec.resid (r : Rec) : Nat := bf (r.w 2) 46 7
def Rec.wdog (r : Rec) : Nat := bf (r.w 3) 0 40
def Rec.levels (r : Rec) : List Nat := [bf (r.w 4) 0 3, bf (r.w 4) 3 3, bf (r.w 4) 6 3]
def Rec.feat (r : Rec) : Nat := bf (r.w 4) 16 32
def Rec.step (r : Rec) : Nat := bf (r.w 5) 0 48
def Rec.tcm (r : Rec) : W64 := w64 (bf (r.w 6) 0 32)
def Rec.job (r : Rec) : Nat := bf (r.w 6) 32 32
def Rec.preds (r : Rec) : List Nat :=
  [bf (r.w 7) 0 16, bf (r.w 7) 16 16, bf (r.w 7) 32 16, bf (r.w 7) 48 16].filter (fun p => p != 0xFFFF)
def Rec.dcp (r : Rec) : W64 := w64 (bf (r.w 8) 0 55)
def Rec.rprod (r : Rec) : Nat := bf (r.w 9) 0 16
def Rec.rbase (r : Rec) : Nat := bf (r.w 10) 0 55
def Rec.rlen (r : Rec) : Nat := bf (r.w 11) 0 40

/-- Reserved bits of a record that must be zero (R355); TENANT as posted is ignored. -/
def Rec.reserved (r : Rec) : Bool :=
  bf (r.w 0) 55 9 != 0 || bf (r.w 1) 55 9 != 0 || bf (r.w 2) 53 11 != 0 || bf (r.w 4) 9 7 != 0
    || bf (r.w 4) 48 16 != 0 || bf (r.w 5) 48 16 != 0 || bf (r.w 8) 55 9 != 0 || bf (r.w 9) 16 48 != 0
    || bf (r.w 10) 55 9 != 0 || bf (r.w 11) 40 24 != 0 || (r.words.drop 12).any (fun w => w != 0)

/-- The ranges of a TCMCFG image keep R75: neither wraps past byte 0xFFFF and they do not overlap. -/
def tcmOk (w : W64) : Bool :=
  let sb := bf w 0 8; let ss := bf w 8 8; let pb := bf w 16 8; let ps := bf w 24 8
  decide (sb + ss ≤ 256) && decide (pb + ps ≤ 256)
    && (ss == 0 || ps == 0 || decide (sb + ss ≤ pb) || decide (pb + ps ≤ sb))

/-- Records of a tenant not yet retired (R361), and the one with a LID. -/
def Vf.stored (v : Vf) : List Rec := v.records.filter (fun r => !r.retired)
def Vf.unretired (v : Vf) (lid : Nat) : Option Rec := v.records.find? (fun r => r.lid == lid && !r.retired)
/-- The record accepted at a place. -/
def Vf.record (v : Vf) (order : Nat) : Option Rec := v.records.find? (fun r => r.order == order)

/-- A record is the producer of a dropped buffer whose consumer has not ended (R363). -/
def Vf.needed (v : Vf) (r : Rec) : Bool := v.records.any (fun q => q.dropped && q.rprod == r.lid && q.state != .ended)
/-- Retired records that no recompute edge needs leave the store. -/
def Vf.prune (v : Vf) : Vf := { v with records := v.records.filter (fun r => !(r.retired && r.state == .ended && !v.needed r)) }

/-- Slots of the paddock pool in use by the tenants of a node (R364). -/
def State.poolUsed (s : State) (n : Nat) : Nat :=
  (s.plat.vfs.map (fun x => if x.2.node = n then (x.2.stored.filter (fun r => r.pooled)).length else 0)).sum

/-- A record changed. -/
def State.modRec (s : State) (v order : Nat) (f : Rec → Rec) : State :=
  s.modVf v (fun t => { t with records := t.records.map (fun r => if r.order == order then f r else r) })
/-- The launch record of a domain is in a state. -/
def State.recIs (s : State) (d : Nat) (st : RecState) : Bool := (s.vf (s.domain d).vf).records.any (fun r => r.domain == some d && r.state == st)
/-- The launch record of a domain changed. -/
def State.modLaunch (s : State) (d : Nat) (f : Rec → Rec) : State :=
  s.modVf (s.domain d).vf (fun t => { t with records := t.records.map (fun r => if r.domain == some d then f r else r) })

/-- The checks of R356 after the slot's own bits; 0 is accepted. -/
def State.recCheck (s : State) (v : Nat) (r : Rec) : Nat :=
  let t := s.vf v
  let n := s.node t.node
  if t.node = 0 ∨ n.state = .held ∨ t.tdisp = .locked ∨ t.tdisp = .error ∨ t.exported.isSome ∨ s.plat.warm then 7
  else if 256 ≤ (t.stored.filter (fun x => !x.pooled)).length ∧ n.ppool.toNat ≤ s.poolUsed t.node then 1
  else if r.reserved ∨ 100 < r.resid ∨ r.wdog = 0 ∨ r.lid = 0xFFFF ∨ r.levels.any (fun l => decide (4 < l))
      ∨ r.entry.toNat % 4 ≠ 0 ∨ r.dcp.toNat % 64 ≠ 0 ∨ r.rbase % 65536 ≠ 0 ∨ r.rlen % 65536 ≠ 0
      ∨ (r.rprod ≠ 0xFFFF ∧ r.rlen = 0) then 2
  else if r.psize ≠ nodeLog t.node then 3
  else if r.feat &&& (Config.fset.toNat ^^^ (2 ^ 32 - 1)) ≠ 0 then 4
  else if !tcmOk r.tcm then 5
  else if (t.unretired r.lid).isSome then 6
  else 0

/-- A record's predecessors (R361): none left waiting, and whether one ended with another status than OK. -/
def Vf.predsDone (v : Vf) (r : Rec) : Bool :=
  r.preds.all (fun p => match v.unretired p with | some q => q.state == .ended | none => true)
def Vf.predFailed (v : Vf) (r : Rec) : Bool :=
  r.preds.any (fun p => match v.unretired p with | some q => q.state == .ended && q.status != 0 | none => false)

/-! ### Completions (R365) -/

/-- The 32 bytes of a completion entry. -/
def Completion.value (e : Completion) : Nat :=
  e.lid + e.status * 2 ^ 16 + e.cause * 2 ^ 24 + e.tenant * 2 ^ 32 + b2n e.replay * 2 ^ 40 + b2n e.dyn * 2 ^ 41
    + e.ssn.toNat * 2 ^ 64 + e.aborts.toNat * 2 ^ 128 + (e.tick % 2 ^ 64) * 2 ^ 192

/-- Entries of a completion queue. -/
def Vf.cqSize (v : Vf) : Nat := 2 ^ (bf v.cqCfg 0 4 + 4)
/-- The queue takes another entry. -/
def Vf.cqOpen (v : Vf) : Bool := bit v.cqCfg 4 && (v.cqTail.toNat + 1) % v.cqSize != v.cqHead.toNat % v.cqSize

/-- One waiting entry written when the queue has room (R365). -/
def State.writeCompletion (s : State) (v : Nat) : State :=
  let t := s.vf v
  match t.waitingEntries with
  | [] => s
  | e :: r =>
    if t.cqOpen then
      (s.hostWrite (alignTo 4096 t.cqBase.toNat + 32 * t.cqTail.toNat) 32 e.value).modVf v (fun t =>
        { t with waitingEntries := r, cqTail := BitVec.ofNat 16 ((t.cqTail.toNat + 1) % t.cqSize), vectors := t.vectors + 1,
                 written := t.written ++ [(t.cqTail.toNat, e.lid, e.own)] })
    else s

/-- Every waiting entry that has room. -/
def State.flushCompletions (s : State) (v : Nat) : State :=
  (s.vf v).waitingEntries.foldl (fun s _ => s.writeCompletion v) s

/-- An entry for a tenant, written now or waiting in order (R365). -/
def State.complete (s : State) (v : Nat) (e : Completion) : State :=
  (s.modVf v (fun t => { t with waitingEntries := t.waitingEntries ++ [{ e with tenant := v, tick := s.hbt }] })).flushCompletions v

/-- The live commit domain of a tenant's job; job 0 is a launch's own (R357). -/
def State.jobDomain (s : State) (v job : Nat) : Option Nat :=
  (s.domains.find? (fun p => p.2.live && p.2.vf == v && p.2.job == job && job != 0)).map (fun p => p.1)

/-- A job's domain ends with a launch of it that ends with a status other than OK (R357): at once, or together with another
launch of the job that is under way. See log 37. -/
def State.endJob (s : State) (v job : Nat) : State :=
  match s.jobDomain v job with
  | some d => s.modDomain d (fun m => if m.members.isEmpty then { m with live := false } else { m with doomed := true })
  | none => s

/-- Records leave WAITING (R361): READY when every predecessor has ended OK, ENDED with PRED-FAILED as soon as one ends
otherwise, which may end others; fuel bounds the chain by the number of records. -/
def State.wakeRecords (s : State) (v fuel : Nat) : State :=
  match fuel with
  | 0 => s
  | k + 1 =>
    let t := s.vf v
    match t.records.find? (fun r => r.state == .waiting && (t.predFailed r || t.predsDone r)) with
    | none => s
    | some r =>
      let bad := t.predFailed r
      let s := s.modRec v r.order (fun q => { q with state := if bad then .ended else .ready, status := if bad then 5 else 0, since := s.hbt })
      let s := if bad then (s.complete v { lid := r.lid, status := 5, dyn := r.dyn, own := true }).endJob v r.job else s
      s.wakeRecords v k

/-- A record ended with a status (R361, R365), and with it its job's domain unless that is OK (R357). -/
def State.endRecord (s : State) (v order status cause : Nat) (ssn : BitVec 48) (aborts : BitVec 32) : State :=
  match (s.vf v).record order with
  | none => s
  | some r =>
    let s := s.modVf v (fun t => { t with records := t.records.map (fun q =>
      if q.order == order then { q with state := .ended, status := if r.replay then q.status else status, replay := false, domain := none }
      else if r.replay && q.rprod == r.lid then { q with dropped := false }
      else q) })
    let s := s.modVf v Vf.prune
    let s := s.complete v { lid := r.lid, status := status, cause := cause, replay := r.replay, dyn := r.dyn, ssn := ssn, aborts := aborts,
                            own := !r.replay }
    let s := if status = 0 then s else s.endJob v r.job
    s.wakeRecords v (s.vf v).records.length

/-- The working set is recorded and the A bits cleared with the tenant not running (R376); its translations leave the
caches (R369). -/
def State.recordSet (s : State) (v : Nat) : State :=
  let touched := fun (l : Tab W64) => (l.filter (fun p => pteV p.2 && pteTier p.2 == 0 && pteA p.2)).map (fun p => p.1)
  let clear := fun (l : Tab W64) => l.map (fun p => (p.1, p.2 &&& ~~~ 0x10000#64))
  (s.modVf v (fun t => { t with wset := touched t.pages, wbigs := touched t.bigs, pages := clear t.pages, bigs := clear t.bigs })).dropCaches
    (fun y => y.vf == v)

/-- Pages of the recorded working set, 8,192 to each 512 MiB page, and those of them at tier 0 (R361, R376). -/
def Vf.setPages (t : Vf) : Nat := t.wset.length + 8192 * t.wbigs.length
def Vf.setResident (t : Vf) : Nat :=
  (t.wset.filter (fun p => pteV (tget t.pages p 0) && pteTier (tget t.pages p 0) == 0)).length
    + 8192 * (t.wbigs.filter (fun b => pteV (tget t.bigs b 0))).length

/-- A core leaves its launch: nothing of it runs. -/
def Core.idle (c : Core) : Core :=
  { c with ctxs := c.ctxs.map (fun p => (p.1, { p.2 with active := false, await := .running, ah := [], eh := [], shadow := none, row := none, rowEnded := false, stores := [], sc := none })),
           phase := .ended, domain := none, started := false, early := none, flight := [], gstores := [], copies := [], banks := [], ranges := [] }

/-- The clock of a unit with table entry f in a performance state (25 R418); gated units run at none. -/
def clockIn (ps f : Nat) : Nat :=
  match ps with
  | 0 => f
  | 7 => 0
  | k => Nat.max 470 (5 * (f * (100 - 10 * k) / 500))

/-- A launch's replays per 10^9 of a unit's cycles join its trend, which spans the unit's last 8 launches (25 R410). -/
def Speed.note (x : Speed) (replays cycles : Nat) : Speed := { x with trend := (replays * 10 ^ 9 / cycles :: x.trend).take 8 }
/-- The average of a unit's trend. -/
def Speed.mean (x : Speed) : Nat := x.trend.sum / x.trend.length
/-- DERATE.THRESH (25 R412). -/
def State.derateAt (s : State) : Nat := bf (s.pf 0x408010) 0 32
/-- The ticks of a running launch up to now are noted under its node's power state (25 R410, R418). -/
def State.noteTicks (s : State) (d : Nat) : State :=
  s.modDomain d (fun m =>
    if m.paused then m
    else { m with psTicks := tmod m.psTicks (s.node m.node).power 0 (fun n => n + (s.hbt - m.began)), began := s.hbt })
/-- A launch is saved, or goes on: its units' replay counts change places with what they have come to since (25 R410), so that a
launch's time and replays are those of its runs. -/
def State.flipTrend (s : State) (d : Nat) : State :=
  (s.noteTicks d).modDomain d (fun m => { m with
    paused := !m.paused, began := s.hbt
    coreReplays := m.coreReplays.map (fun p => (p.1, ((s.core p.1).replays - BitVec.ofNat 32 p.2).toNat))
    teamReplays := m.teamReplays.map (fun p => (p.1, ((s.team p.1).replays - BitVec.ofNat 32 p.2).toNat)) })
/-- The units of an ended launch take its replays into their trends; firmware derates those that have reached the threshold
(25 R410). See log 45. -/
def State.noteTrends (s : State) (d : Nat) : State :=
  let s := if (s.domain d).paused then s.flipTrend d else s.noteTicks d
  let m := s.domain d
  let cycles := fun (f : Nat) => (m.psTicks.map (fun p => p.2 * clockIn p.1 f)).sum / 100
  let note := fun (s : State) (engine : Bool) (u f count : Nat) => if cycles f = 0 then s else s.modSpeed engine u (fun x => x.note count (cycles f))
  let s := m.speed.foldl (fun s p => note s false p.1 p.2 (((s.core p.1).replays - BitVec.ofNat 32 (tget m.coreReplays p.1 0)).toNat)) s
  let s := m.espeed.foldl (fun s p => note s true p.1 p.2 (((s.team p.1).replays - BitVec.ofNat 32 (tget m.teamReplays p.1 0)).toNat)) s
  let due := fun (engine : Bool) (u : Nat) => s.derateAt ≤ (s.speedOf engine u).mean && !(s.unitAbsent engine u)
  s.pend (((m.speed.filter (fun p => due false p.1)).map (fun p => .derate false p.1)) ++ ((m.espeed.filter (fun p => due true p.1)).map (fun p => .derate true p.1)))

/-- The launch of a domain ends (R45, R53, R361, R365): its record, the cores it runs on, its saved context area, its
collectives (in flight, they are cancelled: 11 R294 status 2, which stays until the job's next launch); the controller looks for the next record. A domain survives only an OK end of a job that has
a number (R357). -/
def State.endLaunch (s : State) (d status cause : Nat) : State :=
  let dom := s.domain d
  let ran := (s.node dom.node).running = some d
  let s := (s.endRecord dom.vf dom.record status cause dom.ssn dom.total).noteTrends d
  let s := dom.members.foldl (fun s c => if (s.core c).domain = some d then s.modCore c Core.idle else s) s
  let s := s.modVf dom.vf (fun t => { t with areas := t.areas.filter (fun a => a.domain != d) })
  let cancelled := s.dies.flatMap (fun p => (p.2.colls.filter (fun o => o.2.dom == d)).map (fun o => { o.2 with status := 2 }))
  let s := (List.range 4).foldl (fun s k => s.modDie k (fun x => { x with colls := x.colls.filter (fun o => o.2.dom != d) })) s
  let keep := status == 0 && dom.job != 0 && !(s.domain d).doomed
  let s := s.modDomain d (fun m => { m with live := keep, members := [], decision := none, done := [], held := false, inbox := [], nodes := [], root := none, insts := [],
                                            wdRun := false, ending := none, cancel := false, pushes := [], gangs := [], waitingGangs := [],
                                            arrivals := [], polling := [], pollAt := none, strag := none, yieldReq := false, doneDevs := [],
                                            collDone := (cancelled ++ m.collDone).take 256, contribs := [] })
  let s := s.modPlat (fun p => { p with kept := p.kept.filter (fun x => bf (x.words.getD 0 0) 0 16 != dom.id.toNat) })
  let s := if ran then (s.recordSet dom.vf).modNode dom.node (fun n => { n with running := none, outgoing := dom.vf }) else s
  s.pend [.recomputeDrop dom.node, .launchSelect dom.node]

/-! ### The error log (R415, R416) -/

/-- The 32 bytes of a log entry. -/
def LogEntry.value (e : LogEntry) : Nat :=
  e.tick % 2 ^ 64 + (e.src + e.kind * 2 ^ 8 + e.group * 2 ^ 10 + e.level * 2 ^ 14 + e.action * 2 ^ 17 + e.unit * 2 ^ 19) * 2 ^ 64
    + bf e.addr 0 55 * 2 ^ 128 + (Nat.min e.count 0xFFFF + e.tenant * 2 ^ 16) * 2 ^ 192

/-- The log queue's size and whether it takes another entry. -/
def State.logSize (s : State) : Nat := 2 ^ (bf (s.pf 0x410008) 0 4 + 4)
def State.logOpen (s : State) : Bool :=
  bit (s.pf 0x410008) 4 && (bf (s.pf 0x410018) 0 16 + 1) % s.logSize != bf (s.pf 0x410010) 0 16 % s.logSize

/-- An entry written at TAIL; PF vector 8 is raised. -/
def State.writeLog (s : State) (e : LogEntry) : State :=
  let tail := bf (s.pf 0x410018) 0 16
  let s := s.hostWrite (alignTo 4096 (s.pf 0x410000).toNat + 32 * tail) 32 e.value
  let s := s.setPf 0x410018 (w64 ((tail + 1) % s.logSize))
  s.modPlat (fun p => { p with
    pfVectors := p.pfVectors ||| 0x100#64
    lastLog := { e with pos := some tail } :: (p.lastLog.take 255).map (fun x => if x.pos = some tail then { x with pos := none } else x) })

/-- The log starts at another place or has another size: no entry written before can be changed (R416). -/
def State.moveLog (s : State) : State := s.modPlat (fun p => { p with lastLog := p.lastLog.map (fun x => { x with pos := none }) })

/-- Entries lost are counted (R416). -/
def State.loseLog (s : State) : State := s.setPf 0x410020 (w64 (Nat.min (bf (s.pf 0x410020) 0 32 + 1) (2 ^ 32 - 1)))

/-- Waiting entries written while the log has room. -/
def State.flushLog (s : State) : State :=
  s.plat.log.foldl (fun s _ => match s.plat.log with
    | e :: r => if s.logOpen then (s.writeLog e).modPlat (fun p => { p with log := r }) else s
    | [] => s) s

/-- An event logged (R415): corrected events of one source, unit and address within 2^16 ticks coalesce, into the entry that the
log still holds in its place, while entries are written. -/
def State.logError (s : State) (e : LogEntry) : State :=
  let e := { e with tick := s.hbt, count := 1 }
  match s.plat.lastLog.find? (fun x => e.kind == 0 && x.kind == 0 && x.src == e.src && x.unit == e.unit && x.addr == e.addr
      && decide (s.hbt ≤ x.tick + 65536)) with
  | some x =>
    let y := { x with count := x.count + 1 }
    let s := s.modPlat (fun p => { p with lastLog := y :: p.lastLog.erase x })
    match x.pos.filter (fun _ => bit (s.pf 0x410008) 4) with
    | some k => s.hostWrite (alignTo 4096 (s.pf 0x410000).toNat + 32 * k) 32 y.value
    | none => s
  | none =>
    if s.logOpen then s.writeLog e
    else if e.kind = 0 then s.loseLog
    else if s.plat.log.length < 256 then s.modPlat (fun p => { p with log := p.log ++ [e] })
    else s.loseLog

/-- An event of the module itself, which enters no containment (25 R415, R418). See log 47. -/
def State.logEvent (s : State) (src unit : Nat) : State := s.logError { src := src, kind := 3, unit := unit }

/-- An error of a memory (25 R413, R415): a corrected one of TCM, scratchpad, version pool, die store or HBM is logged; one
that cannot be corrected poisons its line of HBM, is found by every read of its 8-byte word of TCM, scratchpad or version pool until
the word is written, or by the user's next read of its register store or of a page of the die store. See log 13. -/
def State.memoryError (s : State) (src user addr : Nat) (corrected : Bool) : State :=
  let c := user / 8
  if corrected then
    if src < 2 ∨ 6 < src then s
    else s.logError { src := src, kind := 0, unit := if src = 6 then addr / 2 ^ 36 % 16 else s.gcid c, addr := w64 addr, tenant := s.tenantOf c }
  else if src = 6 then s.modPlat (fun p => { p with poisoned := tput p.poisoned (addr / 64 % 2 ^ 34) 0 })
  else if src = 2 then s.modCore c (fun x => { x with bad := addr % 65536 / 8 :: x.bad })
  else if src = 3 then s.modCluster (clusterOf c) (fun k => { k with bad := addr % Config.padBytes / 8 :: k.bad })
  else if src = 4 then s.modCluster (clusterOf c) (fun k =>
    if inLines k.logged (addr % Config.padBytes / 8) then { k with badLog := addr % Config.padBytes / 8 :: k.badLog } else k)
  else if src = 1 ∨ src = 5 then s.modCtx c (user % 8) (fun x => { x with upset := src })
  else s

/-- A 64-byte line of local memory, by the local address of a core, gets a poison mark (02 R52, 10 R242), which it keeps until it has
been written in full. See log 13. -/
def State.poisonLine (s : State) (c addr : Nat) : State :=
  let line := fun (off : Nat) => (List.range 64).map (fun i => alignTo 64 off + i)
  match s.resolve c addr 64 with
  | .tcm off => s.modCore c (fun x => { x with marked := line off ++ unmarked x.marked (alignTo 64 off) 64 })
  | .pad off _ _ _ _ => s.modCluster (clusterOf c) (fun k => { k with marked := line off ++ unmarked k.marked (alignTo 64 off) 64 })
  | _ => s

/-! ### The devices of a domain (23 R398) -/

/-- The position of a number in a list. -/
def indexOf (l : List Nat) (n : Nat) : Nat := match l with | [] => 0 | x :: r => if x = n then 0 else indexOf r n + 1

/-- The devices that take part (R292, R402): the present devices of the membership table. -/
def State.participants (s : State) (d : Nat) : List Nat :=
  let m := s.domain d
  if m.devices.isEmpty then [s.plat.devNo.toNat] else m.devices.filter (fun x => !m.absent.contains x)

/-- This device's position among the present devices of a domain; 0 holds the root (R398). -/
def State.position (s : State) (d : Nat) : Nat := indexOf (s.participants d) s.plat.devNo.toNat
/-- The parent device and the child devices on the tree of R398. -/
def State.parentDev (s : State) (d : Nat) : Option Nat :=
  let j := s.position d
  if j = 0 then none else (s.participants d)[(j - 1) / 2]?
def State.childDevs (s : State) (d : Nat) : List Nat :=
  let j := s.position d
  [2 * j + 1, 2 * j + 2].filterMap (fun k => (s.participants d)[k]?)

/-- The members of a device that is present: this one's, or another's count (R23). -/
def State.membersOn (s : State) (d v : Nat) : Nat :=
  if v = s.plat.devNo.toNat then (s.domain d).members.length else tget (s.domain d).counts v 0

/-! ### Arrival at a barrier (R27, R28, R30) -/

/-- The active general contexts of a core. -/
def Core.general (c : Core) : List (Nat × Ctx) := c.ctxs.filter (fun p => decide (p.1 < 4) && p.2.active)

/-- The slot a context waits on. -/
def Ctx.waitsOn (c : Ctx) : Option Nat := match c.await with | .bar slot _ _ _ => some slot | _ => none

/-- After a BAR or a retirement: when every active general context waits on one slot, or none is active, the core
drains (R27, R28, R30). -/
def State.checkArrive (s : State) (c : Nat) : State :=
  let co := s.core c
  if co.phase ≠ .run ∧ co.phase ≠ .gather then s
  else match co.general with
    | [] => if co.started then (s.modCore c (fun co => { co with phase := .drain, slot := 0 })).pend [.coreArrive c 0] else s
    | (_, x) :: r =>
      match x.waitsOn with
      | some slot =>
        if r.all (fun p => p.2.waitsOn == some slot) then
          (s.modCore c (fun co => { co with phase := .drain, slot := slot })).pend [.coreArrive c slot]
        else s.modCore c (fun co => { co with phase := .gather })
      | none =>
        if r.any (fun p => p.2.waitsOn.isSome) then s.modCore c (fun co => { co with phase := .gather }) else s

/-- Word i of a matrix job's descriptor (R272). -/
def Job.w (j : Job) (i : Nat) : W64 := j.words.getD i 0
/-- Row(m) of R273. -/
def Job.row (j : Job) (m : Nat) : Bool := decide (m < bf (j.w 0) 18 8) && (bf (j.w 1) 8 6 == 63 || bit j.rmask m)
/-- The rows that the job drains, in increasing number (R275). -/
def Job.rowList (j : Job) : List Nat := (List.range 128).filter j.row
/-- The cores of the drain mask, in increasing core-in-team order (R68). -/
def Job.handlers (j : Job) : List Nat := (List.range 8).filter (fun i => bit (j.w 1) i)
/-- The core in team whose handler takes row m: the i-th drained row goes to the (i mod n)-th selected core (R68). -/
def Job.handlerOf (j : Job) (m : Nat) : Option Nat :=
  let l := j.handlers
  l[(j.rowList.filter (fun x => decide (x < m))).length % l.length]?

/-- A row waits for the handler of core c (R30). -/
def State.rowWaits (s : State) (c : Nat) : Bool :=
  (s.team (teamOf c)).jobs.any (fun j => j.state == 2 && j.left.any (fun m => j.handlerOf m == some (c % 8)))

/-- Every command of the core has completed, and its handler has no row (R29, R30). -/
def State.drained (s : State) (c : Nat) : Bool :=
  let co := s.core c
  co.copies.isEmpty && co.banks.all (fun b => b.state == 3 && b.out.isEmpty) && co.gstores.isEmpty && co.ctxs.all (fun p => p.2.unwritten.isEmpty)
    && s.teams.all (fun t => (t.2.queue ++ t.2.jobs).all (fun j => j.core != c || j.state == 3))
    && (co.ctx 4).row.isNone && !(co.ctx 4).rowEnded && !s.rowWaits c

/-- A completion may let a draining core arrive. -/
def State.nudge (s : State) (c : Nat) : State :=
  if (s.core c).phase = .drain then s.pend [.coreArrive c (s.core c).slot] else s

/-- A context retires (R63): its levels close, its vote is kept for the core's next arrival, and it waits at no BAR. -/
def State.retire (s : State) (c k : Nat) : State :=
  let x := s.ctx c k
  let s := s.modCore c (fun co =>
    { (co.modCtx k (fun y => { y with active := false, await := .running, ah := [], eh := [], edge := none, himm := [], hmod := [], hfirst := none,
                                      loops := {}, vote := 0, shadow := none, barSlot := none, loaded := [], sc := none, scPass := none })) with
      retired := if x.vote = 0 then co.retired else co.retired ++ [{ vote := x.vote, budget := bf x.retrymax 0 8 }] })
  s.checkArrive c

/-- A position of a ring in another state. -/
def Ring.mark (r : Ring) (pos : Nat) (st : RState) : Ring :=
  { r with slots := r.slots.map (fun x => if x.pos == pos then { x with state := st } else x) }
/-- A ring of a core changed. -/
def State.modRing (s : State) (c h : Nat) (f : Ring → Ring) : State :=
  s.modCore c (fun co => match tfind co.rings h with
    | some r => { co with rings := tput co.rings h (f r) }
    | none => co)

/-- The record of an engine's job at its submitting core, as the job stands (R267, R285). -/
def State.noteJob (s : State) (t : Nat) (j : Job) : State :=
  s.modCore j.core (fun c =>
    match tfind c.recs j.id with
    | some r => if r.team = t ∧ r.key = j.key then
        { c with recs := tput c.recs j.id { r with state := j.state, status := j.status, flags := j.flags, rows := j.rows } } else c
    | none => c)

/-- A job of an engine changed, with its record. -/
def State.modJob (s : State) (t key : Nat) (f : Job → Job) : State :=
  let s := s.modTeam t (fun x => { x with jobs := x.jobs.map (fun j => if j.key == key then f j else j) })
  match (s.team t).jobs.find? (fun j => j.key == key) with
  | some j => s.noteJob t j
  | none => s

/-- A context that has nothing more to do: it waits for its next start. -/
def Ctx.idle (x : Ctx) : Ctx :=
  { x with row := none, rowEnded := false, active := false, ah := [], eh := [], himm := [], hmod := [], hfirst := none, shadow := none,
           loaded := [], sc := none, scPass := none }

/-- A drained row leaves the job: its ring position is full (R96), and one row more has passed MDONE (R267). -/
def State.rowPassed (s : State) (r : Row) : State :=
  let s := match (s.team r.team).jobs.find? (fun j => j.key == r.job) with
    | some j => if bit (j.w 0) 56 then s.modRing j.core (bf (j.w 0) 52 4) (fun g => g.mark r.pos .full) else s
    | none => s
  (s.modJob r.team r.job (fun j => { j with rows := j.rows + 1, busyRows := j.busyRows - 1 })).pend [.matrixJobComplete r.team, .drainRow r.team]

/-- A handler that is stopped retires its row as by MDONE drop and becomes free (R226, R287). See log 28. -/
def State.releaseRow (s : State) (c : Nat) : State :=
  match (s.ctx c 4).row with
  | none => if (s.ctx c 4).rowEnded then ((s.modCtx c 4 Ctx.idle).pend [.drainRow (teamOf c)]).nudge c else s
  | some r => ((s.rowPassed r).modCtx c 4 Ctx.idle).nudge c

/-- MDONE ends the handler's row (R287): nothing after it is delivered, and the handler is free when the access
instructions before it have issued. -/
def State.endRow (s : State) (c : Nat) : State :=
  match (s.ctx c 4).row with
  | none => s
  | some r =>
    if (s.ctx c 4).ah.isEmpty then s.releaseRow c
    else ((s.rowPassed r).modCtx c 4 (fun x => { x with row := none, rowEnded := true, himm := [], hmod := [], hfirst := none, shadow := none })).nudge c

/-! ### Containment (R51-R55) -/

/-- The policy fields of a group from thread to system level (R52, R54, R359). -/
def State.policies (s : State) (c : Nat) (cpol : W64) (g : Nat) : List Nat :=
  let pol := match s.domOf c with | some d => d.ppol | none => 0xE5DAF5DFF5DF#48
  [bf cpol (2 * g) 2, bf pol (2 * g) 2, bf pol (16 + 2 * g) 2, bf pol (32 + 2 * g) 2, bf s.plat.sysPol (2 * g) 2]

/-- The first level from the entry level whose field is not kill parent, with its action (R51); level 5 is the warm
reset of R53. See log 34. -/
def firstPolicy (pols : List Nat) (level : Nat) : Nat × Nat :=
  match pols with
  | [] => (5, 3)
  | p :: r => if p ≠ 3 then (level, p) else firstPolicy r (level + 1)

/-- The clusters of the paddock that a core belongs to, as the bits of WRFAIL (R383, R385). -/
def State.failedOf (s : State) (c : Nat) : W64 :=
  let n := s.nodeOf c
  if n = 0 then w64 (2 ^ 64 - 1) else
    let r := nodeRange n
    w64 ((2 ^ (r.2 - r.1) - 1) * 2 ^ r.1)

/-- A trigger of a warm reset; a second one during the reset escalates it (22 R383). -/
def State.triggerReset (s : State) (cause : Nat) (failed : W64) : State :=
  if s.plat.warm then { s with sched := { s.sched with pending := .warmResetOverrun :: s.sched.pending } }
  else (s.modPlat (fun p => { p with warm := true, wrCause := cause, wrFail := failed })).pend [.warmReset cause failed]

/-- The core that votes for a retry decided on core c (R27, R40): for a row that the handler of an arrived core holds, the core
whose job it is, which still drains. See log 25. -/
def State.parker (s : State) (c : Nat) : Nat :=
  match (s.core c).phase, (s.ctx c 4).row with
  | .arrived, some r => match (s.team r.team).jobs.find? (fun j => j.key == r.job) with | some j => j.core | none => c
  | _, _ => c

/-- A core parks and votes abort (R40): the park itself is the step CORE_PARK. See log 25. -/
def State.askPark (s : State) (c0 g : Nat) : State :=
  let c := s.parker c0
  if (s.core c).early.isSome then s
  else (s.modCore c (fun co => { co with early := some (g, s.hbt) })).pend [.corePark c]

/-- A kill self that ends a core's launch with a status once the open superstep has aborted (R53); of several the gravest
stays. See log 26. -/
def State.endsWith (s : State) (c st : Nat) : State :=
  match (s.core c).domain with
  | some d => s.modDomain d (fun m => { m with ending := some (Nat.max (m.ending.getD 0) st) })
  | none => s

/-- Containment of an event on a core, entered at a level (R51, R53), with the unit that the log names (R415). True when the
event is ignored. See log 34. -/
def State.contain (s : State) (level c : Nat) (k : Option Nat) (cpol : W64) (g : Nat) (src kind : Nat) (addr : W64) (unit : Nat := s.gcid c) : State × Bool :=
  let r := firstPolicy ((s.policies c cpol g).drop level) level
  let s := s.logError { src := src, kind := kind, group := g, level := if r.1 = 5 then 4 else r.1, action := r.2, unit := unit, addr := addr,
                        tenant := s.tenantOf c }
  match r.2 with
  | 0 => (s, true)
  | 1 => (s.askPark c g, false)
  | 2 =>
    match r.1 with
    | 0 =>
      match k with
      | some 4 => (s.releaseRow c, false)
      | some k => (s.retire c k, false)
      | none => (s, false)
    | 1 =>
      let s := s.modPlat (fun p => { p with coreSpeed := tmod p.coreSpeed c {} (fun x => { x with absent := true }), withdrawn := c :: p.withdrawn })
      ((s.endsWith c 2).askPark c g, false)
    | 2 =>
      let s := (List.range 128).foldl (fun s i => s.modPlat (fun p =>
        { p with coreSpeed := tmod p.coreSpeed (clusterOf c * 128 + i) {} (fun x => { x with absent := true }),
                 withdrawn := (clusterOf c * 128 + i) :: p.withdrawn })) s
      ((s.endsWith c 2).askPark c g, false)
    | 3 => ((s.endsWith c 3).askPark c g, false)
    | _ => ((s.endsWith c 7).askPark c g, false)
  | _ => ((s.modCore c (fun co => { co with early := some (g, s.hbt) })).triggerReset 1 (s.failedOf c), false)

end Sys2Proof.Machine
end

