-- ==== Sys2Proof/Machine/Ops.lean ====
section
/-!
DEFINITION. Taking a trap (09 R226-R228, 02 R51-R53), returning from it (R230), following the loops (R218), and the
frame in which every meaning of an instruction word runs: the checks of R168-R173 and R428, then its effect.
-/

namespace Sys2Proof.Machine

open Sys2Proof

/-! ### Loop levels as R220 lays them out -/

def Loops.depth (l : Loops) : Nat := bf l.lstate 0 2
def Loops.len (l : Loops) (k : Nat) : Nat := bf l.lstate (16 * k + 16) 8
def Loops.walk (l : Loops) (k : Nat) : Bool := bit l.lstate (16 * k + 24)
def Loops.walker (l : Loops) (k : Nat) : Nat := bf l.lstate (16 * k + 25) 3
def Loops.flag (l : Loops) (k : Nat) : Nat := bf l.lstate (16 * k + 28) 2
def Loops.count (l : Loops) (k : Nat) : W64 := match k with | 0 => l.lc0 | 1 => l.lc1 | _ => l.lc2
def Loops.addr (l : Loops) (k : Nat) : W64 := match k with | 0 => l.laddr0 | 1 => l.laddr1 | _ => l.laddr2
def Loops.setCount (l : Loops) (k : Nat) (v : W64) : Loops :=
  match k with | 0 => { l with lc0 := v } | 1 => { l with lc1 := v } | _ => { l with lc2 := v }
def Loops.setAddr (l : Loops) (k : Nat) (v : W64) : Loops :=
  match k with | 0 => { l with laddr0 := v } | 1 => { l with laddr1 := v } | _ => { l with laddr2 := v }
def Loops.setDepth (l : Loops) (d : Nat) : Loops := { l with lstate := bput l.lstate 0 2 d }
/-- The word after the last body word of level k. -/
def Loops.exit (l : Loops) (k : Nat) : W64 := l.addr k + w64 (4 * l.len k + 4)

/-- A flag of a walker by the coding of R216. -/
def Walker.flag (w : Walker) (n : Nat) : Bool := match n with | 0 => w.e0 | 1 => w.e1 | 2 => w.e2 | _ => w.spent

/-- VRB after a back-edge (R19, R218). -/
def rotated (view : W64) : W64 := if bit view 16 then bput view 20 4 (bf view 20 4 + 1) else view

/-- The loop of R218 after the word at addr, with resumed set when a LOOPW level waited: the context with its next
fetch point, or, when that level's flag is not known yet, with the edge left open. See log 57. -/
def Ctx.backEdge (c : Ctx) (addr : W64) (ehIdle resumed : Bool) (fuel : Nat) : Ctx :=
  match fuel with
  | 0 => c
  | n + 1 =>
    let d := c.loops.depth
    if d = 0 then { c with edge := none }
    else
      let l := d - 1
      if addr ≠ c.loops.addr l + w64 (4 * c.loops.len l) then { c with edge := none }
      else
        let c := if resumed then c else { c with view := rotated c.view }
        if c.loops.walk l then
          if !ehIdle then { c with edge := some addr }
          else
            let c := { c with loops := c.loops.setCount l (c.loops.count l + 1) }
            if !(tget c.walkers (c.loops.walker l) {}).flag (c.loops.flag l) then { c with pc := c.loops.addr l, edge := none }
            else Ctx.backEdge { c with loops := c.loops.setDepth l } addr ehIdle false n
        else
          let c := { c with loops := c.loops.setCount l (c.loops.count l - 1) }
          if c.loops.count l ≠ (0 : W64) then { c with pc := c.loops.addr l, edge := none }
          else Ctx.backEdge { c with loops := c.loops.setDepth l } addr ehIdle false n

/-- The front end goes on after the word at addr (R218). ehIdle: the EH has issued every delivered instruction. See log 57. -/
def Ctx.follow (c : Ctx) (addr : W64) (ehIdle : Bool) : Ctx := ({ c with pc := addr + 4 }).backEdge addr ehIdle false 4

/-- The issuing transfer is not taken: the front end goes on after it. -/
def fallThrough : M Unit := do
  let s ← get
  modCtx (fun c => c.follow s.issue.addr c.eh.isEmpty)

/-- The issuing transfer is taken. -/
def jump (target : W64) : M Unit := modCtx (fun c => { c with pc := target, edge := none })

/-! ### Slots -/

/-- The slot of the instruction that issues. -/
def State.slot (s : State) (i : Instr) : Slot := { instr := i, iss := { s.issue with ign := [], low := none, bad := none } }

/-- An instruction back at the head of its half's buffer. -/
def Ctx.pushBack (c : Ctx) (sl : Slot) : Ctx :=
  match halfIn sl.iss.himm sl.instr with
  | .ah => { c with ah := sl :: c.ah }
  | .eh => { c with eh := sl :: c.eh }

/-! ### Traps -/

/-- The containment group of a cause (R226). -/
def groupOf (cause : Nat) (committed : Bool) : Nat :=
  if cause ≤ 5 ∨ cause = 16 ∨ cause = 17 then 0
  else if cause ≤ 8 then 1
  else if cause = 9 then (if committed then 3 else 2)
  else if cause = 10 then 4
  else if cause = 15 then 7
  else 6

/-- The log source of a cause (R415); 0 where the table names none. See log 47. -/
def sourceOf (cause : Nat) (tval : W64) : Nat :=
  match cause with
  | 9 => 6
  | 10 => if bit tval 63 then 1 else if bf tval 24 8 = 0 then 2 else 3
  | 12 => 4
  | 13 => 5
  | _ => 0

/-- The log kind of a cause (R415). See log 47. -/
def logKind (cause : Nat) : Nat := if cause = 9 then 2 else if cause = 10 then 1 else 3

/-- The log address of a cause. -/
def logAddr (cause : Nat) (tval : W64) : W64 := if 5 ≤ cause ∧ cause ≤ 10 then tval else 0

/-- TCAUSE, TPC and TVAL of a trap (R228, R229). -/
def Ctx.report (c : Ctx) (half : Half) (first : W64) (cause : Nat) (tval : W64) : Ctx :=
  { c with tcause := w64 (cause + (if half = .eh then 256 else 0)), tpc := w64 (bf first 0 55), tval := tval }

/-- The source of the log entry of a trap (R415): a load of a DELTA page finds an error of the die store, and a read that the
version pool serves one of the pool. -/
def State.trapSource (s : State) (c : Nat) (trapped : Option Slot) (cause : Nat) (tval : W64) : Nat :=
  match trapped with
  | some { instr := .ldg .., .. } => if cause = 10 then 5 else sourceOf cause tval
  | _ =>
    if cause = 10 ∧ !bit tval 63 then
      match s.locate c tval.toNat 64 with
      | .pad off 1 owner _ _ => if owner ≠ inCluster c ∧ meetsBad (s.cluster (clusterOf c)).badLog off 64 then 4 else 3
      | _ => sourceOf cause tval
    else sourceOf cause tval

/-- A parity error found (R225, 25 R413): an error of the register store or the die store is found once, and so is an injected
one, of the register store or, by an LD, of its kind. -/
def Ctx.parityFound (c : Ctx) (src : Nat) (trapped : Option Slot) : Ctx :=
  let load := (match trapped with | some { instr := .ld .., .. } => true | _ => false : Bool)
  if c.upset = src then { c with upset := 0 } else if c.injects src ∧ (src = 1 ∨ load) then { c with errinj := 0 } else c

/-- Whether a trap goes to the handler (R228). -/
def Ctx.handled (c : Ctx) (cause group : Nat) : Bool :=
  !bit c.tstatus 0 && bit c.tvec (56 + group) && !(cause == 16 && c.attached)

/-- Entry to the handler (R227, R228): the unissued instructions, the queues, the fetch point and the loop levels are
set aside; the context goes on at TVEC.BASE·4 with INH set. See log 52. -/
def Ctx.enterHandler (c : Ctx) (trapped : Option Slot) : Ctx :=
  let sh : Shadow := { ah := c.ah, eh := c.eh, lq := c.lq, sq := c.sq, xq := c.xq, bq := c.bq, pc := c.pc, edge := c.edge,
                       hfirst := c.hfirst, himm := c.himm, hmod := c.hmod, loops := c.loops, trapped := trapped }
  { c with ah := [], eh := [], lq := [], sq := [], xq := [], bq := [], hfirst := none, himm := [], hmod := [], edge := none,
           loops := {}, skip := 0, loaded := [], sc := c.sc.filter (fun f => !f.before), scPass := none, shadow := some sh, tstatus := c.tstatus ||| 1#64, pc := w64 (bf c.tvec 2 53 * 4) }

/-- What becomes of a trapping instruction. -/
inductive Taken where
  /-- the handler runs, or containment has taken the context -/
  | done (s : State)
  /-- containment ignores the cause: the instruction has its default result (R53, R226) -/
  | ignored (s : State)

/-- Taking a trap of instruction i of context k of core c (R228). The state is the one before the instruction, with
the instruction removed from its buffer. -/
def State.takeTrap (s : State) (c k : Nat) (trapped : Option Slot) (half : Half) (first : W64) (cause : Nat) (tval : W64)
    (committed : Bool) : Taken :=
  let g := groupOf cause committed
  let src := s.trapSource c trapped cause tval
  let s := s.modCtx c k (fun x =>
    (if cause = 10 then x.parityFound (if src = 4 then 3 else src) trapped else x).report half first cause tval)
  if (s.ctx c k).handled cause g then .done (s.modCtx c k (fun x => x.enterHandler trapped))
  else
    let r := s.contain 0 c (some k) (s.ctx c k).cpol g src (logKind cause) (logAddr cause tval)
    if r.2 then .ignored r.1 else .done r.1

/-- The instruction at the fetch point and its hint group dropped: the front end goes on after it. -/
def Ctx.dropFetch (c : Ctx) : Ctx := ({ c with himm := [], hmod := [], hfirst := none }).follow c.pc c.eh.isEmpty

/-- Return from the handler (R230): with SKIP the trapped instruction is dropped, also one whose fetch trapped. See
log 52. -/
def Ctx.leaveHandler (c : Ctx) : Ctx :=
  match c.shadow with
  | none => c
  | some sh =>
    let c := { c with ah := sh.ah, eh := sh.eh, lq := sh.lq, sq := sh.sq, xq := sh.xq, bq := sh.bq, pc := sh.pc, edge := sh.edge,
                      hfirst := sh.hfirst, himm := sh.himm, hmod := sh.hmod, loops := sh.loops, skip := 0, shadow := none }
    let c :=
      match sh.trapped with
      | none => if bit c.tstatus 1 then c.dropFetch else c
      | some sl =>
        if bit c.tstatus 1 then (if deferred sl.instr then c.follow sl.iss.addr c.eh.isEmpty else c)
        else c.pushBack sl
    { c with tstatus := 0 }

/-! ### The frame of a meaning -/

/-- The instruction word of an instruction (R226 TVAL). -/
def wordOf (i : Instr) : W64 :=
  match i with
  | .illegalInstruction w => w.setWidth 64
  | i => ((encode i).getD 0).setWidth 64

/-- The lowest of the causes 1 to 3 that an instruction and its hint group earn (R169, R428). -/
def State.firstCause (s : State) (i : Instr) (ill opd : Bool) : Option Nat :=
  let m := s.issue.hmod
  if badAtDecode s.issue.himm i || ill then some 1
  else if opd then some 2
  else if decide (1 < m.length) || m.any (fun p => !modLegal (modClass i) p) then some 3
  else none

/-- Instructions whose issue-time checks find illegal-instruction or illegal-operand in state or in values that they
read (R175, R191, R195, R204, R223, R265). -/
def checksAtIssue (i : Instr) : Bool :=
  match i with
  | .loop .. | .loopi .. | .loopw .. | .csrw .. | .csrs .. | .csrc .. | .wcfg .. | .winset .. | .cpy .. | .rcpy .. | .rcfg .. | .rwait ..
  | .rresv .. | .rprod .. | .rcons .. | .rslot .. | .ssweep .. | .tvld .. | .coll .. | .mjob .. | .msend .. | .mpub .. | .msub ..
  | .mcap .. | .bgemv .. | .gang .. | .stepadv .. => true
  | _ => false

/-- Whether a wait of an instruction with form cause form may stand before a check that finds a lower cause: the value or
the descriptor that it judges is still to come. -/
def checkWaits (i : Instr) (form : Nat) : Bool :=
  match i with
  | .loop .. | .loopi .. | .loopw .. => true
  | .rwait .. | .rresv .. | .rprod .. | .rcons .. | .rslot .. | .rcpy .. | .ssweep .. => false
  | _ => form == 3

/-- The outcome of an instruction that a form cause of 2 or 3 condemns, when its own issue-time checks came to r: the
lowest cause among them all (R428). A check that cannot be made yet is waited for. See log 11. -/
def lowestOf (i : Instr) (form : Nat) (r : Except Stop (Unit × State)) : Stop :=
  match r with
  | .error (.trap c _ _) => .trap (Nat.min c form) (wordOf i) false
  | .error (.stall l) => if checkWaits i form then .stall l else .trap form (wordOf i) false
  | .ok _ => .trap form (wordOf i) false

/-- The effect of an instruction under the causes it must ignore, for the default results of R226. See log 11. -/
def attempt (i : Instr) (ill opd : Bool) (vec : Bool) (body : M Unit) (s : State) : Except Stop State :=
  let nop : Except Stop State := .ok (if deferred i then s.modCtx s.issue.core s.issue.ctx (fun c => c.follow s.issue.addr c.eh.isEmpty) else s)
  if s.issue.ign.any (fun c => decide (c ≤ 4) || c == 16 || c == 17) then nop
  else match s.firstCause i ill opd with
    | some c => .error (if c = 1 ∨ !checksAtIssue i then .trap c (wordOf i) false else lowestOf i c (body.run s))
    | none =>
      match (do body; checkReads vec : M Unit).run s with
      | .ok (_, t) => .ok t
      | .error (.trap 1 _ _) => .error (.trap 1 (wordOf i) false)
      | .error (.trap 2 _ _) => .error (.trap 2 (wordOf i) false)
      | .error (.trap 3 _ _) => .error (.trap 3 (wordOf i) false)
      | .error (.trap c v p) => if s.issue.ign.contains c then nop else .error (.trap c v p)
      | .error e => .error e

/-- The half a trap reports: an encoding that is illegal at decode counts as EH (R173). -/
def State.trapHalf (s : State) (i : Instr) : Half := halfIn s.issue.himm i

/-- An instruction's outcome: its effect, a wait in its buffer, or a trap taken; a cause that containment ignores is
tried again with its default result. See log 11. -/
def settle (i : Instr) (ill opd vec : Bool) (body : M Unit) (s : State) (fuel : Nat) : State :=
  match attempt i ill opd vec body s with
  | .ok t => t.quiet
  | .error (.stall evs) =>
    ((s.modCtx s.issue.core s.issue.ctx (fun c => c.pushBack (s.slot i))).quiet).pend evs
  | .error (.trap cause tval committed) =>
    match s.takeTrap s.issue.core s.issue.ctx (some (s.slot i)) (s.trapHalf i) s.issue.first cause tval committed with
    | .done t => t.quiet
    | .ignored t =>
      match fuel with
      | 0 => t.quiet
      | n + 1 => settle i ill opd vec body { t with issue := { t.issue with ign := cause :: t.issue.ign } } n

/-- An instruction word with the conditions of illegal-instruction and illegal-operand that its entry adds. -/
def runWith (i : Instr) (ill opd vec : Bool) (body : M Unit) (s : State) : Host.Outcome State Fault Refusal :=
  .next (settle i ill opd vec body s 17)

/-- An instruction word outside the vector chapter. -/
def run (i : Instr) (ill opd : Bool) (body : M Unit) (s : State) : Host.Outcome State Fault Refusal := runWith i ill opd false body s
/-- An instruction word of the vector chapter. -/
def runV (i : Instr) (ill opd : Bool) (body : M Unit) (s : State) : Host.Outcome State Fault Refusal := runWith i ill opd true body s

/-- Raise illegal-operand found while the instruction issues. -/
def illegalOperand : M Unit := trapWith 2 0
/-- Raise illegal-instruction found while the instruction issues. -/
def illegalInstr : M Unit := trapWith 1 0
/-- A trap unless a condition holds; true when the cause is to be ignored, so that the effect is withheld (R226). -/
def withheld (p : Bool) (cause : Nat) (tval : W64) : M Bool := do
  if p then pure false
  else if ← ignoring cause then pure true
  else do trapWith cause tval; pure true
/-- A trap unless a condition holds. -/
def require (p : Bool) (cause : Nat) (tval : W64) : M Unit := if p then pure () else trapWith cause tval

end Sys2Proof.Machine
end

