-- ==== Sys2Proof/Machine/Access.lean ====
section
/-!
DEFINITION. Address arithmetic, branches, jumps and calls of the access half (08 R177-R186).
-/

namespace Sys2Proof.Machine

open Sys2Proof

/-- Bits of a width code (R167). -/
def widthOf (w : BitVec 2) : Nat := 8 * 2 ^ w.toNat

/-- The template of R180. -/
def ahAlu (i : Instr) (op : IntOp) (d a b : BitVec 6) (w : BitVec 2) (s : State) : Host.Outcome State Fault Refusal :=
  run i false (aBad d [a, b]) (do
    let x ← ahPop a
    let y ← ahPop b
    ahPush d (sext (widthOf w) (op.eval (widthOf w) x.toNat y.toNat))) s

/-- AADD (R180). -/
def execAadd (d a b : BitVec 6) (w : BitVec 2) (s : State) : Host.Outcome State Fault Refusal := ahAlu (.aadd d a b w) .add d a b w s
/-- ASUB (R180). -/
def execAsub (d a b : BitVec 6) (w : BitVec 2) (s : State) : Host.Outcome State Fault Refusal := ahAlu (.asub d a b w) .sub d a b w s
/-- AAND (R180). -/
def execAand (d a b : BitVec 6) (w : BitVec 2) (s : State) : Host.Outcome State Fault Refusal := ahAlu (.aand d a b w) .and d a b w s
/-- AORR (R180). -/
def execAorr (d a b : BitVec 6) (w : BitVec 2) (s : State) : Host.Outcome State Fault Refusal := ahAlu (.aorr d a b w) .or d a b w s
/-- AXOR (R180). -/
def execAxor (d a b : BitVec 6) (w : BitVec 2) (s : State) : Host.Outcome State Fault Refusal := ahAlu (.axor d a b w) .xor d a b w s
/-- ASHL (R180). -/
def execAshl (d a b : BitVec 6) (w : BitVec 2) (s : State) : Host.Outcome State Fault Refusal := ahAlu (.ashl d a b w) .shl d a b w s
/-- ASHR (R180). -/
def execAshr (d a b : BitVec 6) (w : BitVec 2) (s : State) : Host.Outcome State Fault Refusal := ahAlu (.ashr d a b w) .shr d a b w s
/-- ASAR (R180). -/
def execAsar (d a b : BitVec 6) (w : BitVec 2) (s : State) : Host.Outcome State Fault Refusal := ahAlu (.asar d a b w) .sar d a b w s
/-- AMUL (R180). -/
def execAmul (d a b : BitVec 6) (w : BitVec 2) (s : State) : Host.Outcome State Fault Refusal := ahAlu (.amul d a b w) .mul d a b w s
/-- AMIN (R180). -/
def execAmin (d a b : BitVec 6) (w : BitVec 2) (s : State) : Host.Outcome State Fault Refusal := ahAlu (.amin d a b w) .min d a b w s
/-- AMAX (R180). -/
def execAmax (d a b : BitVec 6) (w : BitVec 2) (s : State) : Host.Outcome State Fault Refusal := ahAlu (.amax d a b w) .max d a b w s
/-- AMINU (R180). -/
def execAminu (d a b : BitVec 6) (w : BitVec 2) (s : State) : Host.Outcome State Fault Refusal := ahAlu (.aminu d a b w) .minu d a b w s
/-- AMAXU (R180). -/
def execAmaxu (d a b : BitVec 6) (w : BitVec 2) (s : State) : Host.Outcome State Fault Refusal := ahAlu (.amaxu d a b w) .maxu d a b w s
/-- ASLT (R180). -/
def execAslt (d a b : BitVec 6) (w : BitVec 2) (s : State) : Host.Outcome State Fault Refusal := ahAlu (.aslt d a b w) .slt d a b w s
/-- ASLTU (R180). -/
def execAsltu (d a b : BitVec 6) (w : BitVec 2) (s : State) : Host.Outcome State Fault Refusal := ahAlu (.asltu d a b w) .sltu d a b w s

/-- AMAD (R180): the destination register is also a source; lq is no destination. -/
def execAmad (d a b : BitVec 6) (w : BitVec 2) (s : State) : Host.Outcome State Fault Refusal :=
  run (.amad d a b w) false (!xOrZero d || aBad d [a, b]) (do
    let c ← xget d
    let x ← ahPop a
    let y ← ahPop b
    let n := widthOf w
    ahPush d (sext n (c.toNat + IntOp.mul.eval n x.toNat y.toNat))) s

/-- The template of R181: a 64-bit source and the composed immediate. -/
def ahImm (i : Instr) (op : IntOp) (d a : BitVec 6) (im : BitVec 12) (s : State) : Host.Outcome State Fault Refusal :=
  run i false (aBad d [a]) (do
    let x ← ahPop a
    ahPush d (w64 (op.eval 64 x.toNat (wi (s.imm im)).toNat))) s

/-- AADDI (R181). -/
def execAaddi (d a : BitVec 6) (im : BitVec 12) (s : State) : Host.Outcome State Fault Refusal := ahImm (.aaddi d a im) .add d a im s
/-- AANDI (R181). -/
def execAandi (d a : BitVec 6) (im : BitVec 12) (s : State) : Host.Outcome State Fault Refusal := ahImm (.aandi d a im) .and d a im s
/-- ASHLI (R181). -/
def execAshli (d a : BitVec 6) (im : BitVec 12) (s : State) : Host.Outcome State Fault Refusal := ahImm (.ashli d a im) .shl d a im s
/-- ASHRI (R181). -/
def execAshri (d a : BitVec 6) (im : BitVec 12) (s : State) : Host.Outcome State Fault Refusal := ahImm (.ashri d a im) .shr d a im s
/-- ASARI (R181). -/
def execAsari (d a : BitVec 6) (im : BitVec 12) (s : State) : Host.Outcome State Fault Refusal := ahImm (.asari d a im) .sar d a im s

/-- ALI (R182). -/
def execAli (d : BitVec 6) (im : BitVec 18) (s : State) : Host.Outcome State Fault Refusal :=
  run (.ali d im) false (!ahDst d) (ahPush d (wi (s.imm im))) s

/-- The upper half of a register replaced by the low 32 bits of an immediate (R182, R208). -/
def upper (old v : W64) : W64 := w64 (bf v 0 32 * 2 ^ 32 + bf old 0 32)

/-- ALUI (R182). -/
def execAlui (d : BitVec 6) (im : BitVec 18) (s : State) : Host.Outcome State Fault Refusal :=
  run (.alui d im) false (!xOrZero d) (do xset d (upper (← xget d) (wi (s.imm im)))) s

/-! ### Branches (R183, R184) -/

/-- The target of a branch: the branch's own address plus 4·i. -/
def State.target (s : State) (o : BitVec n) : W64 := s.issue.addr + wi (4 * s.imm o)

/-- The issuing branch taken or not. -/
def branch (taken : Bool) (target : W64) : M Unit := if taken then jump target else fallThrough

/-- The template of R183. -/
def ahBranch (i : Instr) (p : W64 → W64 → Bool) (a b : BitVec 6) (o : BitVec 12) (s : State) : Host.Outcome State Fault Refusal :=
  run i false (!ahSrc a || !ahSrc b) (do
    let x ← ahPop a
    let y ← ahPop b
    branch (p (x.setWidth 64) (y.setWidth 64)) (s.target o)) s

/-- ABEQ (R183). -/
def execAbeq (a b : BitVec 6) (o : BitVec 12) (s : State) : Host.Outcome State Fault Refusal := ahBranch (.abeq a b o) (fun x y => x == y) a b o s
/-- ABNE (R183). -/
def execAbne (a b : BitVec 6) (o : BitVec 12) (s : State) : Host.Outcome State Fault Refusal := ahBranch (.abne a b o) (fun x y => x != y) a b o s
/-- ABLT (R183). -/
def execAblt (a b : BitVec 6) (o : BitVec 12) (s : State) : Host.Outcome State Fault Refusal := ahBranch (.ablt a b o) (fun x y => x.slt y) a b o s
/-- ABGE (R183). -/
def execAbge (a b : BitVec 6) (o : BitVec 12) (s : State) : Host.Outcome State Fault Refusal := ahBranch (.abge a b o) (fun x y => !x.slt y) a b o s
/-- ABLTU (R183). -/
def execAbltu (a b : BitVec 6) (o : BitVec 12) (s : State) : Host.Outcome State Fault Refusal := ahBranch (.abltu a b o) (fun x y => x.ult y) a b o s
/-- ABGEU (R183). -/
def execAbgeu (a b : BitVec 6) (o : BitVec 12) (s : State) : Host.Outcome State Fault Refusal := ahBranch (.abgeu a b o) (fun x y => !x.ult y) a b o s

/-- ABQ (R184): the head of the branch queue decides. -/
def execAbq (sense : BitVec 1) (o : BitVec 12) (s : State) : Host.Outcome State Fault Refusal :=
  run (.abq sense o) false false (do
    match (← getCtx).bq with
    | [] => stall
    | p :: r => do
      modCtx (fun c => { c with bq := r })
      branch (p == (sense == 1)) (s.target o)) s

/-! ### Jumps and calls (R185) -/

/-- A target with bits [1:0] taken as zero. -/
def aligned4 (w : W64) : W64 := w64 (alignTo 4 w.toNat)

/-- AJMP (R185). -/
def execAjmp (im : BitVec 24) (s : State) : Host.Outcome State Fault Refusal := run (.ajmp im) false false (jump (s.target im)) s

/-- ACALL (R185). -/
def execAcall (im : BitVec 24) (s : State) : Host.Outcome State Fault Refusal :=
  run (.acall im) false false (do xset 31 (s.issue.addr + 4); jump (s.target im)) s

/-- ARET (R185). -/
def execAret (s : State) : Host.Outcome State Fault Refusal := run .aret false false (do jump (aligned4 (← xget 31))) s

/-- AJR (R185): the base is read before the link is written. -/
def execAjr (d a : BitVec 6) (im : BitVec 12) (s : State) : Host.Outcome State Fault Refusal :=
  run (.ajr d a im) false (!xOnly d || !xOnly a) (do
    let t := (← xget a) + wi (s.imm im)
    xset d (s.issue.addr + 4)
    jump (aligned4 t)) s

end Sys2Proof.Machine
end

