-- ==== Sys2Proof/Machine/Numbers.lean ====
section
/-!
DEFINITION. Number formats, exact values and rounding (06 R125-R139). Every result is one exact real number, a
rational or a rational plus one square root, rounded once.
-/

namespace Sys2Proof.Machine

open Sys2Proof

/-! ### Exact numbers -/

/-- A rational number. -/
structure Q where
  n : Int
  d : Nat
  deriving DecidableEq, Repr

/-- An integer as a rational. -/
def Q.ofInt (i : Int) : Q := ⟨i, 1⟩
/-- m·2^e. -/
def Q.dyadic (m : Int) (e : Int) : Q := if 0 ≤ e then ⟨m * (2 ^ e.toNat : Nat), 1⟩ else ⟨m, 2 ^ (-e).toNat⟩
def Q.add (a b : Q) : Q := ⟨a.n * b.d + b.n * a.d, a.d * b.d⟩
def Q.mul (a b : Q) : Q := ⟨a.n * b.n, a.d * b.d⟩
def Q.neg (a : Q) : Q := ⟨-a.n, a.d⟩
def Q.sub (a b : Q) : Q := a.add b.neg
/-- Quotient by a non-zero number. -/
def Q.div (a b : Q) : Q := ⟨a.n * b.d * (if b.n < 0 then -1 else 1), a.d * b.n.natAbs⟩
def Q.isZero (a : Q) : Bool := a.n == 0
def Q.isNeg (a : Q) : Bool := decide (a.n < 0)
def Q.le (a b : Q) : Bool := decide (a.n * b.d ≤ b.n * a.d)
def Q.lt (a b : Q) : Bool := decide (a.n * b.d < b.n * a.d)
def Q.eq (a b : Q) : Bool := decide (a.n * b.d = b.n * a.d)
def Q.abs (a : Q) : Q := ⟨a.n.natAbs, a.d⟩
/-- floor. -/
def Q.floor (a : Q) : Int := a.n / (a.d : Int)
/-- The nearest integer, ties to even. -/
def Q.nearest (a : Q) : Int :=
  let f := a.floor
  let r := (a.n - f * a.d) * 2
  if r < a.d then f else if (a.d : Int) < r then f + 1 else if f % 2 = 0 then f else f + 1

/-- Newton's iteration for the integer square root, from above. -/
def sqrtLoop (n r fuel : Nat) : Nat :=
  match fuel with
  | 0 => r
  | k + 1 => let t := (r + n / r) / 2; if t < r then sqrtLoop n t k else r

/-- floor of the square root. -/
def isqrt (n : Nat) : Nat := if n = 0 then 0 else sqrtLoop n (2 ^ (Nat.log2 n / 2 + 1)) 4096

/-- A real number (a + s·√n)/d with s one of −1, 0 and 1. -/
structure Exact where
  a : Int
  s : Int := 0
  n : Nat := 0
  d : Nat := 1
  deriving DecidableEq, Repr

def Exact.ofQ (q : Q) : Exact := { a := q.n, d := q.d }
def Exact.neg (x : Exact) : Exact := { x with a := -x.a, s := -x.s }

/-- floor(x·2^k), and whether x·2^k is that integer. -/
def Exact.floorAt (x : Exact) (k : Int) : Int × Bool :=
  let up := if 0 ≤ k then 2 ^ k.toNat else 1
  let d : Nat := if 0 ≤ k then x.d else x.d * 2 ^ (-k).toNat
  let n := x.n * up * up
  let r := isqrt n
  let a := x.a * (up : Nat)
  let exact := r * r == n
  let top : Int := if x.s = 0 then a else if 0 < x.s then a + r else if exact then a - r else a - r - 1
  (top / (d : Int), (x.s == 0 || exact) && top % (d : Int) == 0)

def Exact.isNeg (x : Exact) : Bool := decide ((x.floorAt 0).1 < 0)
def Exact.isZero (x : Exact) : Bool := let f := x.floorAt 0; f.1 == 0 && f.2

/-! ### Formats -/

/-- The floating formats of R125 and binary64 (R35). -/
inductive Fmt where
  | f32 | f16 | bf16 | e5m2 | e4m3 | e2m1 | e3m5 | f64
  deriving DecidableEq, Repr

def Fmt.width : Fmt → Nat
  | .f32 => 32 | .f16 => 16 | .bf16 => 16 | .e5m2 => 8 | .e4m3 => 8 | .e2m1 => 4 | .e3m5 => 8 | .f64 => 64
def Fmt.mbits : Fmt → Nat
  | .f32 => 23 | .f16 => 10 | .bf16 => 7 | .e5m2 => 2 | .e4m3 => 3 | .e2m1 => 1 | .e3m5 => 5 | .f64 => 52
def Fmt.ebits : Fmt → Nat
  | .f32 => 8 | .f16 => 5 | .bf16 => 8 | .e5m2 => 5 | .e4m3 => 4 | .e2m1 => 2 | .e3m5 => 3 | .f64 => 11
def Fmt.bias : Fmt → Nat
  | .f32 => 127 | .f16 => 15 | .bf16 => 127 | .e5m2 => 15 | .e4m3 => 7 | .e2m1 => 1 | .e3m5 => 4 | .f64 => 1023
/-- The format has infinities. -/
def Fmt.ieee : Fmt → Bool
  | .f32 => true | .f16 => true | .bf16 => true | .e5m2 => true | .f64 => true | _ => false
def Fmt.signed : Fmt → Bool
  | .e3m5 => false
  | _ => true
/-- The formats that the alternate numerics mode changes (R128). -/
def Fmt.narrow : Fmt → Bool
  | .e5m2 => true | .e4m3 => true | .e2m1 => true | .e3m5 => true | _ => false
/-- The code of the largest finite magnitude. -/
def Fmt.maxCode (f : Fmt) : Nat :=
  match f with
  | .e4m3 => 0x7E
  | .e2m1 => 7
  | .e3m5 => 0xFF
  | f => (2 ^ f.ebits - 1) * 2 ^ f.mbits - 1
/-- The exponent of the largest binade. -/
def Fmt.emax (f : Fmt) : Int := (f.maxCode / 2 ^ f.mbits : Nat) - (f.bias : Int)
/-- The exponent of the smallest normal. -/
def Fmt.emin (f : Fmt) : Int := 1 - (f.bias : Int)
/-- The sign bit's weight. -/
def Fmt.signBit (f : Fmt) : Nat := if f.signed then 2 ^ (f.width - 1) else 0
/-- The canonical NaN (R130). -/
def Fmt.nan : Fmt → Nat
  | .f32 => 0x7FC00000 | .f16 => 0x7E00 | .bf16 => 0x7FC0 | .e5m2 => 0x7E | .e4m3 => 0x7F | .f64 => 0x7FF8000000000000
  | _ => 0
/-- The code of +∞. -/
def Fmt.inf (f : Fmt) : Nat := (2 ^ f.ebits - 1) * 2 ^ f.mbits

/-- A decoded value. -/
inductive Fp where
  | nan (signalling : Bool)
  | inf (neg : Bool)
  | fin (neg : Bool) (mag : Q)
  deriving DecidableEq, Repr

/-- The value of a code (R125-R127); anm selects the alternate numerics mode. -/
def decodeFp (anm : Bool) (f : Fmt) (code : Nat) : Fp :=
  let c := code % 2 ^ f.width
  let neg := f.signed && c.testBit (f.width - 1)
  let m := c % 2 ^ f.mbits
  let e := c / 2 ^ f.mbits % 2 ^ f.ebits
  if f.ieee ∧ e = 2 ^ f.ebits - 1 then (if m = 0 then .inf neg else .nan (!m.testBit (f.mbits - 1)))
  else if f = .e4m3 ∧ e = 15 ∧ m = 7 then .nan false
  else if e = 0 then
    if anm ∧ f.narrow ∧ m ≠ 0 then .fin neg (Q.dyadic (2 ^ f.mbits + m : Nat) (-(f.bias : Int) - f.mbits))
    else .fin neg (Q.dyadic m (1 - (f.bias : Int) - f.mbits))
  else .fin neg (Q.dyadic (2 ^ f.mbits + m : Nat) ((e : Int) - f.bias - f.mbits))

def Fp.isNan : Fp → Bool | .nan _ => true | _ => false
def Fp.isInf : Fp → Bool | .inf _ => true | _ => false
def Fp.isZero : Fp → Bool | .fin _ m => m.isZero | _ => false
def Fp.neg : Fp → Bool | .nan _ => false | .inf n => n | .fin n _ => n
def Fp.signalling : Fp → Bool | .nan s => s | _ => false
/-- NaN or infinity. -/
def Fp.special (x : Fp) : Bool := x.isNan || x.isInf
/-- The signed value of a finite number. -/
def Fp.val : Fp → Q
  | .fin n m => if n then m.neg else m
  | _ => ⟨0, 1⟩
def Fp.negate : Fp → Fp
  | .nan s => .nan s
  | .inf n => .inf (!n)
  | .fin n m => .fin (!n) m

/-! ### Flags (R131): bit numbers of FCSR as weights -/

def NV : Nat := 1
def DZ : Nat := 2
def OF : Nat := 4
def UF : Nat := 8
def NX : Nat := 16
def NF : Nat := 32
def IDZ : Nat := 64

/-- A flag if a condition holds. -/
def flagIf (p : Bool) (f : Nat) : Nat := if p then f else 0

/-! ### Rounding (R132, R133) -/

inductive Mode where
  | rne | rz | ru | rd | rna
  /-- RSR with its 32 random bits (R134) -/
  | rsr (rb : Nat)
  deriving DecidableEq, Repr

/-- A result before rounding. -/
inductive Res where
  | nan
  | inf (neg : Bool)
  | zero (neg : Bool)
  /-- a non-zero real -/
  | real (x : Exact)
  deriving DecidableEq, Repr

/-- A result and the flags its special cases set. -/
structure Val where
  r : Res
  fl : Nat := 0
  deriving DecidableEq, Repr

/-- Whether a magnitude with integer part q, in units of the last place, and fraction f/2^32 (sticky: more beyond) goes
up in magnitude. -/
def roundsUp (mode : Mode) (neg : Bool) (q f : Nat) (sticky : Bool) : Bool :=
  let half := 2 ^ 31
  match mode with
  | .rne => decide (half < f) || (f == half && (sticky || q % 2 == 1))
  | .rz => false
  | .ru => !neg && (f != 0 || sticky)
  | .rd => neg && (f != 0 || sticky)
  | .rna => decide (half ≤ f)
  | .rsr rb =>
    if neg then !decide (f < 2 ^ 32 - rb) && (f != 0 || sticky)
    else decide (rb < f) || (f == rb && sticky)

/-- A positive real rounded to integer units of 2^lsb. -/
def roundUnits (x : Exact) (neg : Bool) (mode : Mode) (lsb : Int) : Nat × Bool :=
  let w := x.floorAt (32 - lsb)
  let q := w.1.toNat / 2 ^ 32
  let f := w.1.toNat % 2 ^ 32
  (q + b2n (roundsUp mode neg q f (!w.2)), f == 0 && w.2)

/-- The exponent of the last place of a positive real with p fraction bits and no exponent below e. -/
def lsbOf (x : Exact) (p : Nat) (e : Int) : Int :=
  let q := (x.floorAt (p - e)).1.toNat
  let l := if q = 0 then 0 else Nat.log2 q + 1
  e - p + (l - (p + 1) : Nat)

/-- The overflow result of a format (R133). -/
def overflowCode (f : Fmt) (mode : Mode) (neg : Bool) : Nat :=
  let toMax := match mode with
    | .rz => true
    | .ru => neg
    | .rd => !neg
    | _ => false
  (if f.ieee && !toMax then f.inf else f.maxCode) + (if neg then f.signBit else 0)

/-- The code of a significand sig in units of 2^lsb. -/
def packFp (f : Fmt) (neg : Bool) (sig : Nat) (lsb : Int) : Nat :=
  let s := if neg then f.signBit else 0
  if sig < 2 ^ f.mbits then s + sig
  else
    let (sig, lsb) := if sig = 2 ^ (f.mbits + 1) then (2 ^ f.mbits, lsb + 1) else (sig, lsb)
    s + (lsb + f.mbits + f.bias).toNat * 2 ^ f.mbits + (sig - 2 ^ f.mbits)

/-- Tiny after rounding: with the exponent unbounded, the result would lie below the smallest normal. -/
def tiny (f : Fmt) (x : Exact) (neg : Bool) (mode : Mode) : Bool :=
  let l := lsbOf x f.mbits (f.emin - 1)
  decide (l < f.emin - f.mbits) && decide ((roundUnits x neg mode (f.emin - 1 - f.mbits)).1 < 2 ^ (f.mbits + 1))

/-- Round of a positive real with a sign (R133), outside the alternate numerics mode. -/
def roundReal (f : Fmt) (mode : Mode) (neg : Bool) (x : Exact) : Nat × Nat :=
  let l := lsbOf x f.mbits f.emin
  let top := f.emax - f.mbits
  let lsb := if l ≤ top then l else top
  let (sig, exact) := roundUnits x neg mode lsb
  let maxSig := 2 ^ f.mbits + f.maxCode % 2 ^ f.mbits
  if lsb = top ∧ maxSig < sig then (overflowCode f mode neg, OF + NX)
  else (packFp f neg sig lsb, if exact then 0 else NX + flagIf (tiny f x neg mode) UF)

/-- Round in the alternate numerics mode: zero and the normals, whose lowest binade is one lower and lacks its first
code (R126-R128). DESIGN CHOICE: only a result that becomes zero counts as tiny. See log 50. -/
def roundAnm (f : Fmt) (mode : Mode) (neg : Bool) (x : Exact) : Nat × Nat :=
  let unit := -(f.bias : Int) - f.mbits
  let least := 2 ^ f.mbits + 1
  let s := if neg then f.signBit else 0
  let w := x.floorAt (32 - unit)
  if w.1.toNat < least * 2 ^ 32 then
    let frac := w.1.toNat / least
    let sticky := !w.2 || w.1.toNat % least != 0
    let half := 2 ^ 31
    let up := match mode with
      | .rne => decide (half < frac) || (frac == half && sticky)
      | m => roundsUp m neg 0 frac sticky
    (if up then s + 1 else s, NX + flagIf (!up) UF)
  else
    let l := lsbOf x f.mbits (-(f.bias : Int))
    let top := f.emax - f.mbits
    let lsb := if l ≤ top then l else top
    let (sig, exact) := roundUnits x neg mode lsb
    let maxSig := 2 ^ f.mbits + f.maxCode % 2 ^ f.mbits
    if lsb = top ∧ maxSig < sig then (overflowCode f mode neg, OF + NX)
    else
      let code := if lsb = unit ∧ sig < 2 ^ (f.mbits + 1) then s + (sig - 2 ^ f.mbits) else packFp f neg sig lsb
      (code, if exact then 0 else NX)

/-- A result rounded to a format: its code and flags, NF apart (R130, R133). -/
def roundVal (anm : Bool) (f : Fmt) (mode : Mode) (v : Val) : Nat × Nat :=
  match v.r with
  | .nan => (f.nan, v.fl)
  | .inf neg => ((if f.ieee then f.inf else f.maxCode) + (if neg then f.signBit else 0), v.fl)
  | .zero neg => (if neg then f.signBit else 0, v.fl)
  | .real x =>
    let neg := x.isNeg
    let m := if neg then x.neg else x
    let r := if anm && f.narrow then roundAnm f mode neg m else roundReal f mode neg m
    (r.1, v.fl ||| r.2)

/-- A rational as a result; zero takes the given sign. -/
def resQ (q : Q) (negZero : Bool) : Res := if q.isZero then .zero negZero else .real (.ofQ q)

/-! ### Sums and products (R130, R137) -/

/-- A term of an exact sum. -/
inductive Term where
  | nan
  | inf (neg : Bool)
  | fin (neg : Bool) (mag : Q)
  deriving DecidableEq, Repr

def Fp.term : Fp → Term
  | .nan _ => .nan
  | .inf n => .inf n
  | .fin n m => .fin n m

/-- A product, with NV for ∞·0 and for signalling inputs. -/
def mulTerm (a b : Fp) : Term × Nat :=
  let sig := flagIf (a.signalling || b.signalling) NV
  if a.isNan || b.isNan then (.nan, sig)
  else if a.isInf || b.isInf then
    if a.isZero || b.isZero then (.nan, NV) else (.inf (a.neg != b.neg), sig)
  else match a, b with
    | .fin x m, .fin y n => (.fin (x != y) (m.mul n), sig)
    | _, _ => (.nan, sig)

/-- The exact sum of terms with the zero rules of R137; rd: the mode rounds down. -/
def sumTerms (ts : List Term) (rd : Bool) : Val :=
  let pinf := ts.any (fun t => t == .inf false)
  let ninf := ts.any (fun t => t == .inf true)
  if ts.any (fun t => t == .nan) then { r := .nan }
  else if pinf && ninf then { r := .nan, fl := NV }
  else if pinf then { r := .inf false }
  else if ninf then { r := .inf true }
  else
    let q := ts.foldl (fun q t => match t with | .fin n m => q.add (if n then m.neg else m) | _ => q) ⟨0, 1⟩
    if !q.isZero then { r := .real (.ofQ q) }
    else
      let allNeg := ts.all (fun t => match t with | .fin n m => n && m.isZero | _ => false)
      let allPos := ts.all (fun t => match t with | .fin n m => !n && m.isZero | _ => false)
      { r := .zero (if allNeg then true else if allPos then false else rd) }

def Mode.isRd : Mode → Bool | .rd => true | _ => false

/-- The flags of reading operands: NV for signalling NaNs. -/
def readFlags (l : List Fp) : Nat := flagIf (l.any Fp.signalling) NV

def fpAdd (a b : Fp) (m : Mode) : Val :=
  let v := sumTerms [a.term, b.term] m.isRd
  { v with fl := v.fl ||| readFlags [a, b] }
def fpMul (a b : Fp) : Val :=
  let t := mulTerm a b
  match t.1 with
  | .nan => { r := .nan, fl := t.2 }
  | .inf n => { r := .inf n, fl := t.2 }
  | .fin n q => { r := resQ (if n then q.neg else q) n, fl := t.2 }
/-- a·b + c rounded once; ∞·0 is invalid whatever c is. -/
def fpFma (a b c : Fp) (m : Mode) : Val :=
  let t := mulTerm a b
  let v := sumTerms [t.1, c.term] m.isRd
  { v with fl := v.fl ||| t.2 ||| readFlags [c] }
/-- Quotient with the IEEE 754-2019 rules. -/
def fpDiv (a b : Fp) : Val :=
  let fl := readFlags [a, b]
  if a.isNan || b.isNan then { r := .nan, fl := fl }
  else if a.isInf then (if b.isInf then { r := .nan, fl := NV } else { r := .inf (a.neg != b.neg), fl := fl })
  else if b.isInf then { r := .zero (a.neg != b.neg), fl := fl }
  else if b.isZero then
    if a.isZero then { r := .nan, fl := NV } else { r := .inf (a.neg != b.neg), fl := fl ||| DZ }
  else { r := resQ (a.val.div b.val) (a.neg != b.neg), fl := fl }

/-- Order of two numbers that are no NaN. -/
def fpLt (a b : Fp) : Bool :=
  match a, b with
  | .inf n, .inf m => n && !m
  | .inf n, _ => n
  | _, .inf m => !m
  | x, y => x.val.lt y.val
def fpEq (a b : Fp) : Bool :=
  match a, b with
  | .inf n, .inf m => n == m
  | .inf _, _ => false
  | _, .inf _ => false
  | x, y => x.val.eq y.val

/-- minimumNumber and maximumNumber (R139): which operand, none for the canonical NaN. -/
def pickNumber (max : Bool) (a b : Fp) : Option Bool :=
  if a.isNan then (if b.isNan then none else some true)
  else if b.isNan then some false
  else
    let less := fpLt a b || (fpEq a b && a.neg && !b.neg)
    let more := fpLt b a || (fpEq a b && b.neg && !a.neg)
    if max then some less else some more

/-! ### Conversions (R135) -/

/-- A value converted to a floating format. DESIGN CHOICE: a negative value gives 0 with NV in the unsigned e3m5. See log 50. -/
def convertFp (anm : Bool) (dst : Fmt) (mode : Mode) (v : Val) (sig : Bool) : Nat × Nat :=
  let fl := v.fl ||| flagIf sig NV
  match dst, v.r with
  | .e4m3, .inf n => (0x7E + (if n then 0x80 else 0), fl ||| NV)
  | .e2m1, .inf n => (7 + (if n then 8 else 0), fl ||| NV)
  | .e2m1, .nan => (0, fl ||| NV)
  | .e3m5, .nan => (0, fl ||| NV)
  | .e3m5, .inf n => (if n then 0 else 0xFF, fl ||| NV)
  | .e3m5, .zero _ => (0, fl)
  | .e3m5, .real x => if x.isNeg then (0, fl ||| NV) else roundVal anm .e3m5 mode { r := .real x, fl := fl }
  | f, r => roundVal anm f mode { r := r, fl := fl }

/-- A decoded value as a result. -/
def Fp.res : Fp → Res
  | .nan _ => .nan
  | .inf n => .inf n
  | .fin n m => resQ (if n then m.neg else m) n

/-- An exact result rounded to an integer. -/
def roundInt (mode : Mode) (r : Exact) : Int × Bool :=
  let neg := r.isNeg
  let m := if neg then r.neg else r
  let u := roundUnits m neg mode 0
  (if neg then -(u.1 : Int) else u.1, u.2)

/-- A value converted to an integer of n bits: its bits and flags (R135). -/
def convertInt (n : Nat) (signed : Bool) (mode : Mode) (x : Fp) : Nat × Nat :=
  let lo : Int := if signed then -(2 ^ (n - 1) : Nat) else 0
  let hi : Int := if signed then (2 ^ (n - 1) : Nat) - 1 else (2 ^ n : Nat) - 1
  match x with
  | .nan _ => (0, NV)
  | .inf neg => (wrap n (if neg then lo else hi), NV)
  | .fin neg m =>
    let r := roundInt mode (.ofQ (if neg then m.neg else m))
    if r.1 < lo then (wrap n lo, NV)
    else if hi < r.1 then (wrap n hi, NV)
    else (wrap n r.1, flagIf (!r.2) NX)

/-- The RSR hash of R134. -/
def rsrBits (ssn : BitVec 48) (gcid ctx : Nat) (ia : W64) (elem : Nat) (override : Option Nat) : Nat :=
  let k1 := 0xD1B54A32D192ED03
  let k2 := 0xAEF17502108EF2D9
  let key := ssn.toNat * 2 ^ 16 + elem % 2 ^ 16
  let low := bf ia 2 34
  let seed := match override with
    | some v => v * 2 ^ 34 + low
    | none => (gcid % 2 ^ 25) * 2 ^ 37 + (ctx % 8) * 2 ^ 34 + low
  let z := (key ^^^ seed) % 2 ^ 64
  let z := z * k1 % 2 ^ 64
  let z := z ^^^ (z >>> 31)
  let z := z * k2 % 2 ^ 64
  let z := z ^^^ (z >>> 31)
  z / 2 ^ 32

end Sys2Proof.Machine
end

