-- ==== Sys2Proof/Machine/Flags.lean ====
section
/-!
DEFINITION. FCSR (06 R131): the sticky flags, the dynamic rounding mode, and the rounding mode an instruction uses,
with the random bits of RSR (R132, R134).
-/

namespace Sys2Proof.Machine

open Sys2Proof

/-- The flags of an instruction are added to FCSR (R131). -/
def setFlags (fl : Nat) : M Unit := modCtx (fun c => { c with fcsr := c.fcsr ||| w64 (fl % 128) })

/-- The dynamic rounding code FCSR.RM. -/
def Ctx.rm (c : Ctx) : Nat := bf c.fcsr 8 3

/-- The numerics mode of the issuing core (R128). -/
def State.anm (s : State) : Bool := (s.core s.issue.core).anm

/-- The random bits of RSR for a result element (R134). -/
def State.rb (s : State) (elem : Nat) : Nat :=
  let ssn := match s.domOf s.issue.core with | some d => d.ssn | none => 0
  rsrBits ssn (s.gcid s.issue.core) s.issue.ctx s.issue.addr elem s.seedOverride

/-- The rounding mode of a code for a result element; 7 takes FCSR.RM (R132). -/
def State.mode (s : State) (code elem : Nat) : Mode :=
  let c := if code = 7 then (s.ctx s.issue.core s.issue.ctx).rm else code
  match c with
  | 0 => .rne
  | 1 => .rz
  | 2 => .ru
  | 3 => .rd
  | 4 => .rna
  | _ => .rsr (s.rb elem)

/-- NF for operands read and a result code written (R131). -/
def nfOf (reads : List Fp) (f : Fmt) (code : Nat) : Nat :=
  flagIf (reads.any Fp.special || (decodeFp false f code).special) NF

end Sys2Proof.Machine
end

