-- ==== Sys2Proof/Machine/Scalar.lean ====
section
/-!
DEFINITION. Scalar integer instructions of the execute half and its branches (09 R206-R208, R213-R215, R233).
-/

namespace Sys2Proof.Machine

open Sys2Proof

/-- The template of R206. -/
def ehAlu (i : Instr) (op : IntOp) (d a b : BitVec 6) (w : BitVec 2) (s : State) : Host.Outcome State Fault Refusal :=
  run i false (s.gBad d [a, b]) (do
    let x ← gPop a
    let y ← gPop b
    gPush d (Machine.sext (widthOf w) (op.eval (widthOf w) x.toNat y.toNat))) s

/-- ADD (R206). -/
def execAdd (d a b : BitVec 6) (w : BitVec 2) (s : State) : Host.Outcome State Fault Refusal := ehAlu (.add d a b w) .add d a b w s
/-- SUB (R206). -/
def execSub (d a b : BitVec 6) (w : BitVec 2) (s : State) : Host.Outcome State Fault Refusal := ehAlu (.sub d a b w) .sub d a b w s
/-- MUL (R206). -/
def execMul (d a b : BitVec 6) (w : BitVec 2) (s : State) : Host.Outcome State Fault Refusal := ehAlu (.mul d a b w) .mul d a b w s
/-- MULH (R206). -/
def execMulh (d a b : BitVec 6) (w : BitVec 2) (s : State) : Host.Outcome State Fault Refusal := ehAlu (.mulh d a b w) .mulh d a b w s
/-- MULHU (R206). -/
def execMulhu (d a b : BitVec 6) (w : BitVec 2) (s : State) : Host.Outcome State Fault Refusal := ehAlu (.mulhu d a b w) .mulhu d a b w s
/-- AND (R206). -/
def execAnd (d a b : BitVec 6) (w : BitVec 2) (s : State) : Host.Outcome State Fault Refusal := ehAlu (.and d a b w) .and d a b w s
/-- OR (R206). -/
def execOr (d a b : BitVec 6) (w : BitVec 2) (s : State) : Host.Outcome State Fault Refusal := ehAlu (.or d a b w) .or d a b w s
/-- XOR (R206). -/
def execXor (d a b : BitVec 6) (w : BitVec 2) (s : State) : Host.Outcome State Fault Refusal := ehAlu (.xor d a b w) .xor d a b w s
/-- SHL (R206). -/
def execShl (d a b : BitVec 6) (w : BitVec 2) (s : State) : Host.Outcome State Fault Refusal := ehAlu (.shl d a b w) .shl d a b w s
/-- SHR (R206). -/
def execShr (d a b : BitVec 6) (w : BitVec 2) (s : State) : Host.Outcome State Fault Refusal := ehAlu (.shr d a b w) .shr d a b w s
/-- SAR (R206). -/
def execSar (d a b : BitVec 6) (w : BitVec 2) (s : State) : Host.Outcome State Fault Refusal := ehAlu (.sar d a b w) .sar d a b w s
/-- MIN (R206). -/
def execMin (d a b : BitVec 6) (w : BitVec 2) (s : State) : Host.Outcome State Fault Refusal := ehAlu (.min d a b w) .min d a b w s
/-- MAX (R206). -/
def execMax (d a b : BitVec 6) (w : BitVec 2) (s : State) : Host.Outcome State Fault Refusal := ehAlu (.max d a b w) .max d a b w s
/-- MINU (R206). -/
def execMinu (d a b : BitVec 6) (w : BitVec 2) (s : State) : Host.Outcome State Fault Refusal := ehAlu (.minu d a b w) .minu d a b w s
/-- MAXU (R206). -/
def execMaxu (d a b : BitVec 6) (w : BitVec 2) (s : State) : Host.Outcome State Fault Refusal := ehAlu (.maxu d a b w) .maxu d a b w s
/-- SLT (R206). -/
def execSlt (d a b : BitVec 6) (w : BitVec 2) (s : State) : Host.Outcome State Fault Refusal := ehAlu (.slt d a b w) .slt d a b w s
/-- SLTU (R206). -/
def execSltu (d a b : BitVec 6) (w : BitVec 2) (s : State) : Host.Outcome State Fault Refusal := ehAlu (.sltu d a b w) .sltu d a b w s
/-- SEQ (R206). -/
def execSeq (d a b : BitVec 6) (w : BitVec 2) (s : State) : Host.Outcome State Fault Refusal := ehAlu (.seq d a b w) .seq d a b w s

/-- The division template of R206 and R124: a zero divisor sets IDZ. -/
def ehDiv (i : Instr) (signed remainder : Bool) (d a b : BitVec 6) (w : BitVec 2) (s : State) : Host.Outcome State Fault Refusal :=
  run i false (s.gBad d [a, b]) (do
    let x ← gPop a
    let y ← gPop b
    let r := divide signed (widthOf w) x.toNat y.toNat
    setFlags (flagIf r.2.2 IDZ)
    gPush d (Machine.sext (widthOf w) (if remainder then r.2.1 else r.1))) s

/-- DIV (R206). -/
def execDiv (d a b : BitVec 6) (w : BitVec 2) (s : State) : Host.Outcome State Fault Refusal := ehDiv (.div d a b w) true false d a b w s
/-- DIVU (R206). -/
def execDivu (d a b : BitVec 6) (w : BitVec 2) (s : State) : Host.Outcome State Fault Refusal := ehDiv (.divu d a b w) false false d a b w s
/-- REM (R206). -/
def execRem (d a b : BitVec 6) (w : BitVec 2) (s : State) : Host.Outcome State Fault Refusal := ehDiv (.rem d a b w) true true d a b w s
/-- REMU (R206). -/
def execRemu (d a b : BitVec 6) (w : BitVec 2) (s : State) : Host.Outcome State Fault Refusal := ehDiv (.remu d a b w) false true d a b w s

/-- SEL (R206): all 64 bits of the destination register choose. -/
def execSel (d a b : BitVec 6) (w : BitVec 2) (s : State) : Host.Outcome State Fault Refusal :=
  run (.sel d a b w) false (!gOnly d || s.gBad d [a, b]) (do
    let c ← gPop d
    let x ← gPop a
    let y ← gPop b
    gPush d (Machine.sext (widthOf w) (if c ≠ 0 then x else y).toNat)) s

/-- The one-source template of R206. -/
def ehUnary (i : Instr) (f : Nat → Nat → Nat) (d a : BitVec 6) (w : BitVec 2) (s : State) : Host.Outcome State Fault Refusal :=
  run i false (s.gBad d [a]) (do
    let x ← gPop a
    gPush d (Machine.sext (widthOf w) (f (widthOf w) x.toNat))) s

/-- CLZ (R206). -/
def execClz (d a : BitVec 6) (w : BitVec 2) (s : State) : Host.Outcome State Fault Refusal := ehUnary (.clz d a w) leadingZeros d a w s
/-- POPC (R206). -/
def execPopc (d a : BitVec 6) (w : BitVec 2) (s : State) : Host.Outcome State Fault Refusal := ehUnary (.popc d a w) popCount d a w s
/-- SEXT (R206). -/
def execSext (d a : BitVec 6) (w : BitVec 2) (s : State) : Host.Outcome State Fault Refusal := ehUnary (.sext d a w) (fun _ v => v) d a w s

/-- The template of R207. -/
def ehImm (i : Instr) (op : IntOp) (d a : BitVec 6) (im : BitVec 12) (s : State) : Host.Outcome State Fault Refusal :=
  run i false (s.gBad d [a]) (do
    let x ← gPop a
    gPush d (w64 (op.eval 64 x.toNat (wi (s.imm im)).toNat))) s

/-- ADDI (R207). -/
def execAddi (d a : BitVec 6) (im : BitVec 12) (s : State) : Host.Outcome State Fault Refusal := ehImm (.addi d a im) .add d a im s
/-- ANDI (R207). -/
def execAndi (d a : BitVec 6) (im : BitVec 12) (s : State) : Host.Outcome State Fault Refusal := ehImm (.andi d a im) .and d a im s
/-- ORI (R207). -/
def execOri (d a : BitVec 6) (im : BitVec 12) (s : State) : Host.Outcome State Fault Refusal := ehImm (.ori d a im) .or d a im s
/-- XORI (R207). -/
def execXori (d a : BitVec 6) (im : BitVec 12) (s : State) : Host.Outcome State Fault Refusal := ehImm (.xori d a im) .xor d a im s
/-- SHLI (R207). -/
def execShli (d a : BitVec 6) (im : BitVec 12) (s : State) : Host.Outcome State Fault Refusal := ehImm (.shli d a im) .shl d a im s
/-- SHRI (R207). -/
def execShri (d a : BitVec 6) (im : BitVec 12) (s : State) : Host.Outcome State Fault Refusal := ehImm (.shri d a im) .shr d a im s
/-- SARI (R207). -/
def execSari (d a : BitVec 6) (im : BitVec 12) (s : State) : Host.Outcome State Fault Refusal := ehImm (.sari d a im) .sar d a im s

/-- LI (R208). -/
def execLi (d : BitVec 6) (im : BitVec 18) (s : State) : Host.Outcome State Fault Refusal :=
  run (.li d im) false (s.gBad d []) (gPush d (wi (s.imm im))) s

/-- LUI (R208): the lower half of the register is kept. -/
def execLui (d : BitVec 6) (im : BitVec 18) (s : State) : Host.Outcome State Fault Refusal :=
  run (.lui d im) false (!gOrZero d) (do
    let old ← gPop d
    gPush d (upper old (wi (s.imm im)))) s

/-! ### Branches the execute half decides (R213-R215) -/

/-- The condition of EPB (R213). -/
def epbCond (c : BitVec 2) (a : W64) : Bool :=
  match c.toNat with
  | 0 => a != 0
  | 1 => a == 0
  | 2 => bit a 63
  | _ => bit a 0

/-- EPB (R213): one bit to the branch queue of 8. -/
def execEpb (a : BitVec 6) (c : BitVec 2) (s : State) : Host.Outcome State Fault Refusal :=
  run (.epb a c) false (!s.ehSrc false a) (do
    let x ← gPop a
    checkReads false
    let k ← getCtx
    if k.bq.length < 8 then modCtx (fun k => { k with bq := k.bq ++ [if s.issue.ign.contains 9 then false else epbCond c x] }) else stall) s

/-- EBNZ (R214). -/
def execEbnz (a : BitVec 6) (sense : BitVec 1) (o : BitVec 12) (s : State) : Host.Outcome State Fault Refusal :=
  run (.ebnz a sense o) false (!s.ehSrc false a) (do
    let x ← gPop a
    checkReads false
    branch ((x != 0) == (sense == 1)) (s.target o)) s

/-- FEAT (R233): the requested features the device lacks; the trap form raises feature-absent instead of writing. -/
def execFeat (d a : BitVec 6) (t : BitVec 1) (s : State) : Host.Outcome State Fault Refusal :=
  run (.feat d a t) false (s.gBad d [a]) (do
    let x ← gPop a
    let v := x &&& ~~~ (Config.fset.setWidth 64)
    require (t == 0 || v == 0) 4 v
    gPush d v) s

end Sys2Proof.Machine
end

