-- ==== Sys2Proof/Machine/Float.lean ====
section
/-!
DEFINITION. Scalar floating instructions (09 R209-R212), on the lane operations that the vector forms share.
-/

namespace Sys2Proof.Machine

open Sys2Proof

/-! ### One lane -/

/-- The format of a two-bit code: 1 f16, 2 f32, 3 bf16 (R209). -/
def fmtOf (f : BitVec 2) : Fmt := match f.toNat with | 1 => .f16 | 2 => .f32 | _ => .bf16

/-- A lane's result: its code and its flags. -/
abbrev Lane := Nat × Nat

/-- The two-operand arithmetic operations. -/
inductive FpOp where
  | add | sub | mul
  deriving DecidableEq, Repr

/-- One lane of an arithmetic operation. -/
def FpOp.lane (op : FpOp) (f : Fmt) (m : Mode) (a b : Nat) : Lane :=
  let x := decodeFp false f a
  let y := decodeFp false f b
  let v := match op with
    | .add => fpAdd x y m
    | .sub => { fpAdd x y.negate m with fl := (fpAdd x y.negate m).fl ||| readFlags [y] }
    | .mul => fpMul x y
  let r := roundVal false f m v
  (r.1, r.2 ||| nfOf [x, y] f r.1)

/-- One lane of a fused multiply-add. -/
def fmaLane (f : Fmt) (m : Mode) (a b c : Nat) : Lane :=
  let x := decodeFp false f a
  let y := decodeFp false f b
  let z := decodeFp false f c
  let r := roundVal false f m (fpFma x y z m)
  (r.1, r.2 ||| nfOf [x, y, z] f r.1)

/-- One lane of a minimum or maximum (R139). -/
def pickLane (max : Bool) (f : Fmt) (a b : Nat) : Lane :=
  let x := decodeFp false f a
  let y := decodeFp false f b
  let r := match pickNumber max x y with
    | none => f.nan
    | some second => (if second then b else a) % 2 ^ f.width
  (r, readFlags [x, y] ||| nfOf [x, y] f r)

/-- One lane of a comparison (R211): whether it holds, and the flags. -/
def cmpLane (cc : Nat) (f : Fmt) (a b : Nat) : Bool × Nat :=
  let x := decodeFp false f a
  let y := decodeFp false f b
  let un := x.isNan || y.isNan
  let r := match cc with
    | 0 => !un && fpEq x y
    | 1 => !un && fpLt x y
    | 2 => !un && (fpLt x y || fpEq x y)
    | 3 => un
    | _ => un || !fpEq x y
  let nv := if cc = 1 ∨ cc = 2 then flagIf un NV else readFlags [x, y]
  (r, nv ||| flagIf (x.special || y.special) NF)

/-- One lane of a sign injection (R210). -/
def signLane (op : Nat) (f : Fmt) (a b : Nat) : Lane :=
  let x := decodeFp false f a
  let y := decodeFp false f b
  let sa := a.testBit (f.width - 1)
  let sb := b.testBit (f.width - 1)
  let sign := match op with
    | 0 => sb
    | 1 => !sb
    | _ => sa != sb
  let r := if x.isNan then f.nan else a % 2 ^ (f.width - 1) + (if sign then 2 ^ (f.width - 1) else 0)
  (r, readFlags [x] ||| nfOf [x, y] f r)

/-- One lane of a classification (R210). -/
def classLane (f : Fmt) (a : Nat) : Lane :=
  let x := decodeFp false f a
  let e := a / 2 ^ f.mbits % 2 ^ f.ebits
  let bitNo := match x with
    | .nan s => if s then 8 else 9
    | .inf n => if n then 0 else 7
    | .fin n m => if m.isZero then (if n then 3 else 4) else if e = 0 then (if n then 2 else 5) else (if n then 1 else 6)
  (2 ^ bitNo, flagIf x.special NF)

/-- One lane rounded to an integral value (R210). -/
def integralLane (f : Fmt) (m : Mode) (a : Nat) : Lane :=
  let x := decodeFp false f a
  match x with
  | .nan _ => (f.nan, readFlags [x] ||| NF)
  | .inf _ => (a % 2 ^ f.width, NF)
  | .fin n q =>
    let r := roundInt m (.ofQ (if n then q.neg else q))
    let code := (roundVal false f .rne { r := resQ (.ofInt r.1) n }).1
    (code, flagIf (!r.2) NX)

/-! ### Conversions (R135, R212) -/

/-- The floating type of a type code 0 to 6. -/
def typeOf (t : Nat) : Fmt :=
  match t with
  | 0 => .f32 | 1 => .f16 | 2 => .bf16 | 3 => .e4m3 | 4 => .e5m2 | 5 => .e2m1 | _ => .e3m5

/-- One floating value converted to a floating format. -/
def convertLane (anm : Bool) (dst src : Fmt) (m : Mode) (a : Nat) : Lane :=
  let x := decodeFp anm src a
  let r := convertFp anm dst m { r := x.res } x.signalling
  (r.1, r.2 ||| flagIf (x.special || (decodeFp anm dst r.1).special) NF)

/-- One floating value converted to an integer. -/
def toIntLane (anm : Bool) (n : Nat) (signed : Bool) (src : Fmt) (m : Mode) (a : Nat) : Lane :=
  let x := decodeFp anm src a
  let r := convertInt n signed m x
  (r.1, r.2 ||| flagIf x.special NF)

/-- One integer converted to a floating format. -/
def ofIntLane (anm : Bool) (dst : Fmt) (m : Mode) (v : Int) : Lane :=
  let r := convertFp anm dst m { r := resQ (.ofInt v) false } false
  (r.1, r.2 ||| flagIf (decodeFp anm dst r.1).special NF)

/-! ### The instructions -/

/-- A two-operand form whose lane gives a code and flags. -/
def fpForm (i : Instr) (d a b : BitVec 6) (lane : State → Nat → Nat → Lane) (s : State) : Host.Outcome State Fault Refusal :=
  run i false (s.gBad d [a, b]) (do
    let x ← gPop a
    let y ← gPop b
    let r := lane s x.toNat y.toNat
    gPush d (w64 r.1)
    setFlags r.2) s

/-- FADD (R210). -/
def execFadd (d a b : BitVec 6) (r : BitVec 3) (f : BitVec 2) (s : State) : Host.Outcome State Fault Refusal :=
  fpForm (.fadd d a b r f) d a b (fun s => FpOp.add.lane (fmtOf f) (s.mode r.toNat 0)) s
/-- FSUB (R210). -/
def execFsub (d a b : BitVec 6) (r : BitVec 3) (f : BitVec 2) (s : State) : Host.Outcome State Fault Refusal :=
  fpForm (.fsub d a b r f) d a b (fun s => FpOp.sub.lane (fmtOf f) (s.mode r.toNat 0)) s
/-- FMUL (R210). -/
def execFmul (d a b : BitVec 6) (r : BitVec 3) (f : BitVec 2) (s : State) : Host.Outcome State Fault Refusal :=
  fpForm (.fmul d a b r f) d a b (fun s => FpOp.mul.lane (fmtOf f) (s.mode r.toNat 0)) s
/-- FMIN (R210). -/
def execFmin (d a b : BitVec 6) (f : BitVec 2) (s : State) : Host.Outcome State Fault Refusal :=
  fpForm (.fmin d a b f) d a b (fun _ => pickLane false (fmtOf f)) s
/-- FMAX (R210). -/
def execFmax (d a b : BitVec 6) (f : BitVec 2) (s : State) : Host.Outcome State Fault Refusal :=
  fpForm (.fmax d a b f) d a b (fun _ => pickLane true (fmtOf f)) s
/-- FSGN (R210). -/
def execFsgn (d a b : BitVec 6) (o : BitVec 3) (f : BitVec 2) (s : State) : Host.Outcome State Fault Refusal :=
  fpForm (.fsgn d a b o f) d a b (fun _ => signLane o.toNat (fmtOf f)) s
/-- FCMP (R211). -/
def execFcmp (d a b : BitVec 6) (c : BitVec 3) (f : BitVec 2) (s : State) : Host.Outcome State Fault Refusal :=
  fpForm (.fcmp d a b c f) d a b (fun _ x y => let r := cmpLane c.toNat (fmtOf f) x y; (b2n r.1, r.2)) s

/-- FMA (R210): the destination register is the addend; 63 reads +0 and discards. -/
def execFma (d a b : BitVec 6) (r : BitVec 3) (f : BitVec 2) (s : State) : Host.Outcome State Fault Refusal :=
  run (.fma d a b r f) false (!gOrZero d || s.gBad d [a, b]) (do
    let c ← gPop d
    let x ← gPop a
    let y ← gPop b
    let v := fmaLane (fmtOf f) (s.mode r.toNat 0) x.toNat y.toNat c.toNat
    gPush d (w64 v.1)
    setFlags v.2) s

/-- A one-operand form. -/
def fpUnary (i : Instr) (d a : BitVec 6) (lane : State → Nat → Lane) (s : State) : Host.Outcome State Fault Refusal :=
  run i false (s.gBad d [a]) (do
    let x ← gPop a
    let r := lane s x.toNat
    gPush d (w64 r.1)
    setFlags r.2) s

/-- FCLASS (R210). -/
def execFclass (d a : BitVec 6) (f : BitVec 2) (s : State) : Host.Outcome State Fault Refusal :=
  fpUnary (.fclass d a f) d a (fun _ => classLane (fmtOf f)) s
/-- FRND (R210). -/
def execFrnd (d a : BitVec 6) (r : BitVec 3) (f : BitVec 2) (s : State) : Host.Outcome State Fault Refusal :=
  fpUnary (.frnd d a r f) d a (fun s => integralLane (fmtOf f) (s.mode r.toNat 0)) s

/-- The 64-bit result of an FCVT (R212): i32 is sign-extended, everything else zero-extended. -/
def cvtLane (anm : Bool) (k t c : Nat) (m : Mode) (a : Nat) : Lane :=
  if c = 7 then
    let v : Int := match k with
      | 0 => sval 32 a
      | 1 => (a % 2 ^ 32 : Nat)
      | 2 => sval 64 a
      | _ => (a % 2 ^ 64 : Nat)
    ofIntLane anm (typeOf t) m v
  else
    match t with
    | 8 => let r := toIntLane anm 32 true (typeOf c) m a; ((sext 32 r.1).toNat, r.2)
    | 9 => toIntLane anm 32 false (typeOf c) m a
    | 10 => toIntLane anm 64 true (typeOf c) m a
    | 11 => toIntLane anm 64 false (typeOf c) m a
    | t => convertLane anm (typeOf t) (typeOf c) m a

/-- FCVT (R212). -/
def execFcvt (d a : BitVec 6) (k : BitVec 2) (t : BitVec 4) (c r : BitVec 3) (s : State) : Host.Outcome State Fault Refusal :=
  fpUnary (.fcvt d a k t c r) d a (fun s => cvtLane s.anm k.toNat t.toNat c.toNat (s.mode r.toNat 0)) s

end Sys2Proof.Machine
end

