-- ==== Sys2Proof/Machine/Vector.lean ====
section
/-!
DEFINITION. Vector lanes (10 R238-R258): masks, integer and floating lanes, moves and narrow formats.
-/

namespace Sys2Proof.Machine

open Sys2Proof

/-! ### Lanes and masks (R238, R240) -/

/-- Lane i of width w. -/
def laneOf (w v i : Nat) : Nat := (v >>> (w * i)) % 2 ^ w
/-- The lanes of a vector value. -/
def lanes (w v : Nat) : List Nat := (List.range (128 / w)).map (laneOf w v)
/-- A value of its lanes, lane 0 first. -/
def packLanes (w : Nat) (l : List Nat) : Nat :=
  match l with
  | [] => 0
  | x :: r => x % 2 ^ w + 2 ^ w * packLanes w r

/-- Which lanes are active; the mask register is a source. -/
def activeLanes (m : BitVec 3) (k : BitVec 1) (w : Nat) : M (List Bool) := do
  if m = 0 ∧ k = 0 then pure (List.replicate (128 / w) true)
  else
    let s ← get
    let v ← rsRead (vAddr s.issue.view m.toNat) 16
    pure ((lanes w v).map (fun x => x % 2 == 1))

/-- The old lanes of a destination that keeps its inactive lanes; zero otherwise. -/
def oldLanes (d : BitVec 6) (m : BitVec 3) (k : BitVec 1) : M Nat := do
  if k = 0 ∧ m ≠ 0 ∧ d.toNat < 48 then
    let s ← get
    rsRead (vAddr s.issue.view d.toNat) 16
  else pure 0

/-- Active lanes from the results, the others from the old value. -/
def mergeLanes (w : Nat) (act : List Bool) (res : List Nat) (old : Nat) : Nat :=
  packLanes w ((List.range (128 / w)).map (fun i => if act.getD i false then res.getD i 0 else laneOf w old i))

/-- The flags of the active lanes. -/
def mergeFlags (act : List Bool) (fl : List Nat) : Nat :=
  (List.range act.length).foldl (fun f i => if act.getD i false then f ||| fl.getD i 0 else f) 0

/-- A masked two-source form; lane i of the result is a function of the lane number and the lanes. -/
def vMasked (i : Instr) (d a b : BitVec 6) (m : BitVec 3) (k : BitVec 1) (w : Nat) (lane : State → Nat → Nat → Nat → Lane) (s : State) :
    Host.Outcome State Fault Refusal :=
  runV i false (s.vBad d [a, b]) (do
    let act ← activeLanes m k w
    let old ← oldLanes d m k
    let x ← vPop a
    let y ← vPop b
    let r := (List.range (128 / w)).map (fun j => lane s j (laneOf w x.toNat j) (laneOf w y.toNat j))
    vPush d (BitVec.ofNat 128 (mergeLanes w act (r.map (fun l => l.1)) old))
    setFlags (mergeFlags act (r.map (fun l => l.2)))) s

/-- The template of R243. -/
def vInt (i : Instr) (op : IntOp) (d a b : BitVec 6) (m : BitVec 3) (k : BitVec 1) (w : BitVec 2) (s : State) : Host.Outcome State Fault Refusal :=
  vMasked i d a b m k (widthOf w) (fun _ _ x y => (op.eval (widthOf w) x y, 0)) s

/-- VADD (R243). -/
def execVadd (d a b : BitVec 6) (m : BitVec 3) (k : BitVec 1) (w : BitVec 2) (s : State) : Host.Outcome State Fault Refusal := vInt (.vadd d a b m k w) .add d a b m k w s
/-- VSUB (R243). -/
def execVsub (d a b : BitVec 6) (m : BitVec 3) (k : BitVec 1) (w : BitVec 2) (s : State) : Host.Outcome State Fault Refusal := vInt (.vsub d a b m k w) .sub d a b m k w s
/-- VMUL (R243). -/
def execVmul (d a b : BitVec 6) (m : BitVec 3) (k : BitVec 1) (w : BitVec 2) (s : State) : Host.Outcome State Fault Refusal := vInt (.vmul d a b m k w) .mul d a b m k w s
/-- VMULH (R243). -/
def execVmulh (d a b : BitVec 6) (m : BitVec 3) (k : BitVec 1) (w : BitVec 2) (s : State) : Host.Outcome State Fault Refusal := vInt (.vmulh d a b m k w) .mulh d a b m k w s
/-- VMIN (R243). -/
def execVmin (d a b : BitVec 6) (m : BitVec 3) (k : BitVec 1) (w : BitVec 2) (s : State) : Host.Outcome State Fault Refusal := vInt (.vmin d a b m k w) .min d a b m k w s
/-- VMAX (R243). -/
def execVmax (d a b : BitVec 6) (m : BitVec 3) (k : BitVec 1) (w : BitVec 2) (s : State) : Host.Outcome State Fault Refusal := vInt (.vmax d a b m k w) .max d a b m k w s
/-- VMINU (R243). -/
def execVminu (d a b : BitVec 6) (m : BitVec 3) (k : BitVec 1) (w : BitVec 2) (s : State) : Host.Outcome State Fault Refusal := vInt (.vminu d a b m k w) .minu d a b m k w s
/-- VMAXU (R243). -/
def execVmaxu (d a b : BitVec 6) (m : BitVec 3) (k : BitVec 1) (w : BitVec 2) (s : State) : Host.Outcome State Fault Refusal := vInt (.vmaxu d a b m k w) .maxu d a b m k w s
/-- VAND (R243). -/
def execVand (d a b : BitVec 6) (m : BitVec 3) (k : BitVec 1) (w : BitVec 2) (s : State) : Host.Outcome State Fault Refusal := vInt (.vand d a b m k w) .and d a b m k w s
/-- VOR (R243). -/
def execVor (d a b : BitVec 6) (m : BitVec 3) (k : BitVec 1) (w : BitVec 2) (s : State) : Host.Outcome State Fault Refusal := vInt (.vor d a b m k w) .or d a b m k w s
/-- VXOR (R243). -/
def execVxor (d a b : BitVec 6) (m : BitVec 3) (k : BitVec 1) (w : BitVec 2) (s : State) : Host.Outcome State Fault Refusal := vInt (.vxor d a b m k w) .xor d a b m k w s
/-- VSHL (R243). -/
def execVshl (d a b : BitVec 6) (m : BitVec 3) (k : BitVec 1) (w : BitVec 2) (s : State) : Host.Outcome State Fault Refusal := vInt (.vshl d a b m k w) .shl d a b m k w s
/-- VSHR (R243). -/
def execVshr (d a b : BitVec 6) (m : BitVec 3) (k : BitVec 1) (w : BitVec 2) (s : State) : Host.Outcome State Fault Refusal := vInt (.vshr d a b m k w) .shr d a b m k w s
/-- VSAR (R243). -/
def execVsar (d a b : BitVec 6) (m : BitVec 3) (k : BitVec 1) (w : BitVec 2) (s : State) : Host.Outcome State Fault Refusal := vInt (.vsar d a b m k w) .sar d a b m k w s
/-- VSADD (R243). -/
def execVsadd (d a b : BitVec 6) (m : BitVec 3) (k : BitVec 1) (w : BitVec 2) (s : State) : Host.Outcome State Fault Refusal := vInt (.vsadd d a b m k w) .sadd d a b m k w s
/-- VSADDU (R243). -/
def execVsaddu (d a b : BitVec 6) (m : BitVec 3) (k : BitVec 1) (w : BitVec 2) (s : State) : Host.Outcome State Fault Refusal := vInt (.vsaddu d a b m k w) .saddu d a b m k w s

/-- An unmasked two-source form on lanes of width w. -/
def vLanes (i : Instr) (d a b : BitVec 6) (w : Nat) (lane : State → Nat → Nat → Lane) (s : State) : Host.Outcome State Fault Refusal :=
  runV i false (s.vBad d [a, b]) (do
    let x ← vPop a
    let y ← vPop b
    let r := (List.range (128 / w)).map (fun j => lane s (laneOf w x.toNat j) (laneOf w y.toNat j))
    vPush d (BitVec.ofNat 128 (packLanes w (r.map (fun l => l.1))))
    setFlags (r.foldl (fun f l => f ||| l.2) 0)) s

/-- The comparison of R244. -/
def intCmp (c w a b : Nat) : Bool :=
  match c with
  | 0 => a == b
  | 1 => a != b
  | 2 => decide (sval w a < sval w b)
  | 3 => decide (sval w a ≤ sval w b)
  | 4 => decide (a < b)
  | _ => decide (a ≤ b)

/-- A true lane is all ones (R244). -/
def allOnes (w : Nat) (p : Bool) : Nat := if p then 2 ^ w - 1 else 0

/-- VCMP (R244). -/
def execVcmp (d a b : BitVec 6) (c : BitVec 3) (w : BitVec 2) (s : State) : Host.Outcome State Fault Refusal :=
  vLanes (.vcmp d a b c w) d a b (widthOf w) (fun _ x y => (allOnes (widthOf w) (intCmp c.toNat (widthOf w) x y), 0)) s

/-- VSEL (R245): the selector is the mask register, v0 for M = 0. -/
def execVsel (d a b : BitVec 6) (m : BitVec 3) (w : BitVec 2) (s : State) : Host.Outcome State Fault Refusal :=
  let n := widthOf w
  runV (.vsel d a b m w) false (s.vBad d [a, b]) (do
    let sel ← rsRead (vAddr s.issue.view m.toNat) 16
    let x ← vPop a
    let y ← vPop b
    vPush d (BitVec.ofNat 128 (packLanes n ((List.range (128 / n)).map (fun j =>
      if laneOf n sel j % 2 = 1 then laneOf n x.toNat j else laneOf n y.toNat j))))) s

/-! ### Floating lanes (R246, R247) -/

/-- The template of R246. -/
def vFp (i : Instr) (op : FpOp) (d a b : BitVec 6) (m : BitVec 3) (k : BitVec 1) (w : BitVec 2) (s : State) : Host.Outcome State Fault Refusal :=
  let f := fmtOf w
  vMasked i d a b m k f.width (fun s j x y => op.lane f (s.mode 7 j) x y) s

/-- VFADD (R246). -/
def execVfadd (d a b : BitVec 6) (m : BitVec 3) (k : BitVec 1) (w : BitVec 2) (s : State) : Host.Outcome State Fault Refusal := vFp (.vfadd d a b m k w) .add d a b m k w s
/-- VFSUB (R246). -/
def execVfsub (d a b : BitVec 6) (m : BitVec 3) (k : BitVec 1) (w : BitVec 2) (s : State) : Host.Outcome State Fault Refusal := vFp (.vfsub d a b m k w) .sub d a b m k w s
/-- VFMUL (R246). -/
def execVfmul (d a b : BitVec 6) (m : BitVec 3) (k : BitVec 1) (w : BitVec 2) (s : State) : Host.Outcome State Fault Refusal := vFp (.vfmul d a b m k w) .mul d a b m k w s
/-- VFMIN (R246). -/
def execVfmin (d a b : BitVec 6) (m : BitVec 3) (k : BitVec 1) (w : BitVec 2) (s : State) : Host.Outcome State Fault Refusal :=
  vMasked (.vfmin d a b m k w) d a b m k (fmtOf w).width (fun _ _ x y => pickLane false (fmtOf w) x y) s
/-- VFMAX (R246). -/
def execVfmax (d a b : BitVec 6) (m : BitVec 3) (k : BitVec 1) (w : BitVec 2) (s : State) : Host.Outcome State Fault Refusal :=
  vMasked (.vfmax d a b m k w) d a b m k (fmtOf w).width (fun _ _ x y => pickLane true (fmtOf w) x y) s

/-- VFMA (R246): the destination is the addend; 63 reads +0 and discards. -/
def execVfma (d a b : BitVec 6) (m : BitVec 3) (k : BitVec 1) (w : BitVec 2) (s : State) : Host.Outcome State Fault Refusal :=
  let f := fmtOf w
  runV (.vfma d a b m k w) false (!gOrZero d || s.vBad d [a, b]) (do
    let act ← activeLanes m k f.width
    let c ← vPop d
    let x ← vPop a
    let y ← vPop b
    let r := (List.range (128 / f.width)).map (fun j =>
      fmaLane f (s.mode 7 j) (laneOf f.width x.toNat j) (laneOf f.width y.toNat j) (laneOf f.width c.toNat j))
    vPush d (BitVec.ofNat 128 (mergeLanes f.width act (r.map (fun l => l.1)) (if k = 0 then c.toNat else 0)))
    setFlags (mergeFlags act (r.map (fun l => l.2)))) s

/-- VFCMP (R247). -/
def execVfcmp (d a b : BitVec 6) (c : BitVec 3) (f : BitVec 2) (s : State) : Host.Outcome State Fault Refusal :=
  vLanes (.vfcmp d a b c f) d a b (fmtOf f).width (fun _ x y => let r := cmpLane c.toNat (fmtOf f) x y; (allOnes (fmtOf f).width r.1, r.2)) s
/-- VFSGN (R247). -/
def execVfsgn (d a b : BitVec 6) (o : BitVec 3) (f : BitVec 2) (s : State) : Host.Outcome State Fault Refusal :=
  vLanes (.vfsgn d a b o f) d a b (fmtOf f).width (fun _ x y => signLane o.toNat (fmtOf f) x y) s

/-- An unmasked one-source form. -/
def vUnary (i : Instr) (d a : BitVec 6) (f : State → Nat → Nat × Nat) (s : State) : Host.Outcome State Fault Refusal :=
  runV i false (s.vBad d [a]) (do
    let x ← vPop a
    let r := f s x.toNat
    vPush d (BitVec.ofNat 128 r.1)
    setFlags r.2) s

/-- Lanes mapped one by one. -/
def mapLanes (w : Nat) (f : Nat → Lane) (v : Nat) : Nat × Nat :=
  let r := (lanes w v).map f
  (packLanes w (r.map (fun l => l.1)), r.foldl (fun a l => a ||| l.2) 0)

/-- VFCLASS (R247). -/
def execVfclass (d a : BitVec 6) (f : BitVec 2) (s : State) : Host.Outcome State Fault Refusal :=
  vUnary (.vfclass d a f) d a (fun _ => mapLanes (fmtOf f).width (classLane (fmtOf f))) s

/-! ### Conversions with parts (R248) -/

/-- Type codes of R248: 7 is i32. -/
def typeWidth (t : Nat) : Nat := if t = 7 then 32 else (typeOf t).width

/-- One lane of VFCVT. -/
def vcvtLane (anm : Bool) (dst src : Nat) (m : Mode) (a : Nat) : Lane :=
  if src = 7 then ofIntLane anm (typeOf dst) m (sval 32 a)
  else if dst = 7 then toIntLane anm 32 true (typeOf src) m a
  else convertLane anm (typeOf dst) (typeOf src) m a

/-- N lanes of width sw taken from part p of a source and placed as lanes of width dw in part p of an old value (R248);
f takes the destination lane number, which is the ELEM of R134. -/
def partMap (sw dw p : Nat) (f : Nat → Nat → Lane) (a old : Nat) : Nat × Nat :=
  let n := 128 / Nat.max sw dw
  let offs := if sw < dw then p * n * sw else 0
  let offd := if dw < sw then p * n * dw else 0
  let r := (List.range n).map (fun j => f (offd / dw + j) ((a >>> (offs + sw * j)) % 2 ^ sw))
  let field := packLanes dw (r.map (fun l => l.1))
  let keep := old - (old >>> offd) % 2 ^ (n * dw) * 2 ^ offd
  (keep + field * 2 ^ offd, r.foldl (fun x l => x ||| l.2) 0)

/-- A part form: the bits of a register destination outside the written field are kept (R248). -/
def vPart (i : Instr) (d a : BitVec 6) (extra : List (BitVec 6)) (sw dw p : Nat) (f : State → W128 → Nat → Nat → Lane) (s : State) :
    Host.Outcome State Fault Refusal :=
  runV i false (s.vBad d (a :: extra)) (do
    let old ← if dw < sw ∧ d.toNat < 48 then rsRead (vAddr s.issue.view d.toNat) 16 else pure 0
    let x ← vPop a
    let y ← match extra with
      | b :: _ => vPop b
      | [] => pure 0
    let r := partMap sw dw p (f s y) x.toNat old
    vPush d (BitVec.ofNat 128 r.1)
    setFlags r.2) s

/-- VFCVT (R248). -/
def execVfcvt (d a : BitVec 6) (p : BitVec 2) (t : BitVec 4) (c r : BitVec 3) (s : State) : Host.Outcome State Fault Refusal :=
  vPart (.vfcvt d a p t c r) d a [] (typeWidth c.toNat) (typeWidth t.toNat) p.toNat
    (fun s _ j x => vcvtLane s.anm t.toNat c.toNat (s.mode r.toNat j) x) s

/-! ### Reductions and dot products (R249, R250) -/

/-- One level of the tree of R138: nodes numbered from elem. -/
def treeLevel (node : Nat → Nat → Nat → Lane) (elem : Nat) (l : List Nat) : List Nat × Nat :=
  match l with
  | x :: y :: r =>
    let v := node elem x y
    let t := treeLevel node (elem + 1) r
    (v.1 :: t.1, v.2 ||| t.2)
  | l => (l, 0)

/-- The tree of R138 over all lanes. -/
def tree (node : Nat → Nat → Nat → Lane) (elem fuel : Nat) (l : List Nat) : Nat × Nat :=
  match fuel with
  | 0 => (l.headD 0, 0)
  | n + 1 =>
    match l with
    | [] => (0, 0)
    | [x] => (x, 0)
    | l =>
      let t := treeLevel node elem l
      let r := tree node (elem + l.length / 2) n t.1
      (r.1, t.2 ||| r.2)

/-- VFRED (R249). -/
def execVfred (d a : BitVec 6) (o : BitVec 2) (f : BitVec 2) (s : State) : Host.Outcome State Fault Refusal :=
  vUnary (.vfred d a o f) d a (fun s v =>
    let fm := fmtOf f
    tree (fun e x y => match o.toNat with
      | 0 => FpOp.add.lane fm (s.mode 7 e) x y
      | 1 => pickLane false fm x y
      | _ => pickLane true fm x y) 0 8 (lanes fm.width v)) s

/-- The input type of VDOT. -/
def dotType (t : Nat) : Fmt := match t with | 0 => .f16 | 1 => .bf16 | 2 => .e4m3 | 3 => .e5m2 | _ => .e2m1

/-- One lane of VDOT: the exact sum of the accumulator and the products, rounded once (R137, R250). -/
def dotLane (anm : Bool) (f : Fmt) (m : Mode) (a b c : Nat) : Lane :=
  let n := 32 / f.width
  let acc := decodeFp false .f32 c
  let xs := (List.range n).map (fun k => (decodeFp anm f (laneOf f.width a k), decodeFp anm f (laneOf f.width b k)))
  let ps := xs.map (fun p => mulTerm p.1 p.2)
  let v := sumTerms (acc.term :: ps.map (fun p => p.1)) m.isRd
  let r := roundVal false .f32 m v
  let reads := acc :: xs.flatMap (fun p => [p.1, p.2])
  (r.1, r.2 ||| ps.foldl (fun x p => x ||| p.2) 0 ||| flagIf (acc.isNan || ps.any (fun p => p.1 == .nan)) NV ||| readFlags [acc] ||| nfOf reads .f32 r.1)

/-- VDOT (R250). -/
def execVdot (d a b : BitVec 6) (r t : BitVec 3) (s : State) : Host.Outcome State Fault Refusal :=
  runV (.vdot d a b r t) false (!gOnly d || s.vBad d [a, b]) (do
    let c ← vPop d
    let x ← vPop a
    let y ← vPop b
    let l := (List.range 4).map (fun j => dotLane s.anm (dotType t.toNat) (s.mode r.toNat j) (laneOf 32 x.toNat j) (laneOf 32 y.toNat j) (laneOf 32 c.toNat j))
    vPush d (BitVec.ofNat 128 (packLanes 32 (l.map (fun v => v.1))))
    setFlags (l.foldl (fun f v => f ||| v.2) 0)) s

/-! ### Moves (R252, R253) -/

/-- VMOV (R252). -/
def execVmov (d a : BitVec 6) (m : BitVec 3) (k : BitVec 1) (w : BitVec 2) (s : State) : Host.Outcome State Fault Refusal :=
  let n := widthOf w
  runV (.vmov d a m k w) false (s.vBad d [a]) (do
    let act ← activeLanes m k n
    let old ← oldLanes d m k
    let x ← vPop a
    vPush d (BitVec.ofNat 128 (mergeLanes n act (lanes n x.toNat) old))) s

/-- VSPLAT (R252): the source is scalar. -/
def execVsplat (d a : BitVec 6) (m : BitVec 3) (k : BitVec 1) (w : BitVec 2) (s : State) : Host.Outcome State Fault Refusal :=
  let n := widthOf w
  runV (.vsplat d a m k w) false (s.vBad d [] || !s.ehSrc false a) (do
    let act ← activeLanes m k n
    let old ← oldLanes d m k
    let x ← gPop a
    vPush d (BitVec.ofNat 128 (mergeLanes n act (List.replicate (128 / n) (x.toNat % 2 ^ n)) old))) s

/-- VPERM (R252). -/
def execVperm (d a b : BitVec 6) (m : BitVec 3) (k : BitVec 1) (w : BitVec 2) (s : State) : Host.Outcome State Fault Refusal :=
  let n := widthOf w
  runV (.vperm d a b m k w) false (s.vBad d [a, b]) (do
    let act ← activeLanes m k n
    let old ← oldLanes d m k
    let x ← vPop a
    let y ← vPop b
    vPush d (BitVec.ofNat 128 (mergeLanes n act ((lanes n y.toNat).map (fun j => laneOf n x.toNat (j % (128 / n)))) old))) s

/-- VEXT (R253). -/
def execVext (d a : BitVec 6) (w : BitVec 2) (k : BitVec 4) (s : State) : Host.Outcome State Fault Refusal :=
  runV (.vext d a w k) false (!s.ehSrc true a || !s.ehDst false d) (do
    let x ← vPop a
    gPushV d (Machine.sext (widthOf w) (laneOf (widthOf w) x.toNat k.toNat))) s

/-- VINS (R253). -/
def execVins (d a : BitVec 6) (w : BitVec 2) (k : BitVec 4) (s : State) : Host.Outcome State Fault Refusal :=
  let n := widthOf w
  runV (.vins d a w k) false (!gOnly d || !s.ehSrc false a) (do
    let old ← vPop d
    let x ← gPop a
    vPush d (BitVec.ofNat 128 (packLanes n ((List.range (128 / n)).map (fun j => if j = k.toNat then x.toNat % 2 ^ n else laneOf n old.toNat j))))) s

/-- A two-source form of whole vectors. -/
def vBoth (i : Instr) (d a b : BitVec 6) (f : Nat → Nat → Nat) (s : State) : Host.Outcome State Fault Refusal :=
  runV i false (s.vBad d [a, b]) (do
    let x ← vPop a
    let y ← vPop b
    vPush d (BitVec.ofNat 128 (f x.toNat y.toNat))) s

/-- Element i of the lanes of A followed by the lanes of B (R253). -/
def pairLane (w a b i : Nat) : Nat := if i < 128 / w then laneOf w a i else laneOf w b (i - 128 / w)

/-- The shuffles of R253. -/
def shuffle (op w a b i : Nat) : Nat :=
  let l := 128 / w
  match op with
  | 0 => if i % 2 = 0 then laneOf w a (i / 2) else laneOf w b (i / 2)
  | 1 => if i % 2 = 0 then laneOf w a (l / 2 + i / 2) else laneOf w b (l / 2 + i / 2)
  | 2 => pairLane w a b (2 * i)
  | 3 => pairLane w a b (2 * i + 1)
  | _ => laneOf w a (l - 1 - i)

/-- VSHUF (R253); rev names no second source. -/
def execVshuf (d a b : BitVec 6) (o : BitVec 3) (w : BitVec 2) (s : State) : Host.Outcome State Fault Refusal :=
  let n := widthOf w
  let f := fun x y => packLanes n ((List.range (128 / n)).map (shuffle o.toNat n x y))
  if o = 4 then vUnary (.vshuf d a b o w) d a (fun _ x => (f x 0, 0)) s
  else vBoth (.vshuf d a b o w) d a b f s

/-- VSLIDE (R253). -/
def execVslide (d a b : BitVec 6) (w : BitVec 2) (k : BitVec 4) (s : State) : Host.Outcome State Fault Refusal :=
  let n := widthOf w
  vBoth (.vslide d a b w k) d a b (fun x y => packLanes n ((List.range (128 / n)).map (fun i => pairLane n x y (i + k.toNat)))) s

/-- One narrowed lane of w bits from 2w bits (R253). -/
def narrow (mode w v : Nat) : Nat :=
  match mode with
  | 0 => v % 2 ^ w
  | 1 => wrap w (clamp (-((2 ^ (w - 1) : Nat) : Int)) (((2 ^ (w - 1) : Nat) : Int) - 1) (sval (2 * w) v))
  | _ => wrap w (clamp 0 (((2 ^ w : Nat) : Int) - 1) (sval (2 * w) v))

/-- VNARROW (R253). -/
def execVnarrow (d a b : BitVec 6) (m w : BitVec 2) (s : State) : Host.Outcome State Fault Refusal :=
  let n := widthOf w
  vBoth (.vnarrow d a b m w) d a b (fun x y => packLanes n ((lanes (2 * n) x ++ lanes (2 * n) y).map (narrow m.toNat n))) s

/-- VWIDEN (R253). -/
def execVwiden (d a : BitVec 6) (h sg : BitVec 1) (w : BitVec 2) (s : State) : Host.Outcome State Fault Refusal :=
  let n := widthOf w
  vUnary (.vwiden d a h sg w) d a (fun _ x =>
    let c := 128 / (2 * n)
    (packLanes (2 * n) ((List.range c).map (fun j =>
      let v := laneOf n x (h.toNat * c + j)
      if sg = 1 then wrap (2 * n) (sval n v) else v)), 0)) s

/-! ### Narrow formats (R254-R256) -/

/-- The target of VSCALE, VQPACK and VQUNPK. -/
def narrowType (t : Nat) : Fmt := match t with | 0 => .e2m1 | 1 => .e4m3 | _ => .e5m2
/-- The largest magnitude T of a target (R254). -/
def narrowMax (t : Nat) : Nat := match t with | 0 => 6 | 1 => 448 | _ => 57344

/-- The block scale of R254: its code and the flags. -/
def chooseScale (anm : Bool) (f : Fmt) (t : Nat) (v : Nat) : Nat × Nat :=
  let xs := (lanes f.width v).map (decodeFp false f)
  let nv := xs.any Fp.signalling || xs.all Fp.isNan
  let nf := flagIf (xs.any Fp.special) NF ||| flagIf nv NV
  if xs.any Fp.isInf then (0xFF, nf ||| OF ||| NV)
  else
    let m := xs.foldl (fun (q : Q) x => if q.lt x.val.abs then x.val.abs else q) ⟨0, 1⟩
    match (List.range 255).find? (fun c => m.le ((decodeFp anm .e3m5 (c + 1)).val.mul (.ofInt (narrowMax t)))) with
    | some c => (c + 1, nf)
    | none => (0xFF, nf ||| OF)

/-- VSCALE (R254). -/
def execVscale (d a : BitVec 6) (t f : BitVec 2) (s : State) : Host.Outcome State Fault Refusal :=
  vUnary (.vscale d a t f) d a (fun s => chooseScale s.anm (fmtOf f) t.toNat) s

/-- One lane of VQPACK (R255). -/
def packLane (anm : Bool) (src dst : Fmt) (m : Mode) (scale a : Nat) : Lane :=
  let x := decodeFp false src a
  let q := fpDiv x (decodeFp anm .e3m5 scale)
  let r := convertFp anm dst m q x.signalling
  (r.1, r.2 ||| flagIf (x.special || (decodeFp anm dst r.1).special) NF)

/-- One lane of VQUNPK (R256). -/
def unpackLane (anm : Bool) (src dst : Fmt) (m : Mode) (scale a : Nat) : Lane :=
  let x := decodeFp anm src a
  let r := roundVal false dst m (fpMul x (decodeFp anm .e3m5 scale))
  (r.1, r.2 ||| nfOf [x] dst r.1)

/-- VQPACK (R255). -/
def execVqpack (d a b : BitVec 6) (p t f : BitVec 2) (s : State) : Host.Outcome State Fault Refusal :=
  let src := fmtOf f
  let dst := narrowType t.toNat
  vPart (.vqpack d a b p t f) d a [b] src.width dst.width p.toNat (fun s y j x => packLane s.anm src dst (s.mode 7 j) (y.toNat % 256) x) s

/-- VQUNPK (R256). -/
def execVqunpk (d a b : BitVec 6) (p t f : BitVec 2) (s : State) : Host.Outcome State Fault Refusal :=
  let dst := fmtOf f
  let src := narrowType t.toNat
  vPart (.vqunpk d a b p t f) d a [b] src.width dst.width p.toNat (fun s y j x => unpackLane s.anm src dst (s.mode 7 j) (y.toNat % 256) x) s

/-! ### Mask counts and rotation (R257, R258) -/

/-- A scalar result of the counting lanes (R257). -/
def vCount (i : Instr) (d a : BitVec 6) (m : BitVec 3) (w : Nat) (f : List Bool → Nat) (s : State) : Host.Outcome State Fault Refusal :=
  runV i false (!s.ehDst false d || !s.ehSrc true a) (do
    let act ← activeLanes m 0 w
    let x ← vPop a
    gPushV d (w64 (f ((List.range (128 / w)).map (fun j => act.getD j false && laneOf w x.toNat j % 2 == 1))))) s

/-- VMPOP (R257). -/
def execVmpop (d a : BitVec 6) (m : BitVec 3) (w : BitVec 2) (s : State) : Host.Outcome State Fault Refusal :=
  vCount (.vmpop d a m w) d a m (widthOf w) (fun l => (l.map b2n).sum) s
/-- VMFIRST (R257). -/
def execVmfirst (d a : BitVec 6) (m : BitVec 3) (w : BitVec 2) (s : State) : Host.Outcome State Fault Refusal :=
  vCount (.vmfirst d a m w) d a m (widthOf w) (fun l => l.findIdx (fun p => p)) s

/-- A w-bit value rotated left by n. -/
def rotl (w v n : Nat) : Nat := (v * 2 ^ (n % w) + v / 2 ^ (w - n % w)) % 2 ^ w

/-- VROT (R258). -/
def execVrot (d a b : BitVec 6) (r : BitVec 1) (w : BitVec 2) (s : State) : Host.Outcome State Fault Refusal :=
  let n := widthOf w
  vLanes (.vrot d a b r w) d a b n (fun _ x y => (rotl n x (if r = 1 then n - y % n else y % n), 0)) s

end Sys2Proof.Machine
end

