-- ==== Sys2Proof/Machine/Stamped.lean ====
section
/-!
DEFINITION. CORDIC (06 R140-R143, 10 R259), stamped words (06 R144-R149, 10 R260) and the fused optimiser update
(10 R251).
-/

namespace Sys2Proof.Machine

open Sys2Proof

/-! ### Constants -/

/-- floor(π·2^512). -/
def piFix : Nat := 0x3243f6a8885a308d313198a2e03707344a4093822299f31d0082efa98ec4e6c89452821e638d01377be5466cf34e90c6cc0ac29b7c97c50dd3f84d5b5b5470917
/-- floor(ln 2·2^512). -/
def ln2Fix : Nat := 0xb17217f7d1cf79abc9e3b39803f2f6af40f343267298b62d8a0d175b8baafa2be7b876206debac98559552fb4afa1b10ed2eae35c138214427573b291169b825
/-- π. -/
def piQ : Q := ⟨piFix, 2 ^ 512⟩
/-- ln 2. -/
def ln2Q : Q := ⟨ln2Fix, 2 ^ 512⟩

/-- Fix(atan 2^-i), i from 0 to 30 (R141). -/
def atanTable : List Nat :=
  [0xc90fdaa22168c23, 0x76b19c1586ed3da, 0x3eb6ebf25901bac, 0x1fd5ba9aac2f6dc]
  ++ [0xffaaddb967ef4e, 0x7ff556eea5d893, 0x3ffeaab776e535, 0x1fffd555bbba97]
  ++ [0xffffaaaaddddc, 0x7ffff55556eef, 0x3ffffeaaaab77, 0x1fffffd55555c]
  ++ [0xffffffaaaaab, 0x7ffffff55555, 0x3ffffffeaaab, 0x1fffffffd555]
  ++ [0xffffffffaab, 0x7ffffffff55, 0x3ffffffffeb, 0x1fffffffffd]
  ++ [0x10000000000, 0x8000000000, 0x4000000000, 0x2000000000]
  ++ [0x1000000000, 0x800000000, 0x400000000, 0x200000000]
  ++ [0x100000000, 0x80000000, 0x40000000]

/-- Fix(atanh 2^-i), i from 1 to 29 (R141). -/
def atanhTable : List Nat :=
  [0x8c9f53d5681854c, 0x4162bbea045146a, 0x202b12393d5deed, 0x1005588ad375ace]
  ++ [0x800aac448d7712, 0x4001556222b472, 0x20002aab111236, 0x1000055558888b]
  ++ [0x80000aaaac444, 0x4000015555622, 0x2000002aaaab1, 0x1000000555556]
  ++ [0x8000000aaaab, 0x400000015555, 0x200000002aab, 0x100000000555]
  ++ [0x800000000ab, 0x40000000015, 0x20000000003, 0x10000000000]
  ++ [0x8000000000, 0x4000000000, 0x2000000000, 0x1000000000]
  ++ [0x800000000, 0x400000000, 0x200000000, 0x100000000]
  ++ [0x80000000]

/-- floor(2^(2^-i)·2^176), i from 1 to 24: the factors of a fractional power of two (R146). -/
def exp2Table : List Nat :=
  [0x16a09e667f3bcc908b2fb1366ea957d3e3adec1751277, 0x1306fe0a31b7152de8d5a46305c85edecbc27343629f5]
  ++ [0x1172b83c7d517adcdf7c8c50eb14a792035509ff7d758, 0x10b5586cf9890f6298b92b71842a98364291408b3ceb0]
  ++ [0x1059b0d31585743ae7c548eb68ca417fe53e3495f7df4, 0x102c9a3e778060ee6f7caca4f7a29bde93d70a2cabc5c]
  ++ [0x10163da9fb33356d84a66ae336dcdfa4003ec04c360be, 0x100b1afa5abcbed6129ab13ec11dc954455b8187f0c97]
  ++ [0x10058c86da1c09ea1ff19d294cf2f679c68bf05eb63f5, 0x1002c605e2e8cec506d21bfc89a23a010806c0a42d5da]
  ++ [0x100162f3904051fa128bca9c55c31e5e06ddd31155fe0, 0x1000b175effdc76ba38e31671ca939726694630e2f50b]
  ++ [0x100058ba01fb9f96d6cacd4b180917c3e43a86f9ed9b4, 0x10002c5cc37da9491d0985c348c68e7b3d505d939d869]
  ++ [0x1000162e525ee054754457d5995292026d9d47870c82f, 0x10000b17255775c040618bf4a4ade83fca8f8cfdfc7eb]
  ++ [0x1000058b91b5bc9ae2eed81e9b7d4cfac1b1b76fbf41b, 0x100002c5c89d5ec6ca4d7c8acc017b7c9d9cdf6f672d9]
  ++ [0x10000162e43f4f831060e02d839a9d16d6fb332d9babc, 0x100000b1721bcfc99d9f890ea069117637d190cb3e159]
  ++ [0x10000058b90cf1e6d97f9ca14dbcc16289fa75ffd0b14, 0x1000002c5c863b73f016468f6bac5ca2c11f6d72bc102]
  ++ [0x100000162e430e5a18f6119e3c02282a5f70f2c46b0dd, 0x1000000b1721835514b86e6d96efd1bff6819e4668bee]

/-! ### The iteration (R141) -/

/-- The three kinds of rotation. -/
inductive Cmode where
  | circular | linear | hyperbolic
  deriving DecidableEq, Repr

/-- The shift of iteration j: in the hyperbolic mode 4 and 13 appear twice. -/
def cshift (m : Cmode) (j : Nat) : Nat :=
  match m with
  | .hyperbolic => if j < 4 then j + 1 else if j < 14 then j else j - 1
  | _ => j

/-- The angle of a shift. -/
def cangle (m : Cmode) (i : Nat) : Int :=
  match m with
  | .circular => (atanTable.getD i 0 : Nat)
  | .linear => (2 ^ (60 - i) : Nat)
  | .hyperbolic => (atanhTable.getD (i - 1) 0 : Nat)

/-- The three registers. -/
structure Cregs where
  x : Int
  y : Int
  z : Int
  deriving DecidableEq, Repr

/-- floor(v / 2^i). -/
def asr (v : Int) (i : Nat) : Int := v / ((2 ^ i : Nat) : Int)

/-- One iteration. -/
def cstep (m : Cmode) (rotation : Bool) (r : Cregs) (j : Nat) : Cregs :=
  let i := cshift m j
  let d : Int := if rotation then (if 0 ≤ r.z then 1 else -1) else (if r.y < 0 then 1 else -1)
  let mu : Int := match m with | .circular => 1 | .linear => 0 | .hyperbolic => -1
  { x := r.x - mu * d * asr r.y i, y := r.y + d * asr r.x i, z := r.z - d * cangle m i }

/-- n iterations. -/
def citer (m : Cmode) (rotation : Bool) (n : Nat) (r : Cregs) : Cregs := (List.range n).foldl (cstep m rotation) r

/-- Fix of R140: the nearest multiple of 2^-60, ties to even. -/
def fix60 (q : Q) : Int := (q.mul (.ofInt (2 ^ 60 : Nat))).nearest

/-- The nearest integer to 2^60 times a positive square root. -/
def fixRoot (q : Q) : Nat :=
  let r := ({ a := 0, s := 1, n := q.n.toNat * q.d, d := q.d } : Exact).floorAt 61
  ((r.1 + 1) / 2).toNat

/-- Kc of n iterations, times 2^60. -/
def gainK (n : Nat) : Nat :=
  let p := (List.range n).foldl (fun (q : Q) j => q.mul ⟨(2 ^ (2 * j) + 1 : Nat), 2 ^ (2 * j)⟩) ⟨1, 1⟩
  fixRoot ⟨p.d, p.n.toNat⟩
/-- The square of the product over the hyperbolic shifts. -/
def gainSq (n : Nat) : Q :=
  (List.range n).foldl (fun (q : Q) j => let i := cshift .hyperbolic j; q.mul ⟨(2 ^ (2 * i) - 1 : Nat), 2 ^ (2 * i)⟩) ⟨1, 1⟩
/-- Gh, times 2^60. -/
def gainH (n : Nat) : Nat := fixRoot (gainSq n)
/-- Fix(1/product). -/
def gainHInv (n : Nat) : Nat := fixRoot (let q := gainSq n; ⟨q.d, q.n.toNat⟩)

/-- floor of log2 of a positive rational. -/
def log2Q (q : Q) : Int :=
  let k : Int := (Nat.log2 q.n.toNat : Int) - Nat.log2 q.d
  if (Q.dyadic 1 k).le q then k else k - 1

/-- v·2^-60. -/
def fixVal (v : Int) : Q := ⟨v, 2 ^ 60⟩
/-- A power of two whose exponent is held to a range in which every f32 result is decided. -/
def pow2Held (q : Int) : Q := Q.dyadic 1 (clamp (-600) 600 q)

/-- f32 bits of π·k/4 with a sign, rounded (R143 atan2). -/
def piPart (k : Nat) (neg : Bool) : Lane :=
  let q : Q := ⟨piFix * k, 2 ^ 514⟩
  roundVal false .f32 .rne { r := resQ (if neg then q.neg else q) neg }

/-- atan2(y, x) with a zero or infinite operand (R143). -/
def atan2Special (y x : Fp) : Lane :=
  let s := y.neg
  let zero : Lane := (if s then 0x80000000 else 0, 0)
  if y.isZero then (if x.neg then piPart 4 s else zero)
  else if y.isInf then (if x.isInf then (if x.neg then piPart 3 s else piPart 1 s) else piPart 2 s)
  else if x.isInf then (if x.neg then piPart 4 s else zero)
  else piPart 2 s

/-- Special inputs of the functions but atan2 (R143); none for the others. See log 50. -/
def cordSpecial (fn : Nat) (x : Fp) : Option Val :=
  match x with
  | .nan s => some { r := .nan, fl := flagIf s NV }
  | .inf n =>
    match fn with
    | 0 | 1 => some { r := .nan, fl := NV }
    | 3 => some { r := .inf n }
    | 4 => some { r := .inf false }
    | 5 => some { r := .real (.ofQ (.ofInt (if n then -1 else 1))) }
    | 6 => some { r := if n then .zero false else .inf false }
    | 7 | 8 => some (if n then { r := .nan, fl := NV } else { r := .inf false })
    | 9 => some (if n then { r := .nan, fl := NV } else { r := .zero false })
    | _ => some { r := .zero n }
  | .fin n m =>
    if m.isZero then
      match fn with
      | 0 | 5 | 8 => some { r := .zero n }
      | 1 | 4 | 6 => some { r := .real (.ofQ (.ofInt 1)) }
      | 7 => some { r := .inf true, fl := DZ }
      | 9 | 10 => some { r := .inf n, fl := DZ }
      | _ => none
    else if n && (fn == 7 || fn == 8 || fn == 9) then some { r := .nan, fl := NV }
    else none

/-- The value V of R140 for a finite input that no rule of R143 takes; y is atan2's other operand. See log 50. -/
def cordValue (fn n : Nat) (x y : Q) : Q :=
  match fn with
  | 0 | 1 =>
    let q := (x.div ⟨piFix, 2 ^ 513⟩).nearest
    let rho := x.sub (Q.mul (.ofInt q) ⟨piFix, 2 ^ 513⟩)
    let r := citer .circular true n { x := gainK n, y := 0, z := fix60 rho }
    let k := (q + (if fn = 1 then 1 else 0)) % 4
    if k = 0 then fixVal r.y else if k = 1 then fixVal r.x else if k = 2 then fixVal (-r.y) else fixVal (-r.x)
  | 2 =>
    let big := if x.abs.le y.abs then y.abs else x.abs
    let k := -(log2Q big) - 1
    let r := citer .circular false n { x := fix60 (x.abs.mul (Q.dyadic 1 k)), y := fix60 (y.mul (Q.dyadic 1 k)), z := 0 }
    if x.isNeg then (if y.isNeg then (fixVal (fix60 piQ)).neg else fixVal (fix60 piQ)).sub (fixVal r.z) else fixVal r.z
  | 3 | 4 | 5 =>
    let q := (x.div ln2Q).nearest
    let rho := x.sub (Q.mul (.ofInt q) ln2Q)
    let r := citer .hyperbolic true n { x := gainHInv n, y := 0, z := fix60 rho }
    let u := (pow2Held q).mul (fixVal (r.x + r.y))
    let w := (pow2Held (-q)).mul (fixVal (r.x - r.y))
    if fn = 3 then (u.sub w).mul ⟨1, 2⟩ else if fn = 4 then (u.add w).mul ⟨1, 2⟩ else (u.sub w).div (u.add w)
  | 6 =>
    let q := x.floor
    let rho := (x.sub (.ofInt q)).mul ln2Q
    let r := citer .hyperbolic true n { x := gainHInv n, y := 0, z := fix60 rho }
    (pow2Held q).mul (fixVal (r.x + r.y))
  | 7 =>
    let e := log2Q x
    let mu := x.mul (Q.dyadic 1 (-e))
    let r := citer .hyperbolic false n { x := fix60 (mu.add (.ofInt 1)), y := fix60 (mu.sub (.ofInt 1)), z := 0 }
    (Q.ofInt e).add ((fixVal (2 * r.z)).div ln2Q)
  | 8 | 9 =>
    let e := (log2Q x + 1) / 2
    let mu := x.mul (Q.dyadic 1 (-2 * e))
    let r := citer .hyperbolic false n { x := fix60 (mu.add ⟨1, 4⟩), y := fix60 (mu.sub ⟨1, 4⟩), z := 0 }
    if fn = 8 then (Q.dyadic 1 e).mul ⟨r.x, gainH n⟩ else (Q.dyadic 1 (-e)).mul (Q.div (.ofInt (gainH n)) (.ofInt r.x))
  | _ =>
    let e := log2Q x.abs
    let r := citer .linear false n { x := fix60 (x.abs.mul (Q.dyadic 1 (-e))), y := 2 ^ 60, z := 0 }
    let v := (Q.dyadic 1 (-e)).mul (fixVal r.z)
    if x.isNeg then v.neg else v

/-- CORDIC on f32 bits: a is the input, d the x of atan2 (R140, R143, R259). -/
def cordLane (fn n a d : Nat) : Lane :=
  let x := decodeFp false .f32 a
  let w := decodeFp false .f32 d
  let r : Lane :=
    if fn = 2 then
      if x.isNan || w.isNan then (Fmt.f32.nan, readFlags [x, w])
      else if x.isZero || x.isInf || w.isZero || w.isInf then atan2Special x w
      else roundVal false .f32 .rne { r := resQ (cordValue 2 n w.val x.val) false }
    else
      match cordSpecial fn x with
      | some v => roundVal false .f32 .rne v
      | none => roundVal false .f32 .rne { r := resQ (cordValue fn n x.val ⟨0, 1⟩) false }
  (r.1, r.2 ||| nfOf (if fn = 2 then [x, w] else [x]) .f32 r.1)

/-- CORD (R259). -/
def execCord (d a : BitVec 6) (n : BitVec 5) (fn : BitVec 4) (s : State) : Host.Outcome State Fault Refusal :=
  runV (.cord d a n fn) false (decide (10 < fn.toNat) || (fn == 2 && !gOnly d) || s.gBad d [a]) (do
    let y ← gPop a
    let x ← if fn = 2 then gPop d else pure 0
    let r := cordLane fn.toNat n.toNat (bf y 0 32) (bf x 0 32)
    gPushV d (w64 r.1)
    setFlags r.2) s

/-- VCORD (R259). -/
def execVcord (d a : BitVec 6) (n : BitVec 5) (fn : BitVec 4) (s : State) : Host.Outcome State Fault Refusal :=
  runV (.vcord d a n fn) false (decide (10 < fn.toNat) || (fn == 2 && !gOnly d) || s.vBad d [a]) (do
    let y ← vPop a
    let x ← if fn = 2 then vPop d else pure 0
    let l := (List.range 4).map (fun j => cordLane fn.toNat n.toNat (laneOf 32 y.toNat j) (laneOf 32 x.toNat j))
    vPush d (BitVec.ofNat 128 (packLanes 32 (l.map (fun v => v.1))))
    setFlags (l.foldl (fun f v => f ||| v.2) 0)) s

/-! ### Stamped words (R144-R148, R260) -/

def swValue (w : Nat) : Nat := w % 2 ^ 32
def swStamp (w : Nat) : Nat := w / 2 ^ 32 % 2 ^ 24
def swClass (w : Nat) : Nat := w / 2 ^ 56 % 16
def swN (w : Nat) : Bool := w.testBit 62
def swV (w : Nat) : Bool := w.testBit 63
/-- A valid stamped word. -/
def swMake (value stamp cls : Nat) (n : Bool) : Nat :=
  value % 2 ^ 32 + stamp % 2 ^ 24 * 2 ^ 32 + cls % 16 * 2 ^ 56 + b2n n * 2 ^ 62 + 2 ^ 63

/-- 2^(k·2^-24) for a non-positive k, as a rational within 2^-150 of it; exact when 2^24 divides k. -/
def exp2Q (k : Int) : Q :=
  let i := k / ((2 ^ 24 : Nat) : Int)
  let f := (k % ((2 ^ 24 : Nat) : Int)).toNat
  let m := (List.range 24).foldl (fun v j => if f.testBit (23 - j) then v * exp2Table.getD j 0 / 2 ^ 176 else v) (2 ^ 176)
  (Q.dyadic 1 (clamp (-400) 0 i)).mul ⟨m, 2 ^ 176⟩

/-- The decay factor of R146 as f32 bits, for a class constant L (Q8.24) and an age e. -/
def decayFactor (l : Int) (e : Nat) : Nat :=
  let k := l * e
  if k % ((2 ^ 24 : Nat) : Int) = 0 then (roundVal false .f32 .rne { r := .real (.ofQ (Q.dyadic 1 (clamp (-400) 0 (k / ((2 ^ 24 : Nat) : Int))))) }).1
  else (roundVal false .f32 .rne { r := .real (.ofQ (exp2Q k)) }).1

/-- Read(w, S) of R146: its f32 bits and the flags of the rounding of the decayed value. -/
def swRead (dcs : Nat → W64) (w stamp : Nat) : Lane :=
  if !swV w then (0, 0)
  else
    let e := (stamp % 2 ^ 24 + 2 ^ 24 - swStamp w) % 2 ^ 24
    let factor := decayFactor (sval 32 (bf (dcs (swClass w)) 0 32)) e
    let v := decodeFp false .f32 (swValue w)
    let r := roundVal false .f32 .rne (fpMul v (decodeFp false .f32 factor))
    (r.1, r.2 ||| nfOf [v] .f32 r.1)

/-- A value that is no finite number. -/
def notFinite (v : Nat) : Bool := (decodeFp false .f32 v).special

/-- The merging add of R147. -/
def swAdd (dcs : Nat → W64) (stamp : Nat) (m : Mode) (a x : Nat) : Lane :=
  let r := swRead dcs a stamp
  let v := FpOp.add.lane .f32 m r.1 (x % 2 ^ 32)
  (swMake v.1 stamp (swClass a) (swN a || notFinite v.1), r.2 ||| v.2)

/-- A word with its reserved bits written as zero (R144). See log 51. -/
def swClean (w : Nat) : Nat := w - w / 2 ^ 60 % 4 * 2 ^ 60

/-- The merge of R148; both values of two valid words are read, whatever their classes (10 R260). See log 51. -/
def swMerge (dcs : Nat → W64) (m : Mode) (a b : Nat) : Lane :=
  if !swV a && !swV b then (0, 0)
  else if !swV a then (swClean b, flagIf (notFinite (swValue b)) NF)
  else if !swV b then (swClean a, flagIf (notFinite (swValue a)) NF)
  else if swClass a ≠ swClass b then (0, NV ||| flagIf (notFinite (swValue a) || notFinite (swValue b)) NF)
  else
    let dd := (swStamp b + 2 ^ 24 - swStamp a) % 2 ^ 24
    let t := if dd < 2 ^ 23 then swStamp b else swStamp a
    let x := swRead dcs a t
    let y := swRead dcs b t
    let v := FpOp.add.lane .f32 m x.1 y.1
    (swMake v.1 t (swClass a) (swN a || swN b || notFinite v.1), x.2 ||| y.2 ||| v.2)

/-- The decay constants of a context (R145). -/
def Ctx.dcOf (c : Ctx) (k : Nat) : W64 := tget c.dc k 0
/-- The decay constants of the issuing context. -/
def State.dcs (s : State) (k : Nat) : W64 := (s.ctx s.issue.core s.issue.ctx).dcOf k
/-- STEP of a core's commit domain (R26). -/
def State.stepOf (s : State) (c : Nat) : Nat := match s.domOf c with | some d => d.step.toNat | none => 0
/-- STEP[23:0] of the issuing core. -/
def State.stamp24 (s : State) : Nat := s.stepOf s.issue.core % 2 ^ 24

/-- SSET (R260). -/
def execSset (d a : BitVec 6) (c : BitVec 4) (s : State) : Host.Outcome State Fault Refusal :=
  runV (.sset d a c) false (s.gBad d [a]) (do
    let x ← gPop a
    let v := bf x 0 32
    gPushV d (w64 (swMake v s.stamp24 c.toNat (notFinite v)))
    setFlags (flagIf (notFinite v) NF)) s

/-- SREAD (R260). -/
def execSread (d a : BitVec 6) (s : State) : Host.Outcome State Fault Refusal :=
  runV (.sread d a) false (s.gBad d [a]) (do
    let x ← gPop a
    let r := swRead s.dcs x.toNat s.stamp24
    gPushV d (w64 r.1)
    setFlags r.2) s

/-- SADD (R260). -/
def execSadd (d a b : BitVec 6) (r : BitVec 3) (s : State) : Host.Outcome State Fault Refusal :=
  runV (.sadd d a b r) false (s.gBad d [a, b]) (do
    let x ← gPop a
    let y ← gPop b
    let v := swAdd s.dcs s.stamp24 (s.mode r.toNat 0) x.toNat y.toNat
    gPushV d (w64 v.1)
    setFlags v.2) s

/-- SMRG (R260). -/
def execSmrg (d a b : BitVec 6) (r : BitVec 3) (s : State) : Host.Outcome State Fault Refusal :=
  runV (.smrg d a b r) false (s.gBad d [a, b]) (do
    let x ← gPop a
    let y ← gPop b
    let v := swMerge s.dcs (s.mode r.toNat 0) x.toNat y.toNat
    gPushV d (w64 v.1)
    setFlags v.2) s

/-- VSREAD (R260). -/
def execVsread (d a : BitVec 6) (s : State) : Host.Outcome State Fault Refusal :=
  vUnary (.vsread d a) d a (fun s v => mapLanes 64 (fun w => swRead s.dcs w s.stamp24) v) s

/-- A two-source form on two 64-bit lanes. -/
def vStamped (i : Instr) (d a b : BitVec 6) (f : State → Nat → Nat → Nat → Lane) (s : State) : Host.Outcome State Fault Refusal :=
  runV i false (s.vBad d [a, b]) (do
    let x ← vPop a
    let y ← vPop b
    let l := (List.range 2).map (fun j => f s j (laneOf 64 x.toNat j) (laneOf 64 y.toNat j))
    vPush d (BitVec.ofNat 128 (packLanes 64 (l.map (fun v => v.1))))
    setFlags (l.foldl (fun f v => f ||| v.2) 0)) s

/-- VSADD, the stamped form (R260). -/
def execVsaddStamped (d a b : BitVec 6) (r : BitVec 3) (s : State) : Host.Outcome State Fault Refusal :=
  vStamped (.vsaddStamped d a b r) d a b (fun s j x y => swAdd s.dcs s.stamp24 (s.mode r.toNat j) x y) s
/-- VSMRG (R260). -/
def execVsmrg (d a b : BitVec 6) (r : BitVec 3) (s : State) : Host.Outcome State Fault Refusal :=
  vStamped (.vsmrg d a b r) d a b (fun s j x y => swMerge s.dcs (s.mode r.toNat j) x y) s

/-! ### The fused update (R251) -/

/-- A product of two exact values that are no rounding results. -/
def xMul (a b : Fp) : Fp × Nat :=
  let t := mulTerm a b
  (match t.1 with
    | .nan => .nan false
    | .inf n => .inf n
    | .fin n q => .fin n q, t.2)

/-- An exact sum. -/
def xAdd (a b : Fp) (rd : Bool) : Fp × Nat :=
  let v := sumTerms [a.term, b.term] rd
  (match v.r with
    | .nan => .nan false
    | .inf n => .inf n
    | .zero n => .fin n ⟨0, 1⟩
    | .real x => .fin (decide (x.a < 0)) (Q.abs ⟨x.a, x.d⟩), v.fl ||| readFlags [a, b])

/-- 1 as a value. -/
def fpOne : Fp := .fin false ⟨1, 1⟩

/-- β·m + (1 − β)·g, or β·v + (1 − β)·g·g, exactly. -/
def blend (beta m g : Fp) (square rd : Bool) : Fp × Nat :=
  let p := xMul beta m
  let o := xAdd fpOne beta.negate rd
  let q := xMul o.1 g
  let q2 := if square then xMul q.1 g else q
  let r := xAdd p.1 q2.1 rd
  (r.1, p.2 ||| o.2 ||| q.2 ||| q2.2 ||| r.2)

/-- A value of R251's last expression: a special value, or a number A + B·√q with q fixed; a zero keeps its sign. -/
inductive Surd where
  | nan
  | inf (neg : Bool)
  | fin (negZero : Bool) (a b : Q)
  deriving DecidableEq, Repr

/-- A + B·√q as an exact number. -/
def surdExact (q a b : Q) : Exact :=
  let c := b.n * a.d
  { a := a.n * b.d * q.d, s := if c < 0 then -1 else if c = 0 then 0 else 1, n := c.natAbs * c.natAbs * (q.n.toNat * q.d), d := a.d * b.d * q.d }

def Surd.zero (q : Q) : Surd → Bool | .fin _ a b => (surdExact q a b).isZero | _ => false
def Surd.neg (q : Q) : Surd → Bool
  | .inf n => n
  | .fin z a b => if (surdExact q a b).isZero then z else (surdExact q a b).isNeg
  | .nan => false
def Surd.negate (q : Q) : Surd → Surd
  | .nan => .nan
  | .inf n => .inf (!n)
  | .fin z a b => .fin (if (surdExact q a b).isZero then !z else z) a.neg b.neg

/-- A value without a root. -/
def Fp.surd : Fp → Surd
  | .nan _ => .nan
  | .inf n => .inf n
  | .fin n m => .fin n (if n then m.neg else m) ⟨0, 1⟩

/-- A sum; exact cancellation gives +0, or −0 under RD. -/
def surdAdd (q : Q) (x y : Surd) (rd : Bool) : Surd × Nat :=
  match x, y with
  | .nan, _ => (.nan, 0)
  | _, .nan => (.nan, 0)
  | .inf n, .inf m => if n = m then (.inf n, 0) else (.nan, NV)
  | .inf n, _ => (.inf n, 0)
  | _, .inf m => (.inf m, 0)
  | .fin z a b, .fin w c d =>
    let both := (surdExact q a b).isZero && (surdExact q c d).isZero
    (.fin (if both && z == w then z else rd) (a.add c) (b.add d), 0)

/-- A product with a value without a root. -/
def surdMul (q : Q) (x : Surd) (k : Fp) : Surd × Nat :=
  match x with
  | .nan => (.nan, readFlags [k])
  | .inf n => if k.isNan then (.nan, readFlags [k]) else if k.isZero then (.nan, NV) else (.inf (n != k.neg), 0)
  | .fin _ a b =>
    if k.isNan then (.nan, readFlags [k])
    else if k.isInf then (if x.zero q then (.nan, NV) else (.inf (x.neg q != k.neg), 0))
    else (.fin (x.neg q != k.neg) (a.mul k.val) (b.mul k.val), 0)

/-- p / (√q + ε) for a non-negative q (R251). An infinite p over zero sets no DZ, as IEEE 754 has it: a DESIGN CHOICE of the model
beside R251, which names a non-zero numerator. See log 50. -/
def ratio (p : Fp) (q : Fp) (eps : Fp) (rd : Bool) : Surd × Nat :=
  let fl := readFlags [p, q, eps]
  if !q.isNan && q.neg && !q.isZero then (.nan, fl ||| NV)
  else if p.isNan || q.isNan || eps.isNan then (.nan, fl)
  else if q.isInf then
    if eps.isInf && eps.neg then (.nan, fl ||| NV)
    else if p.isInf then (.nan, fl ||| NV) else (.fin p.neg ⟨0, 1⟩ ⟨0, 1⟩, fl)
  else if eps.isInf then
    if p.isInf then (.nan, fl ||| NV) else (.fin (p.neg != eps.neg) ⟨0, 1⟩ ⟨0, 1⟩, fl)
  else
    let den := surdExact q.val eps.val ⟨1, 1⟩
    if den.isZero then
      let dneg := if q.isZero && eps.isZero && q.neg == eps.neg then q.neg else rd
      if p.isZero then (.nan, fl ||| NV)
      else (.inf (p.neg != dneg), fl ||| flagIf (!p.isInf) DZ)
    else if p.isInf then (.inf (p.neg != den.isNeg), fl)
    else if p.isZero then (.fin (p.neg != den.isNeg) ⟨0, 1⟩ ⟨0, 1⟩, fl)
    else
      let e2 := eps.val.mul eps.val
      if q.val.eq e2 then (.fin false (p.val.div (eps.val.add eps.val)) ⟨0, 1⟩, fl)
      else
        let k := p.val.div (q.val.sub e2)
        (.fin false (k.mul eps.val).neg k, fl)

/-- One lane of VOPTW: the new weight, momentum and variance, and the flags. -/
def optLane (f32s : List Nat) (w m v g : Nat) (mm mv mw : Mode) : Nat × Nat × Nat × Nat :=
  let h := f32s.map (decodeFp false .f32)
  let at_ := fun k => h.getD k fpOne
  let x := [w, m, v, g].map (decodeFp false .f32)
  let xw := x.getD 0 fpOne
  let xm := x.getD 1 fpOne
  let xv := x.getD 2 fpOne
  let xg := x.getD 3 fpOne
  let bm := blend (at_ 0) xm xg false mm.isRd
  let rm := roundVal false .f32 mm { r := bm.1.res, fl := bm.2 }
  let bv := blend (at_ 1) xv xg true mv.isRd
  let rv := roundVal false .f32 mv { r := bv.1.res, fl := bv.2 }
  let p := xMul (at_ 5) (decodeFp false .f32 rm.1)
  let q := xMul (at_ 6) (decodeFp false .f32 rv.1)
  let root := if q.1.special then ⟨0, 1⟩ else q.1.val.abs
  let r := ratio p.1 q.1 (at_ 3) mw.isRd
  let dw := xMul (at_ 4) xw
  let t := surdAdd root r.1 dw.1.surd mw.isRd
  let u := surdMul root t.1 (at_ 2)
  let z := surdAdd root xw.surd (u.1.negate root) mw.isRd
  let fl := p.2 ||| q.2 ||| r.2 ||| dw.2 ||| t.2 ||| u.2 ||| z.2 ||| readFlags x
  let rw := roundVal false .f32 mw { r := (match z.1 with
    | .nan => .nan
    | .inf n => .inf n
    | .fin n a b => if (surdExact root a b).isZero then .zero n else .real (surdExact root a b)), fl := fl }
  let nf := nfOf (x ++ h) .f32 rw.1 ||| nfOf [] .f32 rm.1 ||| nfOf [] .f32 rv.1
  (rw.1, rm.1, rv.1, rm.2 ||| rv.2 ||| rw.2 ||| nf)

/-- VOPTW (R251): the weights, the momentum and the variance are written together. -/
def execVoptw (d a b p : BitVec 6) (s : State) : Host.Outcome State Fault Refusal :=
  runV (.voptw d a b p) false (!gOnly d || !s.ehSrc true a || decide (46 < b.toNat) || decide (44 < p.toNat) || d == b || d.toNat == b.toNat + 1) (do
    let view := s.issue.view
    let g ← vPop a
    let w ← rsRead (vAddr view d.toNat) 16
    let m ← rsRead (vAddr view b.toNat) 16
    let v ← rsRead (vAddr view (b.toNat + 1)) 16
    let h ← rsRead (8 * p.toNat) 32
    let hs := (List.range 7).map (fun k => laneOf 32 h k)
    let l := (List.range 4).map (fun j =>
      optLane hs (laneOf 32 w j) (laneOf 32 m j) (laneOf 32 v j) (laneOf 32 g.toNat j) (s.mode 7 j) (s.mode 7 (j + 4)) (s.mode 7 (j + 8)))
    checkReads true
    rsWrite (vAddr view b.toNat) 16 (packLanes 32 (l.map (fun r => r.2.1)))
    rsWrite (vAddr view (b.toNat + 1)) 16 (packLanes 32 (l.map (fun r => r.2.2.1)))
    rsWrite (vAddr view d.toNat) 16 (packLanes 32 (l.map (fun r => r.1)))
    setFlags (l.foldl (fun f r => f ||| r.2.2.2) 0)) s

/-! ### The register store by address (R263) -/

/-- The byte address of RSLD and RSST. -/
def rsAddr (base : W64) (sz : Nat) (i : Int) : Nat := alignTo (2 ^ sz) ((base + wi (2 ^ sz * i)).toNat % 2048)

/-- RSLD (R263). -/
def execRsld (d b : BitVec 6) (o : BitVec 9) (z : BitVec 3) (s : State) : Host.Outcome State Fault Refusal :=
  runV (.rsld d b o z) false (!gOrZero b || (if z = 4 then s.vBad d [] else s.gBad d [])) (do
    let base ← gPop b
    let n := 2 ^ z.toNat
    let v ← rsRead (rsAddr base z.toNat (s.imm o)) n
    if z = 4 then vPush d (BitVec.ofNat 128 v) else gPushV d (Machine.sext (8 * n) v)) s

/-- RSST (R263). -/
def execRsst (d b : BitVec 6) (o : BitVec 9) (z : BitVec 3) (s : State) : Host.Outcome State Fault Refusal :=
  runV (.rsst d b o z) false (!gOrZero b || !s.ehSrc (z == 4) d) (do
    let base ← gPop b
    let n := 2 ^ z.toNat
    let v ← if z = 4 then (do return (← vPop d).toNat) else (do return (← gPop d).toNat)
    checkReads true
    rsWrite (rsAddr base z.toNat (s.imm o)) n (v % 2 ^ (8 * n))) s

end Sys2Proof.Machine
end

