-- ==== Sys2Proof/Machine/Loads.lean ====
section
/-!
DEFINITION. Loads, stores and local atomics of the access half (08 R187, R188; 04 R73, R74, R82, R93; 05 R108-R111),
and the waits that order them (05 R112, R113, R119).
-/

namespace Sys2Proof.Machine

open Sys2Proof

/-! ### Where a local access lands and what it waits for -/

/-- The elements that delivered EH instructions earlier in program order than sequence seq will still pop from or push to
a walker, by count. -/
def Ctx.walkerUses (c : Ctx) (seq w : Nat) (pushes : Bool) : Nat :=
  (c.eh.map (fun sl =>
    if sl.iss.seq < seq then
      let u := ehCodes sl.instr
      if pushes then b2n (u.1.any (fun d => walkerOf d == some w)) else (u.2.filter (fun a => walkerOf a == some w)).length
    else 0)).sum

/-- An earlier EH instruction of the context still has to push an element over these bytes, or, for a store, to pop one
(R108, R191: element accesses count at their pop or push, in program order); a read of an instruction of the AH is held
for both, so that the reads of a context never go backwards (R109). -/
def State.walkerAhead (s : State) (l : Loc) (n : Nat) (store : Bool) : Bool :=
  let c := s.issue.core
  let x := s.ctx c s.issue.ctx
  x.walkers.any (fun p =>
    let w := p.2
    w.active && (w.store || store) &&
      (List.range (x.walkerUses s.issue.seq p.1 w.store)).any (fun j =>
        let e := w.index.toNat + j
        decide (e < w.count) && touches l n (s.locate c (w.addr e) w.size) w.size))

/-- A local access of n bytes: its place, once nothing makes it wait (R74, R93, R191). -/
def localAccess (addr n : Nat) : M Loc := do
  let s ← get
  let c := s.issue.core
  let l := s.locate c addr n
  match l with
  | .absent k win => stallFor (s.wanted k win)
  | _ =>
    if s.heldOver c s.issue.ctx l n then stallFor (s.storeChores c s.issue.ctx)
    else if (s.core c).busy l n || s.walkerAhead l n true then stall
    else
      match l with
      | .unconf => modCore (fun co => co.diag 0 1); pure l
      | l => pure l

/-- A local write of the issuing context performed at once, with its version entry (R84-R86). -/
def localWrite (l : Loc) (n v : Nat) : M Unit := do
  let s ← get
  match s.lwriteAt s.issue.core l n v none with
  | .ok t => set t
  | .error f => if s.issue.ign.contains f.1 then pure () else trapWith f.1 f.2

/-! ### Scopes (R106) -/

/-- A party: a context of a core of a device, an engine command acting as a core, an operation of a die's collective engine, or the
host. -/
inductive Agent where
  | context (dev core ctx : Nat)
  | engine (dev core : Nat)
  | collective (dev die : Nat)
  | host
  deriving DecidableEq, Repr

/-- The device, the die and the core in which a party acts. -/
def Agent.dev (a : Agent) : Option Nat := match a with | .context d _ _ | .engine d _ | .collective d _ => some d | .host => none
def Agent.die (a : Agent) : Option (Nat × Nat) :=
  match a with | .context d c _ | .engine d c => some (d, dieOf c) | .collective d k => some (d, k) | .host => none
def Agent.core (a : Agent) : Option (Nat × Nat) := match a with | .context d c _ | .engine d c => some (d, c) | _ => none

/-- Scope s issued by party p of a commit domain with these devices includes party q (R106): q lies in the unit of level s that
contains p. -/
def scopeIncludes (devices : List Nat) (s : Nat) (p q : Agent) : Bool :=
  match s with
  | 0 => p == q
  | 1 => p.core.isSome && p.core == q.core
  | 2 => p.core.isSome && p.core.map (fun x => (x.1, clusterOf x.2)) == q.core.map (fun x => (x.1, clusterOf x.2))
  | 3 => p.die.isSome && p.die == q.die
  | 4 => p.dev.isSome && p.dev == q.dev
  | _ => q == .host || q.dev.any (fun d => devices.contains d)

/-- A scope takes in the other contexts of its core and the commands that act as it; it takes in other cores of its cluster. -/
def takesCore (s : Nat) : Bool := scopeIncludes [0] s (.context 0 0 0) (.engine 0 0)
def takesCluster (s : Nat) : Bool := scopeIncludes [0] s (.context 0 0 0) (.context 0 1 0)

/-! ### Order (R111-R113) -/

/-- Whether the issuing context has a global request that is not performed yet. -/
def State.mine (s : State) : Bool := (s.core s.issue.core).gstores.any (fun g => g.ctx == s.issue.ctx)

/-- Whether another context's request that a release at core scope has passed on is not performed yet. -/
def State.owed (s : State) (c k : Nat) : Bool := (s.core c).gstores.any (fun g => s.passedOn c k g)

/-- Wait until every earlier access of the context is performed: its global requests, its local stores, and the walker and
channel accesses of EH instructions that have not issued; with all set, what other contexts have passed on by a release too. -/
def settled (all : Bool) : M Unit := do
  let s ← get
  let x := s.ctx s.issue.core s.issue.ctx
  awaitFor (!s.mine && !(all && s.owed s.issue.core s.issue.ctx)) [.globalAccessPerformed s.issue.core]
  awaitFor x.unwritten.isEmpty (s.storeChores s.issue.core s.issue.ctx)
  await (!x.eh.any (fun sl => decide (sl.iss.seq < s.issue.seq) && ehAccess sl.instr))

/-- The reach of a local address (R107): the core for TCM, the cluster for the scratchpad; of a global one, the system. -/
def localReach (addr : Nat) : Nat := if addr / 2 ^ 24 % 256 = 0 then 1 else 2
def globalReach : Nat := 5

/-- What a release at a scope waits for, over what the release fences before it hold (R107, R111, R112): nothing at thread
scope; the context's own local stores from core scope on; its global requests too from cluster scope on, for a core's
requests in one lane are performed in order and so are never seen out of order within the core by its contexts. A local store waits
for both (After.inCore). See log 53. -/
def After.release (a : After) (scope id seq : Nat) : After :=
  { near := if takesCore scope then id else a.near, far := if takesCluster scope then id else a.far, eh := if takesCore scope then seq else a.eh }

/-- The requests of a context that a release passes on to the core's other contexts (R110): those before access id, for a release at
core scope, which is performed before them. -/
def Ctx.lend (c : Ctx) (kind scope id : Nat) : Ctx :=
  if (kind = 2 ∨ kind = 4) ∧ takesCore scope ∧ !takesCluster scope then { c with lent := id } else c

/-- The issuing context waits for what its release at a scope waits for: an LATM, which has no store path, and the ring
instructions (R111, 08 R204). -/
def releaseNow (scope : Nat) : M Unit := do
  let s ← get
  let c := s.issue.core
  let k := s.issue.ctx
  if s.afterDone c k ((s.ctx c k).point.release scope (s.core c).accesses s.issue.seq).inCore then pure () else stallFor (s.afterChores c k)

/-- What a store of kind release or SC adds to what it waits for (R111). -/
def storeAfter (kind scope seq : Nat) (a : After) (id : Nat) : After := if kind = 2 ∨ kind = 4 then a.release scope id seq else a

/-- The FENCE.SC before an SC load or LATM (R111): it is opened as a step of its own, and the access goes on when it is
done. -/
def fenceFirst : M Unit := do
  let s ← get
  if s.kind = 4 ∧ (s.ctx s.issue.core s.issue.ctx).scPass ≠ some s.issue.seq then
    stallFor [.scStart s.issue.core s.issue.ctx s.scope s.issue.seq]
  else pure ()

/-- A FENCE.SC opened after the issuing instruction (R111, R113): nothing later of its context issues before it is done. -/
def openFence (scope : Nat) : M Unit := do
  let s ← get
  modCtx (fun c => { c with sc := some { seq := s.issue.seq, scope := scope } })
  modify (fun s => s.pend [.scFence s.issue.core s.issue.ctx])

/-- What follows a store or LATM: of kind SC, a FENCE.SC (R111). -/
def fenceAfter : M Unit := do
  let s ← get
  if s.kind = 4 then openFence s.scope else pure ()

/-! ### LD, ST (R187) -/

/-- The local address of a MEM form. -/
def State.localAddr (s : State) (b : BitVec 6) (o : BitVec 9) (sz : Nat) : Nat :=
  ((s.xval b) + wi (2 ^ sz * s.imm o)).toNat % 2 ^ 32
/-- The global address of a MEM form. -/
def State.globalAddr (s : State) (b : BitVec 6) (o : BitVec 9) (sz : Nat) : W64 := (s.xval b) + wi (2 ^ sz * s.imm o)

/-- A load's destination and base are legal (R158, R187). -/
def loadBad (d b : BitVec 6) (sz : BitVec 3) : Bool :=
  !xOrZero b || (if sz.toNat = 4 then !(d == 57 || d == 63) else !ahDst d)
/-- A store's source and base are legal. -/
def storeBad (d b : BitVec 6) (sz : BitVec 3) : Bool :=
  !xOrZero b || (if sz.toNat = 4 then !(d == 57 || d == 63) else !ahSrc d)

/-- The value of a load to its destination: a register takes it sign-extended, lq zero-extended. -/
def loadResult (d : BitVec 6) (n v : Nat) (mark : Option Mark) : M Unit :=
  if d = 57 then pushQ .lq { data := BitVec.ofNat 128 v, mark := mark } else xset d (sext (8 * n) v)

/-- The 64-byte line of a local address, window and offset. -/
def localLine (addr : Nat) : W64 := w64 (alignTo 64 addr)

/-- A read of n bytes of TCM or scratchpad by an instruction meets a parity error (25 R413). -/
def checkParity (addr : Nat) (l : Loc) (n : Nat) : M Unit := do
  let s ← get
  if s.meetsError s.issue.core l n && !s.issue.ign.contains 10 then trapWith 10 (localLine (addr % 2 ^ 32)) else pure ()

/-- A read of n bytes of TCM or scratchpad by an instruction that keeps no mark meets poison (R242). -/
def checkMark (addr : Nat) (l : Loc) (n : Nat) : M Unit := do
  let s ← get
  match s.localMark s.issue.core l addr n with
  | some m => if s.issue.ign.contains 9 then pure () else throw (.trap 9 m.line m.committed)
  | none => pure ()

/-- The parity error that ERRINJ kind 2 or 3 injects into an LD (R225). -/
def injectParity (addr : Nat) (l : Loc) : M Unit := do
  let s ← get
  let c := s.ctx s.issue.core s.issue.ctx
  let hit := (c.injects 2 && addr / 2 ^ 24 == 0)
    || (c.injects 3 && addr / 2 ^ 24 != 0 && (match l with | .pad .. => true | _ => false))
  if hit && !s.issue.ign.contains 10 then trapWith 10 (localLine addr) else pure ()

/-- What the load that issues has read so far. -/
def State.readSoFar (s : State) : List Loaded := (s.ctx s.issue.core s.issue.ctx).loaded.filter (fun x => x.seq == s.issue.seq)
/-- A part of it. -/
def partOf (l : List Loaded) (p : Nat) : Option Loaded := l.find? (fun x => x.part == p)
/-- The load forgets what it has read. -/
def forgetRead : M Unit := modCtx (fun c => { c with loaded := [] })

/-- The place 8 bytes on. -/
def Loc.high (l : Loc) : Loc :=
  match l with
  | .tcm off => .tcm (off + 8)
  | .pad off cls owner win woff => .pad (off + 8) cls owner win (woff + 8)
  | l => l

/-- n bytes read from a place. 16 bytes are two accesses of 8 (R109): the low one is read in a step of its own. -/
def localRead (l : Loc) (n : Nat) : M Nat := do
  let s ← get
  let c := s.issue.core
  if n ≠ 16 then pure (s.lreadAt c l n)
  else match partOf s.readSoFar 0 with
    | none => stallFor [.loadPart c s.issue.ctx s.issue.seq 0 (s.lreadAt c l 8)]
    | some x => do
      forgetRead
      pure (x.value + 2 ^ 64 * s.lreadAt c l.high 8)

/-- LD (R187). -/
def execLd (d b : BitVec 6) (o : BitVec 9) (z : BitVec 3) (s : State) : Host.Outcome State Fault Refusal :=
  run (.ld d b o z) false (loadBad d b z) (do
    let n := 2 ^ z.toNat
    let a := s.localAddr b o z.toNat
    fenceFirst
    let l ← localAccess a n
    let m := s.localMark s.issue.core l a n
    if d = 57 ∨ d = 63 then pure () else checkMark a l n
    injectParity a l
    checkParity a l n
    let v ← localRead l n
    if m.isSome ∧ d ≠ 57 then pure () else loadResult d n v m) s

/-- A local store issued: it stands in the store path of its context until it is performed (R108, R112); one to a window that is
not configured is dropped (R74). -/
def localStore (l : Loc) (n v : Nat) (w : After → Nat → After) : M Unit :=
  if l = .unconf then pure ()
  else do
    let h ← holdStore l n v w
    modCtx (fun c => { c with stores := c.stores ++ h.toList })
    modify (fun s => s.pend [.storeWrite s.issue.core s.issue.ctx])

/-- ST (R187). -/
def execSt (d b : BitVec 6) (o : BitVec 9) (z : BitVec 3) (s : State) : Host.Outcome State Fault Refusal :=
  run (.st d b o z) false (storeBad d b z) (do
    let n := 2 ^ z.toNat
    let a := s.localAddr b o z.toNat
    let v ← ahPop d
    let l ← localAccess a n
    localStore l n (v.toNat % 2 ^ (8 * n)) (storeAfter s.kind (Nat.min s.scope (localReach a)) s.issue.seq)
    fenceAfter) s

/-! ### LDG, STG (R77, R178, R187) -/

/-- The checks of a global address before its translation; true when an ignored cause withholds the access. -/
def globalChecks (a : W64) (n : Nat) : M Bool := do
  let s ← get
  if a.toNat % n ≠ 0 then
    if s.issue.ign.contains 5 then pure true else do trapWith 5 a; pure true
  else pure false

/-- The parts in which n bytes travel (R109): 16 bytes are two accesses of 8. -/
def partsOf (n : Nat) : List Nat := if n = 16 then [0, 1] else [0]

/-- What an LDG has read, once each of its parts has come back. -/
def State.allRead (s : State) (n : Nat) : Option (Nat × Option Mark) :=
  let l := s.readSoFar
  if (partsOf n).all (fun p => (partOf l p).isSome) then
    some ((l.map (fun x => x.value * 2 ^ (64 * x.part))).sum, l.findSome? (fun x => x.mark))
  else none

/-- LDG (R187): once its checks have passed it sends its requests, and it completes when they have been performed at the home
(R121). -/
def execLdg (d b : BitVec 6) (o : BitVec 9) (z : BitVec 3) (s : State) : Host.Outcome State Fault Refusal :=
  run (.ldg d b o z) false (loadBad d b z) (do
    let n := 2 ^ z.toNat
    let a := s.globalAddr b o z.toNat
    match s.allRead n with
    | some (v, none) => do forgetRead; loadResult d n v none
    | some (v, some m) =>
      if d = 57 then do forgetRead; loadResult d n v (some m)
      else if d = 63 ∨ s.issue.ign.contains 9 then forgetRead
      else throw (.trap 9 m.line m.committed)
    | none =>
      fenceFirst
      if ← globalChecks a n then loadResult d n 0 none
      else
        let t ← get
        let c := t.issue.core
        let v := t.tenantOf c
        match t.xlate v a .read with
        | .fault k => if t.issue.ign.contains k then loadResult d n 0 none else trapWith k a
        | .wait => stallFor [.pageBringUp v (a.toNat / 2 ^ 16)]
        | .ok _ cls _ =>
          if cls = 1 ∧ (t.ctx c t.issue.ctx).upset = 5 ∧ !t.issue.ign.contains 10 then trapWith 10 (w64 (alignTo 64 a.toNat))
          else stallFor [.loadSend c t.issue.ctx t.issue.seq a n, .globalAccessPerformed c]) s

/-- A global store of the issuing context: posted, or a line delta (R82, R86-R88). -/
def globalStore (a : W64) (n v : Nat) (w : After → Nat → After) : M Unit := do
  let t ← get
  let c := t.issue.core
  match t.gprepare c (t.tenantOf c) a with
  | .error none => stallFor [.pageBringUp (t.tenantOf c) (a.toNat / 2 ^ 16)]
  | .error (some f) => if t.issue.ign.contains f.1 then pure () else trapWith f.1 f.2
  | .ok (.posted, u) =>
    let id := (u.core c).accesses
    let g : GReq := { ctx := t.issue.ctx, id := id, seq := t.issue.seq, addr := a, size := n, data := BitVec.ofNat 128 v,
                      after := w (t.ctx c t.issue.ctx).point id }
    set ((u.modCore c (fun co => { co with accesses := id + 1, gstores := co.gstores ++ [g] })).pend [.globalAccessPerformed c])
  | .ok (.delta _, u) =>
    let r := u.takeSeq c
    set (r.2.emitLine c r.1 (.page (t.tenantOf c) (w64 (alignTo 64 a.toNat))) (a.toNat % 64) n v)

/-- STG (R187). -/
def execStg (d b : BitVec 6) (o : BitVec 9) (z : BitVec 3) (s : State) : Host.Outcome State Fault Refusal :=
  run (.stg d b o z) false (storeBad d b z) (do
    let n := 2 ^ z.toNat
    let a := s.globalAddr b o z.toNat
    let v ← ahPop d
    if ← globalChecks a n then pure ()
    else do
      modCtx (fun c => c.lend s.kind s.scope (s.core s.issue.core).accesses)
      globalStore a n (v.toNat % 2 ^ (8 * n)) (storeAfter s.kind (Nat.min s.scope globalReach) s.issue.seq)
    fenceAfter) s

/-! ### LATM (R188) -/

/-- The new value of an atomic operation on n bits, none for a failed compare; c is the compared value. -/
def atomOp (op n old v c : Nat) : Option Nat :=
  match op with
  | 0 => some v
  | 1 => some (IntOp.add.eval n old v)
  | 2 => some (IntOp.and.eval n old v)
  | 3 => some (IntOp.or.eval n old v)
  | 4 => some (IntOp.xor.eval n old v)
  | 5 => some (IntOp.min.eval n old v)
  | 6 => some (IntOp.max.eval n old v)
  | 7 => some (IntOp.minu.eval n old v)
  | 8 => some (IntOp.maxu.eval n old v)
  | _ => if old % 2 ^ n = c % 2 ^ n then some v else none

/-- LATM (R188). -/
def execLatm (d b : BitVec 6) (p : BitVec 4) (z : BitVec 3) (s : State) : Host.Outcome State Fault Refusal :=
  run (.latm d b p z) false (!xOrZero b || !xOnly d || (p == 9 && !(decide (1 ≤ d.toNat) && decide (d.toNat ≤ 30)))) (do
    let n := 2 ^ z.toNat
    let a := (s.xval b).toNat % 2 ^ 32
    fenceFirst
    if 2 ≤ s.kind then releaseNow (Nat.min s.scope (localReach a)) else passPoint true
    let v := (← xget d).toNat % 2 ^ (8 * n)
    let c := (← xget (d + 1)).toNat % 2 ^ (8 * n)
    let l ← localAccess a n
    checkMark a l n
    checkParity a l n
    let t ← get
    let old := t.lreadAt t.issue.core l n
    if (t.localMark t.issue.core l a n).isSome then fenceAfter
    else do
      match atomOp p.toNat (8 * n) old v c with
      | some w => localWrite l n (w % 2 ^ (8 * n))
      | none => pure ()
      xset d (sext (8 * n) old)
      fenceAfter) s

/-! ### Fences (R112, R113, R119) -/

/-- FENCE (R112): its release part marks the point that later stores of the context wait for; its acquire part has nothing to
wait for, because a load of the model has been performed when it has issued. -/
def execFence (sc k : BitVec 3) (s : State) : Host.Outcome State Fault Refusal :=
  let bad := !(k == 1 || k == 2 || k == 3) || decide (5 < sc.toNat)
  run (.fence sc k) false false (do
    require (!bad) 3 0
    if k = 2 ∨ k = 3 then modCtx (fun c => { c.lend 2 sc.toNat (s.core s.issue.core).accesses with point := { c.point.release sc.toNat (s.core s.issue.core).accesses 0 with eh := 0 } })
    else pure ()) s

/-- FENCE.SC (R113): it opens the fence, which holds every later instruction of the context. -/
def execFenceSc (sc : BitVec 3) (s : State) : Host.Outcome State Fault Refusal :=
  run (.fenceSc sc) false false (do
    require (decide (sc.toNat ≤ 5)) 3 0
    openFence sc.toNat) s

/-- FENCE.BANK (R119): earlier accesses performed, earlier near-bank commands of the context complete and their results
written. -/
def execFenceBank (s : State) : Host.Outcome State Fault Refusal :=
  run .fenceBank false false (do
    settled false
    let t ← get
    awaitFor ((t.core t.issue.core).banks.all (fun b => b.ctx != t.issue.ctx || (b.state == 3 && b.out.isEmpty)))
      ((t.core t.issue.core).banks.map (fun b => .bankWrite t.issue.core b.id))) s

/-! ### Lanes (R121) -/

/-- The home of a global address of core c, as far as its translation says. -/
def State.reqHome (s : State) (c : Nat) (a : W64) : Nat :=
  match s.pte (s.tenantOf c) a with | some (e, _) => homeDie (pteFrame e % 2 ^ 24 * 65536) | none => 4
/-- Two requests of core c travel to one home in one lane. -/
def State.sameLane (s : State) (c : Nat) (a b : W64) : Bool := reqLane a.toNat == reqLane b.toNat && s.reqHome c a == s.reqHome c b
/-- A request of core c to the home and lane of an address is on its way. -/
def State.laneBusy (s : State) (c : Nat) (a : W64) : Bool := (s.core c).gstores.any (fun g => s.sameLane c g.addr a)
/-- The requests of core c that may be performed: none of its home and lane is older, and what they wait for is done
(R111, R112). -/
def State.requestsFree (s : State) (c : Nat) : List GReq :=
  let l := (s.core c).gstores
  l.filter (fun g => s.afterDone c g.ctx g.after && !l.any (fun h => decide (h.id < g.id) && s.sameLane c h.addr g.addr))

/-! ### The steps of accesses that take several (R108, R109, R111, R113, R121) -/

/-- A load that still stands in the AH of its context. -/
def State.awaitsLoad (s : State) (c k seq : Nat) : Bool := (s.ctx c k).active && (s.ctx c k).ah.any (fun x => x.iss.seq == seq)

/-- A part of a load has been read. -/
def State.loadPart (s : State) (c k seq part value : Nat) (mark : Option Mark) : State :=
  if s.awaitsLoad c k seq then
    s.modCtx c k (fun x => { x with loaded := x.loaded.filter (fun y => y.seq == seq && y.part != part) ++ [{ seq := seq, part := part, value := value, mark := mark }] })
  else s

/-- An LDG sends the requests that are neither on their way nor performed (R121). -/
def State.loadSend (s : State) (c k seq : Nat) (a : W64) (n : Nat) : State :=
  if s.awaitsLoad c k seq then
    let parts := (partsOf n).filter (fun p => (partOf ((s.ctx c k).loaded.filter (fun x => x.seq == seq)) p).isNone
      && !(s.core c).gstores.any (fun g => g.load && g.ctx == k && g.seq == seq && g.part == p))
    let id := (s.core c).accesses
    (s.modCore c (fun co => { co with accesses := id + parts.length, gstores := co.gstores ++ parts.zipIdx.map (fun p =>
      { ctx := k, id := id + p.2, seq := seq, addr := a + w64 (8 * p.1), size := Nat.min n 8, load := true, part := p.1 }) })).pend
      (if parts.isEmpty then [] else [.globalAccessPerformed c])
  else s

/-- The FENCE.SC before an access opens (R111). -/
def State.scStart (s : State) (c k scope seq : Nat) : State :=
  if s.awaitsLoad c k seq && (s.ctx c k).sc.isNone && (s.ctx c k).scPass != some seq then
    (s.modCtx c k (fun x => { x with sc := some { seq := seq, scope := scope, before := true } })).pend [.scFence c k]
  else s

/-- Every access of a context before program order seq has been performed. -/
def State.accessesDone (s : State) (c k seq : Nat) : Bool :=
  (s.ctx c k).unwritten.isEmpty && (s.core c).gstores.all (fun g => g.ctx != k) && !s.owed c k
    && !(s.ctx c k).eh.any (fun sl => decide (sl.iss.seq < seq) && ehAccess sl.instr)

/-- Margin(Scope) in ticks of 10 ns (R113): 4 ns and 50 ns, whole ticks of the heartbeat time that the model keeps. -/
def scMargin (scope : Nat) : Nat := if scope = 5 then 5 else 1

/-- An open FENCE.SC goes on (R113): T is the first tick after the last access has been performed; when T and the margin have
passed, the context has its SC position. None while it waits. -/
def State.scFence (s : State) (c k : Nat) : Option State :=
  match (s.ctx c k).sc with
  | none => none
  | some f =>
    match f.tick with
    | none =>
      if s.accessesDone c k f.seq then
        some ((s.modCtx c k (fun x => { x with sc := some { f with tick := some (s.hbt + 1) } })).pend [.scFence c k])
      else none
    | some t =>
      if s.hbt < t + scMargin f.scope then none
      else some (s.modCtx c k (fun x =>
        { x with sc := none, scPass := if f.before then some f.seq else x.scPass,
                 scPos := some { tick := t, dev := s.plat.devNo.toNat, gcid := s.gcid c, ctx := k } }))

/-! ### SC positions (R114) -/

/-- SC positions are ordered by tick, then device, then core, then context (R114). -/
def ScPos.lt (a b : ScPos) : Bool :=
  decide (a.tick < b.tick) || (a.tick == b.tick && (decide (a.dev < b.dev) || (a.dev == b.dev &&
    (decide (a.gcid < b.gcid) || (a.gcid == b.gcid && decide (a.ctx < b.ctx))))))

end Sys2Proof.Machine
end

