-- ==== Sys2Proof/Machine/Walkers.lean ====
section
/-!
DEFINITION. The walker instructions (08 R190, R192) and the two steps walkers take by themselves: fetching ahead and
writing held elements (R191).
-/

namespace Sys2Proof.Machine

open Sys2Proof

/-! ### Descriptors in local memory -/

/-- n bytes of local memory as 64-bit words, read as one access (R178, R73). -/
def descRead (addr n : Nat) : M (List W64) := do
  let l ← localAccess (alignTo n (addr % 2 ^ 32)) n
  checkMark (alignTo n (addr % 2 ^ 32)) l n
  checkParity addr l n
  let s ← get
  let v := s.lreadAt s.issue.core l n
  return (List.range (n / 8)).map (fun i => w64 (v >>> (64 * i)))

/-- Word i of a descriptor. -/
def wd (l : List W64) (i : Nat) : W64 := l.getD i 0

/-! ### WCFG -/

/-- The walker a pattern describes (R190). -/
def walkerOfPattern (l : List W64) : Walker :=
  { base := (wd l 0).setWidth 32, esize := BitVec.ofNat 3 (bf (wd l 0) 32 3), store := bit (wd l 0) 35,
    c0 := (wd l 1).setWidth 24, s0 := BitVec.ofNat 32 (bf (wd l 1) 32 32),
    c1 := (wd l 2).setWidth 24, s1 := BitVec.ofNat 32 (bf (wd l 2) 32 32),
    c2 := (wd l 3).setWidth 24, s2 := BitVec.ofNat 32 (bf (wd l 3) 32 32), index := wd l 4 }

/-- A pattern that WCFG refuses (R192). -/
def patternBad (l : List W64) : Bool :=
  let w := walkerOfPattern l
  bf (wd l 0) 36 28 != 0 || bf (wd l 1) 24 8 != 0 || bf (wd l 2) 24 8 != 0 || bf (wd l 3) 24 8 != 0
    || wd l 5 != 0 || wd l 6 != 0 || wd l 7 != 0 || decide (4 < w.esize.toNat) || w.c0 == 0 || w.c1 == 0 || w.c2 == 0
    || decide (2 ^ 63 ≤ w.count) || decide (w.count < w.index.toNat)

/-- Walker w stops (R192): a store walker's held elements are written first. -/
def stopWalker (w : Nat) : M Unit := do
  let s ← get
  awaitFor (s.walker w).held.isEmpty [.walkerStoreWrite s.issue.core s.issue.ctx w]
  modWalker w (fun k => { k with fetched := 0, active := false })

/-- WCFG (R192). -/
def execWcfg (a : BitVec 6) (n : BitVec 3) (s : State) : Host.Outcome State Fault Refusal :=
  run (.wcfg a n) false (!xOnly a) (do
    let l ← descRead (s.xval a).toNat 64
    if patternBad l then illegalOperand
    else do
      stopWalker n.toNat
      modWalker n.toNat (fun _ => walkerOfPattern l)) s

/-- WSTART (R192). -/
def execWstart (n : BitVec 3) (s : State) : Host.Outcome State Fault Refusal :=
  run (.wstart n) false false (do
    modWalker n.toNat (fun k => { k with active := true })
    modify (fun s => if (s.walker n.toNat).store then s else s.pend [.walkerFetch s.issue.core s.issue.ctx n.toNat])) s

/-- WSTOP (R192). -/
def execWstop (n : BitVec 3) (s : State) : Host.Outcome State Fault Refusal := run (.wstop n) false false (stopWalker n.toNat) s

/-- The word WFLAGS reports (R192). -/
def Walker.flags (w : Walker) : W64 :=
  w64 (b2n w.e0 + 2 * b2n w.e1 + 4 * b2n w.e2 + 8 * b2n w.spent + 16 * b2n w.active + 32 * b2n w.store)

/-- WFLAGS (R192): it issues after every earlier instruction of the EH. -/
def execWflags (d : BitVec 6) (n : BitVec 3) (s : State) : Host.Outcome State Fault Refusal :=
  run (.wflags d n) false (!xOrZero d) (xset d (s.walker n.toNat).flags) s

/-- WPOS (R192): the new index is read before the old one is written. -/
def execWpos (d a : BitVec 6) (f : BitVec 1) (n : BitVec 3) (s : State) : Host.Outcome State Fault Refusal :=
  let k := s.walker n.toNat
  run (.wpos d a f n) false (!xOrZero d || (f == 1 && (!xOnly a || decide (k.count < (s.xval a).toNat)))) (do
    xset d k.index
    if f = 1 then
      modWalker n.toNat (fun k => { k with index := s.xval a, e0 := false, e1 := false, e2 := false, spent := false, fetched := 0 })
    else pure ()) s

/-! ### The walkers' own steps (R191) -/

/-- A load walker fetches one element ahead: at most 8, inside the pattern, where no window, scoreboard entry or held
element makes it wait. -/
def State.walkerFetch (s : State) (c k w : Nat) : Option State :=
  let wk := tget (s.ctx c k).walkers w {}
  let e := wk.index.toNat + wk.fetched
  if (s.ctx c k).active && wk.active && !wk.store && decide (wk.fetched < 8) && decide (e < wk.count) then
    let l := s.locate c (wk.addr e) wk.size
    match l with
    | .absent _ _ => none
    | _ =>
      if (s.core c).busy l wk.size || s.heldOver c k l wk.size then none
      else
        some (s.modCtx c k (fun x => { x with walkers := tmod x.walkers w {} (fun y => { y with fetched := y.fetched + 1 }) }))
  else none

/-- WALKER_FETCH (R191). -/
def execWalkerFetch (c k w : Nat) (s : State) : Host.Outcome State Fault Refusal := event "WALKER_FETCH" (s.walkerFetch c k w)

/-- The elements that walker w of a context holds. -/
def State.walkerHeld (s : State) (c k w : Nat) : List Held := (tget (s.ctx c k).walkers w {}).held

/-- A write to this place is discarded and counted: an unconfigured window (R74) or a stage window (R81). -/
def Loc.discards (l : Loc) : Bool := match l with | .unconf => true | .pad _ cls _ _ _ => cls == 2 | _ => false

/-- What one step writes of a store, and what it leaves: 16 bytes are two accesses of 8 (05 R109), but a delta carries its
bytes in one line, and a write that is discarded counts once. How a 16-byte write to a stage window counts in STAGEW is a DESIGN
CHOICE of the model: once, as R74 counts UNCONF. See log 53. -/
def Held.split (h : Held) (c : Nat) : Held × Option Held :=
  if h.size = 16 ∧ !h.loc.isDelta c ∧ !h.loc.discards then
    ({ h with size := 8 }, some { h with size := 8, loc := h.loc.high, data := h.data >>> 64 })
  else (h, none)

/-- A store walker writes its oldest held element (R191), at the place, with the entry and with the sequence number taken at
its push, once nothing holds it back (05 R112). -/
def State.walkerWrite (s : State) (c k w : Nat) : Option State :=
  match s.walkerHeld c k w with
  | [] => none
  | h :: r =>
    if s.afterDone c k h.after then
      let p := h.split c
      some (((s.modCtx c k (fun x => { x with walkers := tmod x.walkers w {} (fun y => { y with held := p.2.toList ++ r }) })).writeHeld c p.1).pend
        (if p.2.isSome || !r.isEmpty then [.walkerStoreWrite c k w] else []))
    else none

/-- The local stores in a context's store path that may be performed (05 R108, R112): no earlier one of the path touches
their bytes, and what they wait for is done. -/
def State.storesFree (s : State) (c k : Nat) : List Held :=
  let l := (s.ctx c k).stores
  l.filter (fun h => s.afterDone c k h.after && !l.any (fun g => decide (g.id < h.id) && touches h.loc h.size g.loc g.size))

/-- A local store of a context is performed (05 R108): which of those that may be is a free value. -/
def State.storeWrite (s : State) (c k : Nat) : Option State :=
  let l := s.storesFree c k
  match l[Config.performChoice s.fresh % l.length]? with
  | none => none
  | some h =>
    let p := h.split c
    let left := (s.ctx c k).stores.flatMap (fun g => if g.id = h.id then p.2.toList else [g])
    let t := (s.modCtx c k (fun x => { x with stores := left })).writeHeld c p.1
    some (({ t with fresh := t.fresh + 1 }.nudge c).pend (if left.isEmpty then [] else [.storeWrite c k]))

/-- WALKER_STORE_WRITE (R191). -/
def execWalkerStoreWrite (c k w : Nat) (s : State) : Host.Outcome State Fault Refusal := event "WALKER_STORE_WRITE" (s.walkerWrite c k w)

end Sys2Proof.Machine
end

