-- ==== Sys2Proof/Machine/Windows.lean ====
section
/-!
DEFINITION. The window table as WINSET and WINGET reach it (04 R78, R79, 08 R199, R200), and the page-fetch elements
that fill stage windows (04 R99, R100, R103).
-/

namespace Sys2Proof.Machine

open Sys2Proof

/-! ### WINSET, WINGET -/

/-- A descriptor that WINSET refuses (R78). -/
def winBad (l : List W64) : Bool :=
  let e : Win := { w0 := wd l 0, w1 := wd l 1 }
  bf e.w0 21 3 != 0 || bf e.w0 37 27 != 0 || bf e.w1 55 9 != 0 || wd l 2 != 0 || wd l 3 != 0
    || (e.lsize != 0 && (decide (e.lsize < 12) || decide (22 < e.lsize))) || e.cls == 3 || decide (2 ≤ e.state)

/-- A WINSET of superstep 0 before its context's first slot-0 BAR: at once (R79). Of two by different cores to one entry,
a free value says which stays. See log 19. -/
def State.winsetNow (s : State) (c win : Nat) (e : Win) : State :=
  let k := clusterOf c
  match tfind (s.cluster k).instant win with
  | some o =>
    if o ≠ c then
      let t := { s with fresh := s.fresh + 1 }
      if Config.winsetFirst s.fresh then t
      else t.modCluster k (fun x => { x with wins := tput x.wins win e, instant := tput x.instant win c })
    else s.modCluster k (fun x => { x with wins := tput x.wins win e })
  | none => s.modCluster k (fun x => { x with wins := tput x.wins win e, instant := tput x.instant win c })

/-- A WINSET that waits for the commit (R79). See log 19. -/
def State.winsetLater (s : State) (c win : Nat) (e : Win) : State :=
  s.modCluster (clusterOf c) (fun x => { x with
    pending := x.pending ++ [{ core := c, order := x.pendCount, win := win, entry := e }], pendCount := x.pendCount + 1 })

/-- The context's WINSETs take effect at once (R79). -/
def State.winsetsAtOnce (s : State) : Bool :=
  (match s.domOf s.issue.core with | some d => d.ssn == 0 | none => true) && !(s.ctx s.issue.core s.issue.ctx).barred

/-- A window number of an operand. -/
def winOk (v : W64) : Bool := decide (1 ≤ v.toNat) && decide (v.toNat ≤ 255)

/-- WINSET (R199). -/
def execWinset (a b : BitVec 6) (s : State) : Host.Outcome State Fault Refusal :=
  run (.winset a b) false (!xOnly a || !xOnly b || !winOk (s.xval a)) (do
    let l ← descRead (s.xval b).toNat 32
    if winBad l then illegalOperand
    else do
      let e : Win := { w0 := wd l 0, w1 := wd l 1 }
      let t ← get
      let c := t.issue.core
      if t.winsetsAtOnce then set (t.winsetNow c (s.xval a).toNat e)
      else if (t.cluster (clusterOf c)).pending.length < Config.winsetEntries then set (t.winsetLater c (s.xval a).toNat e)
      else if t.issue.ign.contains 12 then pure ()
      else trapWith 12 0) s

/-- WINGET (R200). -/
def execWinget (d a : BitVec 6) (k : BitVec 2) (s : State) : Host.Outcome State Fault Refusal :=
  run (.winget d a k) false (!xOrZero d || !xOnly a || !winOk (s.xval a)) (do
    let e := tget (s.cluster (clusterOf s.issue.core)).wins (s.xval a).toNat {}
    xset d (match k.toNat with | 0 => e.w0 | 1 => e.w1 | _ => 0)) s

/-! ### Page-fetch elements (R99) -/

/-- The element as one number. -/
def Elem.value (e : Elem) : Nat := (e.words.zipIdx.map (fun p => p.1.toNat * 2 ^ (64 * p.2))).sum
def Elem.skip (e : Elem) : Bool := e.value.testBit 0
def Elem.next (e : Elem) : Nat := e.value / 2 ^ 3 % 2 ^ 50 * 32
def Elem.src (e : Elem) : Nat := e.value / 2 ^ 53 % 2 ^ 49 * 64
def Elem.pred (e : Elem) : Nat := e.value / 2 ^ 102 % 2 ^ 53 * 4
def Elem.doff (e : Elem) : Nat := e.value / 2 ^ 163 % 2 ^ 16 * 64
def Elem.rowLen (e : Elem) : Nat := let v := e.value / 2 ^ 179 % 2 ^ 12; 64 * (if v = 0 then 4096 else v)
def Elem.rows (e : Elem) : Nat := let v := e.value / 2 ^ 191 % 2 ^ 12; if v = 0 then 4096 else v
def Elem.stride (e : Elem) : Nat := e.value / 2 ^ 203 % 2 ^ 20 * 64
def Elem.cmp (e : Elem) : Nat := e.value / 2 ^ 223 % 2 ^ 32
/-- A reserved bit is set. -/
def Elem.reserved (e : Elem) : Bool := e.value / 2 % 4 != 0 || e.value.testBit 255

/-- n bytes of committed memory as an engine of core c reads them for tenant v; translations and scrubs are taken up
where the bytes are used. -/
def State.peek (s : State) (c v : Nat) (a : W64) (n : Nat) : Except EStop Nat :=
  match s.xlate v a .read with
  | .fault k => .error (.fault k a)
  | .wait => .error (.wait [.pageBringUp v (a.toNat / 2 ^ 16)])
  | .ok phys _ _ =>
    let t := (s.lookup c v a false).scrubLine phys
    if t.poisonAt phys then .error (.fault 9 (w64 (alignTo 64 a.toNat))) else .ok (t.greadAt phys n)

/-- The element at an address. -/
def State.elemAt (s : State) (c v : Nat) (a : Nat) : Except EStop Elem :=
  match (List.range 4).mapM (fun i => s.peek c v (w64 (a + 8 * i)) 8) with
  | .ok l => .ok { addr := w64 a, words := l.map w64 }
  | .error e => .error e

/-- The elements of a chain from an address, at most fuel of them (R100): an element that cannot be read ends it, and
makes the element before it, or the head, faulty. The last of 65,536 is marked. See log 18. -/
def State.walkChain (s : State) (c v a fuel : Nat) : Except (List Chore) (List Elem) :=
  match fuel with
  | 0 => .ok []
  | n + 1 =>
    match s.elemAt c v a with
    | .error (.wait l) => .error l
    | .error (.fault _ _) => .ok []
    | .ok e =>
      let e := { e with last := n == 0 }
      if e.next = 0 then .ok [e]
      else match s.walkChain c v e.next n with
        | .error l => .error l
        | .ok r => .ok (e :: r)

/-- What the copy unit finds when it looks at an element (R103). -/
inductive ElemCheck where
  /-- a format error or a translation fault: its cause of R226 and address -/
  | fault (cause : Nat) (addr : W64)
  | wait (l : List Chore)
  /-- the predicate holds: nothing is copied -/
  | skipped
  | copy
  deriving DecidableEq, Repr

/-- The addresses of the source lines of an element. -/
def Elem.lines (e : Elem) : List Nat :=
  (List.range e.rows).flatMap (fun j => (List.range (e.rowLen / 64)).map (fun i => e.src + j * e.stride + 64 * i))

/-- The first line of a list that cannot be read. -/
def State.unreadable (s : State) (c v : Nat) (l : List Nat) : Option EStop :=
  match l with
  | [] => none
  | a :: r => match s.peek c v (w64 a) 8 with | .error e => some e | .ok _ => s.unreadable c v r

/-- The look-ups of reads of a tenant's addresses by an engine of core c, up to one that does not translate (R369). -/
def State.lookups (s : State) (c v : Nat) (l : List Nat) : State :=
  match l with
  | [] => s
  | a :: r => match s.xlate v (w64 a) .read with | .ok _ _ _ => (s.lookup c v (w64 a) false).lookups c v r | _ => s

/-- The look-ups of what the check of an element reads: the next element, the predicate word and the source lines; a format
error (cause 1) comes before them. -/
def State.elemLooks (s : State) (ch : Chain) (e : Elem) (cause : Nat) : State :=
  if cause = 1 ∨ e.words.isEmpty then s
  else
    let skips := match s.peek ch.core ch.vf (w64 e.pred) 4 with | .ok p => e.skip && p == e.cmp | .error _ => false
    s.lookups ch.core ch.vf ((if e.next ≠ 0 ∧ !e.last then [e.next] else []) ++ (if e.skip then [e.pred] else []) ++ (if skips then [] else e.lines))

/-- The checks of an element of a chain (R103), and its predicate. A head that cannot be read stands as an element
without words. -/
def State.elemCheck (s : State) (ch : Chain) (e : Elem) : ElemCheck :=
  let of : Option EStop → ElemCheck → ElemCheck := fun o d => match o with
    | some (.fault k a) => .fault k a
    | some (.wait l) => .wait l
    | none => d
  if e.words.isEmpty then
    match s.elemAt ch.core ch.vf e.addr.toNat with
    | .error (.fault k a) => .fault k a
    | .error (.wait l) => .wait l
    | .ok _ => .fault 6 e.addr
  else
    let w := tget (s.cluster (clusterOf ch.core)).wins e.dwin {}
    if e.reserved || e.dwin == 0 || w.lsize == 0 || w.cls != 2 then .fault 1 0
    else
      of (if e.next ≠ 0 ∧ !e.last then (match s.elemAt ch.core ch.vf e.next with | .error x => some x | .ok _ => none) else none)
        (match (if e.skip then s.peek ch.core ch.vf (w64 e.pred) 4 else .ok (e.cmp + 1)) with
          | .error (.fault k a) => .fault k a
          | .error (.wait l) => .wait l
          | .ok p => if p = e.cmp then .skipped else of (s.unreadable ch.core ch.vf e.lines) .copy)

/-- A chain of the open superstep waits for those of its core from committed ones (R100). -/
def Team.heldBack (t : Team) (h : Chain) : Bool := h.fresh && t.chains.any (fun x => x.core == h.core && !x.fresh)

/-- The next page-fetch element of a team: the promoted one, else the first that has not started (R100, R74). -/
def Team.nextElem (t : Team) : Option (Chain × Elem) :=
  let open_ := (t.chains.filter (fun c => !c.dead && !t.heldBack c)).flatMap (fun c => (c.elems.filter (fun e => !e.started)).map (fun e => (c, e)))
  match t.promoted.bind (fun a => open_.find? (fun p => p.2.id == a)) with
  | some p => some p
  | none => open_.head?

end Sys2Proof.Machine
end

