-- ==== Sys2Proof/Machine/Copies.lean ====
section
/-!
DEFINITION. The team copy unit: CPY, CPYW and RCPY (04 R92-R94, 08 R194-R198), SSWEEP (10 R261, R262), the moves of a
copy and its events; and the ring positions a copy fills or drains (04 R95-R97).
-/

namespace Sys2Proof.Machine

open Sys2Proof

/-! ### Rings as the copy unit and the contexts use them (R95-R97) -/

/-- Slot bytes. -/
def Ring.slotBytes (r : Ring) : Nat := 2 ^ r.lslot
/-- The size of a window of core c: an unconfigured one counts as the reach of an offset. -/
def State.windowSize (s : State) (c win : Nat) : Nat :=
  if win = 0 then 65536 else
    let l := (tget (s.cluster (clusterOf c)).wins win {}).lsize
    if l = 0 then 2 ^ 24 else 2 ^ l
/-- A local address plus a displacement, wrapped within its window (R73). -/
def State.localPlus (s : State) (c : Nat) (a : Nat) (d : Int) : Nat :=
  let win := a / 2 ^ 24 % 256
  win * 2 ^ 24 + wrap 24 ((a % 2 ^ 24 : Nat) + d) % s.windowSize c win
/-- Local address of home slot i. -/
def State.homeSlot (s : State) (c : Nat) (r : Ring) (i : Nat) : Nat := s.localPlus c r.base.toNat (i * r.slotBytes : Nat)

/-- Buffer-table entries in use: one per home slot and one per borrowed slot (R96). -/
def Core.bufferUsed (c : Core) : Nat := (c.rings.map (fun p => p.2.cap + (p.2.slots.filter (fun x => x.borrowed)).length)).sum
/-- A ring handle is configured. -/
def Core.ring (c : Core) (h : Nat) : Option Ring := tfind c.rings h

/-- The free blocks of the ring pool for slots of n bytes, the lowest first (R97). -/
def Core.poolBlocks (c : Core) (n : Nat) : List Nat :=
  let lo := 256 * bf c.tcmcfg 16 8
  let hi := lo + 256 * bf c.tcmcfg 24 8
  let taken := c.rings.flatMap (fun p => (p.2.slots.filter (fun x => x.borrowed)).map (fun x => (x.addr, p.2.slotBytes)))
  let first := (lo + n - 1) / n
  ((List.range (hi / n - first)).map (fun i => (first + i) * n)).filter (fun a =>
    taken.all (fun t => decide (t.1 + t.2 ≤ a) || decide (a + n ≤ t.1)))
/-- The lowest of them. -/
def Core.poolBlock (c : Core) (n : Nat) : Option Nat := (c.poolBlocks n).head?

/-- The slot the next position of a ring takes (R97): its address and whether it is borrowed. A home slot is free when no
position in use has its index. -/
def State.nextSlot (s : State) (c : Nat) (r : Ring) : Option (Nat × Bool) :=
  let home := s.homeSlot c r r.home
  if !r.slots.any (fun x => !x.borrowed && x.index == r.home) then some (home, false)
  else if r.elastic && decide ((r.slots.filter (fun x => x.borrowed)).length < r.plim)
      && decide ((s.core c).bufferUsed < Config.bufferEntries) then
    ((s.core c).poolBlock r.slotBytes).map (fun a => (a, true))
  else none

/-- A ring after its next position has taken a slot, in state filling. -/
def Ring.begin (r : Ring) (slot : Nat × Bool) : Ring :=
  { r with pnext := r.pnext + 1, home := if slot.2 then r.home else (r.home + 1) % r.cap,
           slots := r.slots ++ [{ pos := r.pnext, state := .filling, addr := slot.1, borrowed := slot.2, index := r.home }] }
/-- A position of a ring freed: a borrowed slot returns to the pool. -/
def Ring.free (r : Ring) (pos : Nat) : Ring := { r with slots := r.slots.filter (fun x => x.pos != pos) }
/-- The slot of a position. -/
def Ring.at (r : Ring) (pos : Nat) : Option RSlot := r.slots.find? (fun x => x.pos == pos)
/-- The lowest-numbered position in a state; positions stand in rising order. -/
def Ring.lowest (r : Ring) (st : RState) : Option RSlot := r.slots.find? (fun x => x.state == st)
/-! ### Descriptors (R194) -/

/-- Fields of a copy. -/
def Copy.sg (c : Copy) : Bool := bit c.src 63
def Copy.dg (c : Copy) : Bool := bit c.dst 63
def Copy.srcAddr (c : Copy) : Nat := bf c.src 0 55
def Copy.dstAddr (c : Copy) : Nat := bf c.dst 0 55

/-- The copy that a descriptor describes. -/
def copyOfDesc (l : List W64) : Copy :=
  { src := wd l 0, dst := wd l 1, len := bf (wd l 2) 0 24, rows := bf (wd l 2) 24 24,
    sstride := BitVec.ofNat 32 (bf (wd l 3) 0 32), dstride := BitVec.ofNat 32 (bf (wd l 3) 32 32) }

/-- A local side whose fields R195 forbids. -/
def localSideBad (a : W64) (stride : BitVec 32) (len : Nat) : Bool :=
  bf a 32 23 != 0 || bf a 0 32 % 8 != 0 || stride.toNat % 8 != 0 || len % 8 != 0
/-- A global side that is not aligned. -/
def globalSideBad (a : W64) (stride : BitVec 32) (len : Nat) : Bool :=
  bf a 0 55 % 8 != 0 || stride.toNat % 8 != 0 || len % 8 != 0
/-- The address of global row j, mod 2^64. -/
def rowGlobal (a : Nat) (stride : BitVec 32) (j : Nat) : W64 := w64 a + wi (stride.toInt * j)
/-- The first row of a global side whose address has bits [63:55] set. -/
def rowBad (a : W64) (stride : BitVec 32) (rows : Nat) : Option W64 :=
  if rows = 0 ∨ (0 ≤ stride.toInt ∧ bf a 0 55 + stride.toNat * (rows - 1) < 2 ^ 55) then none
  else ((List.range rows).find? (fun j => decide (bf (rowGlobal (bf a 0 55) stride j) 55 9 ≠ 0))).map (rowGlobal (bf a 0 55) stride)

/-- The descriptor checks of R195: reserved fields and local sides come before global sides (R428). A LEN with both
sides global breaks the global rule only. True when an ignored cause withholds the copy. -/
def checkCopy (d : Copy) (reserved : Bool) : M Bool := do
  require (!(reserved || bf d.src 55 8 != 0 || bf d.dst 55 8 != 0 || (!d.sg && localSideBad d.src d.sstride (if d.dg then 0 else d.len))
    || (!d.dg && localSideBad d.dst d.dstride (if d.sg then 0 else d.len)))) 2 0
  let a ← withheld (!(d.sg && globalSideBad d.src d.sstride d.len)) 5 (w64 d.srcAddr)
  let b ← withheld (!(d.dg && globalSideBad d.dst d.dstride d.len)) 5 (w64 d.dstAddr)
  let x := if d.sg then rowBad d.src d.sstride d.rows else none
  let y := if d.dg then rowBad d.dst d.dstride d.rows else none
  let e ← withheld x.isNone 6 (x.getD 0)
  let f ← withheld y.isNone 6 (y.getD 0)
  return a || b || e || f

/-! ### The bytes a copy touches -/

/-- Address of byte i of row j of a side, wrapped for a local one. -/
def State.sideAddr (s : State) (c : Nat) (g : Bool) (a : Nat) (stride : BitVec 32) (j i : Nat) : W64 :=
  if g then rowGlobal a stride j + w64 i else w64 (s.localPlus c a (stride.toInt * j + i))

/-- A number put into a rising list without repeats. -/
def insertNew (l : List Nat) (n : Nat) : List Nat :=
  match l with
  | [] => [n]
  | x :: r => if n < x then n :: x :: r else if n = x then x :: r else x :: insertNew r n

/-- The distinct 64-byte lines of a side, in increasing address (R89, R335). -/
def State.sideLines (s : State) (c : Nat) (g : Bool) (a : Nat) (stride : BitVec 32) (rows len : Nat) : List Nat :=
  (List.range rows).foldl (fun l j =>
    (List.range ((len + 7) / 8)).foldl (fun l i => insertNew l (alignTo 64 (s.sideAddr c g a stride j (8 * i)).toNat)) l) []

/-- The destination lines of a copy. See log 17. -/
def State.destLines (s : State) (c : Nat) (d : Copy) : List Nat :=
  match d.kind with
  | .sweep n _ => s.sideLines c d.dg d.dstAddr 0 1 (8 * n)
  | _ => s.sideLines c d.dg d.dstAddr d.dstride d.rows d.len

/-- A write to this line becomes a delta (R82, R89). -/
def State.deltaLine (s : State) (c : Nat) (g : Bool) (line : Nat) : Bool :=
  if g then match s.xlate (s.tenantOf c) (w64 line) .write with | .ok _ cls _ => cls == 1 | _ => false
  else (s.resolve c line 8).isDelta c

/-- The destination lines that travel as deltas, in increasing address. -/
def State.deltaLines (s : State) (c : Nat) (d : Copy) : List Nat := (s.destLines c d).filter (s.deltaLine c d.dg)

/-- The place of a number in a list. -/
def placeIn (l : List Nat) (n : Nat) : Nat := match l with | [] => 0 | x :: r => if x = n then 0 else placeIn r n + 1

/-- The resolved bytes of a local side as the scoreboard holds them, in 8-byte words, whatever the STATE of its window (R93). -/
def State.sideRange (s : State) (c : Nat) (a : Nat) (stride : BitVec 32) (rows len : Nat) : Bool × List (Nat × Nat) :=
  let spans := (List.range rows).flatMap (fun j => (List.range (len / 8)).filterMap (fun i =>
    (s.resolve c (s.sideAddr c false a stride j (8 * i)).toNat 8).span))
  (match spans with | x :: _ => x.1 | [] => false, spans.map (fun x => (x.2, 8)))

/-- The scoreboard entries a copy takes (R93), one for a local side of no resolved bytes too. -/
def State.copyRanges (s : State) (c : Nat) (d : Copy) (id : Nat) : List Range :=
  let dst := match d.kind with
    | .sweep n _ => s.sideRange c d.dstAddr 0 1 (8 * n)
    | _ => s.sideRange c d.dstAddr d.dstride d.rows d.len
  let src := match d.kind with
    | .sweep _ _ => (false, [])
    | _ => s.sideRange c d.srcAddr d.sstride d.rows d.len
  (if d.dg then [] else [{ id := id, dest := true, pad := dst.1, bytes := dst.2 }])
    ++ (if d.sg || (match d.kind with | .sweep _ _ => true | _ => false) then [] else [{ id := id, dest := false, pad := src.1, bytes := src.2 }])

/-- Two scoreboard entries share a byte. -/
def Range.meets (a b : Range) : Bool :=
  a.pad == b.pad && a.bytes.any (fun x => b.bytes.any (fun y => decide (x.1 < y.1 + y.2) && decide (y.1 < x.1 + x.2)))

/-- A copy waits for the entries of earlier copies of its core (R93). -/
def Core.copyBlocked (c : Core) (id : Nat) : Bool :=
  let earlier := (c.copies.takeWhile (fun x => x.id != id)).map (fun x => x.id)
  (c.ranges.filter (fun r => r.id == id)).any (fun r =>
    c.ranges.any (fun q => earlier.contains q.id && (r.dest || q.dest) && r.meets q))

/-! ### Issue (R86, R92-R95) -/

/-- Earlier accesses of the context to a copy's bytes are performed (R94), and, for a command with a flag whose scope takes
in the engine, every earlier access (R107, R118). -/
def copyOrder (d : Copy) : M Unit := do
  let s ← get
  let c := s.issue.core
  let x := s.ctx c s.issue.ctx
  passPoint true
  if d.flags ≠ 0 ∧ takesCore d.scope then settled true else pure ()
  awaitFor (!(d.sg || d.dg) || !s.mine) [.globalAccessPerformed c]
  awaitFor x.unwritten.isEmpty (s.storeChores c s.issue.ctx)
  let side (g : Bool) (a : Nat) (st : BitVec 32) (rows len : Nat) (dest : Bool) : Bool :=
    !g && (List.range rows).any (fun j => (List.range (len / 8)).any (fun i =>
      s.walkerAhead (s.locate c (s.sideAddr c false a st j (8 * i)).toNat 8) 8 dest))
  match d.kind with
  | .sweep n _ => await (!side d.dg d.dstAddr 0 1 (8 * n) true)
  | _ => await (!side d.sg d.srcAddr d.sstride d.rows d.len false && !side d.dg d.dstAddr d.dstride d.rows d.len true)

/-- Commands queued in the copy unit of a team (R195). -/
def State.copyQueued (s : State) (t : Nat) : Nat :=
  ((List.range 8).map (fun i => ((s.core (t * 8 + i)).copies.filter (fun x => !x.reusable)).length)).sum

/-- A copy takes its identifier (R92). -/
def takeCopyId : M Nat := do
  let id := (← getCore).copyNext
  modCore (fun c => { c with copyNext := (c.copyNext + 1) % 2 ^ 16 })
  return id

/-- The chores that bring a copy of core c to its events. -/
def copyChores (c : Nat) (d : Copy) : List Chore :=
  match d.kind with
  | .sweep _ _ => [.sweepComplete c d.id, .copyFault c d.id]
  | _ => [.copyReusable c d.id, .copyVisible c d.id, .copyFault c d.id]

/-- A checked copy handed to the copy unit: its waits, its version entries, its identifier and sequence numbers. The
identifier is answered. A copy of no bytes raises both events at once; so does one whose reservation containment told
the instruction to ignore. See log 16. -/
def issueCopy (d : Copy) (total : Nat) : M Nat := do
  if total = 0 then takeCopyId
  else do
    let s ← get
    let c := s.issue.core
    copyOrder d
    await (decide (s.copyQueued (teamOf c) < Config.copyQueue))
    let ranges := s.copyRanges c d (s.core c).copyNext
    awaitFor (decide ((s.core c).ranges.length + ranges.length ≤ Config.scoreboardEntries)) ((s.core c).copies.flatMap (copyChores c))
    match s.reserveAll c d.dg ((s.destLines c d).map w64) with
    | .error (.wait l) => stallFor l
    | .error (.fault k a) => if s.issue.ign.contains k then takeCopyId else do trapWith k a; pure 0
    | .ok t => do
      set t
      let id ← takeCopyId
      let n := (t.deltaLines c d).length
      let e : Copy := { d with id := id, ctx := t.issue.ctx, seq := (t.core c).seq, dc := (t.ctx c t.issue.ctx).dc }
      modCore (fun co => { co with seq := (co.seq + n) % 2 ^ 32, copies := co.copies ++ [e], ranges := co.ranges ++ ranges })
      modify (fun s => s.pend (copyChores c e))
      return id

/-- CPY (R195). -/
def execCpy (d a : BitVec 6) (s : State) : Host.Outcome State Fault Refusal :=
  run (.cpy d a) false (!xOrZero d || !xOnly a) (do
    let l ← descRead (s.xval a).toNat 32
    let k := { copyOfDesc l with flags := s.kind, scope := s.scope }
    let off ← checkCopy k (bf (wd l 2) 48 16 != 0)
    let id ← issueCopy k (if off then 0 else k.len * k.rows)
    xset d (w64 id)) s

/-- CPYW (R197). -/
def execCpyw (a : BitVec 6) (e : BitVec 2) (s : State) : Host.Outcome State Fault Refusal :=
  run (.cpyw a e) false (!xOrZero a) (do
    let c ← getCore
    match c.copies.find? (fun x => x.id == bf (s.xval a) 0 16) with
    | none => pure ()
    | some k => awaitFor (e == 1 && k.reusable) (copyChores s.issue.core k)) s

/-- RCPY (R198): in every respect but its slot a CPY of one row. -/
def execRcpy (d a : BitVec 6) (r : BitVec 1) (h : BitVec 4) (s : State) : Host.Outcome State Fault Refusal :=
  run (.rcpy d a r h) false (!xOrZero d || !xOnly a) (do
    let c := s.issue.core
    let side := s.xval a
    match (s.core c).ring h.toNat with
    | none => illegalOperand
    | some ring =>
      let n := ring.slotBytes
      let reserved := (if bit side 63 then bf side 55 8 else bf side 32 31) != 0
      if r = 0 then do
        require (ring.prod == 1) 2 0
        let off ← checkCopy { src := side, dst := w64 ring.base.toNat, len := n, rows := 1 } reserved
        match s.nextSlot c ring with
        | none => stallFor ((s.core c).copies.flatMap (copyChores c))
        | some slot => do
          let id ← issueCopy { src := side, dst := w64 slot.1, len := n, rows := 1, kind := .fill h.toNat ring.pnext,
                               flags := s.kind, scope := s.scope } (if off then 0 else n)
          if (← getCore).copies.any (fun x => x.id == id) then modify (fun t => t.modRing c h.toNat (fun g => g.begin slot)) else pure ()
          xset d (w64 id)
      else do
        require (ring.cons == 1) 2 0
        let off ← checkCopy { src := w64 ring.base.toNat, dst := side, len := n, rows := 1 } reserved
        match ring.at ring.cnext with
        | none => stallFor ((s.core c).copies.flatMap (copyChores c))
        | some slot => do
          awaitFor (slot.state == .full) ((s.core c).copies.flatMap (copyChores c))
          let id ← issueCopy { src := w64 slot.addr, dst := side, len := n, rows := 1, kind := .drain h.toNat ring.cnext,
                               flags := s.kind, scope := s.scope } (if off then 0 else n)
          if (← getCore).copies.any (fun x => x.id == id) then
            modify (fun t => t.modRing c h.toNat (fun g => { g.mark ring.cnext .draining with cnext := g.cnext + 1 }))
          else pure ()
          xset d (w64 id)) s

/-- SSWEEP (R261, R262): S and the decay constants are those of its issue. See log 17. -/
def execSsweep (d a b : BitVec 6) (s : State) : Host.Outcome State Fault Refusal :=
  run (.ssweep d a b) false (!xOrZero d || !xOnly a || !xOnly b) (do
    let x := s.xval a
    let n := (s.xval b).toNat
    let g := bit x 63
    let c := s.issue.core
    require (!(decide (2 ^ 32 < n) || (!g && (bf x 32 31 != 0 || bf x 0 32 % 8 != 0 || decide (s.windowSize c (bf x 24 8) < 8 * n))))) 2 0
    let o5 ← withheld (!(g && bf x 0 55 % 8 != 0)) 5 (w64 (bf x 0 55))
    let o6 ← withheld (!(g && n != 0 && decide (2 ^ 55 ≤ bf x 0 55 + 8 * (n - 1)))) 6 (w64 (alignTo (2 ^ 55) (bf x 0 55 + 8 * (n - 1))))
    let side := if g then w64 (2 ^ 63 + bf x 0 55) else w64 (bf x 0 32)
    let id ← issueCopy { src := side, dst := side, len := 8, rows := n, sstride := 8, dstride := 8,
                         kind := .sweep n (BitVec.ofNat 24 s.stamp24) } (if o5 || o6 then 0 else n)
    xset d (w64 id)) s

/-! ### Moving the bytes -/

/-- The words at a list of addresses of one side, read in order. -/
def State.readWords (s : State) (c : Nat) (g : Bool) (addrs : List W64) : Except EStop (List Nat × State) :=
  match addrs with
  | [] => .ok ([], s)
  | a :: r =>
    match s.eread c g a 8 with
    | .error e => .error e
    | .ok (v, t) =>
      match t.readWords c g r with
      | .error e => .error e
      | .ok (l, u) => .ok (v :: l, u)

/-- Words written to addresses of one side; a delta carries the sequence number of its line. -/
def State.writeWords (s : State) (c : Nat) (g : Bool) (seq : Nat) (lines : List Nat) (l : List (W64 × Nat)) : Except EStop State :=
  match l with
  | [] => .ok s
  | (a, v) :: r =>
    match s.ewrite c g a 8 v ((seq + placeIn lines (alignTo 64 a.toNat)) % 2 ^ 32) with
    | .error e => .error e
    | .ok t => t.writeWords c g seq lines r

/-- Addresses of the words of row j of a side. -/
def State.rowWords (s : State) (c : Nat) (g : Bool) (a : Nat) (stride : BitVec 32) (len j : Nat) : List W64 :=
  (List.range (len / 8)).map (fun i => s.sideAddr c g a stride j (8 * i))

/-- Row j of a copy moved: read whole, then written (R194); word j of a sweep rebased (R262). See log 16. -/
def State.moveRow (s : State) (c : Nat) (d : Copy) (lines : List Nat) (j : Nat) : Except EStop State :=
  match s.readWords c d.sg (s.rowWords c d.sg d.srcAddr d.sstride d.len j) with
  | .error e => .error e
  | .ok (l, t) =>
    match d.kind with
    | .sweep _ stamp =>
      let w := l.getD 0 0
      if swV w && decide (2 ^ 22 ≤ (stamp.toNat + 2 ^ 24 - swStamp w) % 2 ^ 24) then
        let v := (swRead (fun k => tget d.dc k 0) w stamp.toNat).1
        t.writeWords c d.dg d.seq lines [(s.sideAddr c d.dg d.dstAddr d.dstride j 0, swMake v stamp.toNat (swClass w) (swN w || notFinite v))]
      else .ok t
    | _ => t.writeWords c d.dg d.seq lines ((s.rowWords c d.dg d.dstAddr d.dstride d.len j).zip l)

/-- What running the rows of a copy comes to. -/
inductive Moved where
  | done (s : State)
  /-- row j meets a fault; the rows before it are moved -/
  | fault (j cause : Nat) (addr : W64) (s : State)
  | wait (l : List Chore)

/-- The rows of a copy from row j on. -/
def State.moveRows (s : State) (c : Nat) (d : Copy) (lines : List Nat) (j fuel : Nat) : Moved :=
  match fuel with
  | 0 => .done s
  | n + 1 =>
    match s.moveRow c d lines j with
    | .ok t => t.moveRows c d lines (j + 1) n
    | .error (.fault k a) => .fault j k a s
    | .error (.wait l) => .wait l

/-- The copy of core c with an identifier. -/
def Core.copyOf (c : Core) (id : Nat) : Option Copy := c.copies.find? (fun x => x.id == id)

/-- A faulting row that is ignored, written as zeros (R196), or what it waits for; a word that cannot be written is left. -/
def State.zeroRow (s : State) (c : Nat) (d : Copy) (lines : List Nat) (j : Nat) : Except (List Chore) State :=
  match d.kind with
  | .sweep _ _ => .ok s
  | _ => (s.rowWords c d.dg d.dstAddr d.dstride d.len j).foldlM (fun t a =>
      match t.writeWords c d.dg d.seq lines [(a, 0)] with
      | .ok u => .ok u
      | .error (.wait l) => .error l
      | .error (.fault _ _) => .ok t) s

/-- A copy run from the row it has reached, when the copy unit may start it. -/
def State.runCopy (s : State) (c id : Nat) : Option (Copy × Moved) :=
  match (s.core c).copyOf id with
  | none => none
  | some d =>
    if d.reusable || (s.core c).copyBlocked id then none
    else
      let lines := s.deltaLines c d
      if d.zeroing then
        match s.zeroRow c d lines d.row with
        | .ok _ => some (d, .fault d.row 0 0 s)
        | .error l => some (d, .wait l)
      else some (d, s.moveRows c d lines d.row (d.rows - d.row))

/-! ### Turns of the copy unit (R337) -/

/-- The copy unit of a team has a command that it can start. -/
def State.copyReady (s : State) (t : Nat) : Bool :=
  (List.range 8).any (fun i => (s.core (t * 8 + i)).copies.any (fun d => !d.begun &&
    match s.runCopy (t * 8 + i) d.id with
    | some (_, .wait _) => false
    | some _ => true
    | none => false))

/-- A command of a core may start: no element is ready, or the turn is the commands' and the ready element is not a promoted
one. One that has started goes on. -/
def State.copyTurn (s : State) (c : Nat) (d : Copy) : Bool :=
  d.begun || match (s.team (teamOf c)).nextElem with
  | none => true
  | some (ch, e) =>
    match s.elemCheck ch e with
    | .wait _ => true
    | _ => (s.team (teamOf c)).lastWasElem && (s.team (teamOf c)).promoted != some e.id

/-! ### The events of a copy (R92, R196) -/

/-- A copy's scoreboard entries of one kind are released. -/
def Core.release (c : Core) (id : Nat) (dest : Bool) : Core := { c with ranges := c.ranges.filter (fun r => !(r.id == id && r.dest == dest)) }

/-- A copy of a core changed. -/
def Core.modCopy (c : Core) (id : Nat) (f : Copy → Copy) : Core := { c with copies := c.copies.map (fun x => if x.id == id then f x else x) }

/-- The copy unit of a core's team has started a command: the turn passes to the elements, once (R337). -/
def State.tookTurn (s : State) (c : Nat) (d : Copy) : State :=
  if d.begun then s
  else (s.modCore c (fun co => co.modCopy d.id (fun x => { x with begun := true }))).modTeam (teamOf c) (fun t => { t with lastWasElem := false })

/-- Every source byte of a copy has been read: reusable. -/
def State.raiseReusable (s : State) (c : Nat) (d : Copy) : State :=
  let s := (s.modCore c (fun co => (co.release d.id false).modCopy d.id (fun x => { x with reusable := true, row := d.rows }))).tookTurn c d
  let s := match d.kind with | .drain h pos => s.modRing c h (fun r => r.free pos) | _ => s
  s.pend [.copyVisible c d.id]

/-- COPY_REUSABLE (R92): the copy unit has moved the rows. -/
def State.copyReusable (s : State) (c id : Nat) : Option State :=
  match s.runCopy c id with
  | some (d, .done t) =>
    match d.kind with
    | .sweep _ _ => none
    | _ => if s.copyTurn c d then some (t.raiseReusable c d) else none
  | _ => none

/-- COPY_REUSABLE (R92). -/
def execCopyReusable (c id : Nat) (s : State) : Host.Outcome State Fault Refusal := event "COPY_REUSABLE" (s.copyReusable c id)

/-- Every delta of a copy has landed at its home. -/
def State.copyLanded (s : State) (c : Nat) (d : Copy) : Bool :=
  let n := (s.deltaLines c d).length
  (s.core c).flight.all (fun x => decide (n ≤ (x.seq + 2 ^ 32 - d.seq) % 2 ^ 32))

/-- Visible: the copy retires (R92, R198). -/
def State.raiseVisible (s : State) (c : Nat) (d : Copy) : State :=
  let s := s.modCore c (fun co => { co.release d.id true with copies := co.copies.filter (fun x => x.id != d.id) })
  let s := match d.kind with | .fill h pos => s.modRing c h (fun r => r.mark pos .full) | _ => s
  s.nudge c

/-- COPY_VISIBLE (R92). -/
def State.copyVisible (s : State) (c id : Nat) : Option State :=
  match (s.core c).copyOf id with
  | some d => if d.reusable && s.copyLanded c d then some (s.raiseVisible c d) else none
  | none => none

/-- COPY_VISIBLE (R92). -/
def execCopyVisible (c id : Nat) (s : State) : Host.Outcome State Fault Refusal := event "COPY_VISIBLE" (s.copyVisible c id)

/-- SWEEP_COMPLETE (R262): both events when the last word is done; words written as deltas are done when they have landed
(R92). -/
def State.sweepComplete (s : State) (c id : Nat) : Option State :=
  match s.runCopy c id with
  | some (d, .done t) =>
    match d.kind with
    | .sweep _ _ =>
      if !s.copyTurn c d then none
      else if t.copyLanded c d then some ((t.raiseReusable c d).raiseVisible c d)
      else if d.row < d.rows then some (((t.modCore c (fun co => co.modCopy id (fun x => { x with row := d.rows }))).tookTurn c d).pend [.sweepComplete c id])
      else none
    | _ => none
  | _ => none

/-- SWEEP_COMPLETE (R262). -/
def execSweepComplete (c id : Nat) (s : State) : Host.Outcome State Fault Refusal := event "SWEEP_COMPLETE" (s.sweepComplete c id)

/-- The rows of a copy from row j on, with every faulting row entered into containment and, while it is ignored, written
as zeros (R196): the state and the row reached, which is not the last where a row has to wait, and whether that row's fault is
ignored and it waits to be zeroed, as row j is when zeroing holds; none when another outcome has cancelled the copy. -/
def State.faultRows (s : State) (c : Nat) (d : Copy) (lines : List Nat) (zeroing : Bool) (j fuel : Nat) : State × Option (Nat × Bool) :=
  match fuel with
  | 0 => (s, some (j, false))
  | n + 1 =>
    let zero := fun (s : State) => match s.zeroRow c d lines j with
      | .ok t => t.faultRows c d lines false (j + 1) n
      | .error l => (s.pend l, some (j, true))
    if zeroing then zero s
    else match s.moveRow c d lines j with
      | .ok t => t.faultRows c d lines false (j + 1) n
      | .error (.wait l) => (s.pend l, some (j, false))
      | .error (.fault k a) =>
        let r := s.contain 1 c none (s.ctx c d.ctx).cpol (groupOf k (!s.meetsWorking c k a)) (sourceOf k a) (logKind k) (logAddr k a)
        if r.2 then zero r.1 else (r.1, none)

/-- COPY_FAULT (R196): containment at core level; under ignore the copy goes on, else it is cancelled (R42). -/
def State.copyFault (s : State) (c id : Nat) : Option State :=
  match s.runCopy c id with
  | some (d, .fault ..) =>
    if !s.copyTurn c d then none
    else
      let r := s.faultRows c d (s.deltaLines c d) d.zeroing d.row (d.rows - d.row)
      let u := r.1.tookTurn c d
      some (match r.2 with
        | none => u.modCore c (fun co => { co with copies := co.copies.filter (fun x => x.id != id), ranges := co.ranges.filter (fun x => x.id != id) })
        | some (j, zeroing) =>
          let u := u.modCore c (fun co => co.modCopy id (fun x => { x with row := j, zeroing := zeroing }))
          match d.kind with
          | .sweep _ _ => u.pend (copyChores c d)
          | _ => if j = d.rows then u.raiseReusable c { d with begun := true } else u.pend (copyChores c d))
  | _ => none

/-- COPY_FAULT (R196). -/
def execCopyFault (c id : Nat) (s : State) : Host.Outcome State Fault Refusal := event "COPY_FAULT" (s.copyFault c id)

end Sys2Proof.Machine
end

