-- ==== Sys2Proof/Machine/Rings.lean ====
section
/-!
DEFINITION. The ring instructions (04 R95-R97, 08 R202-R204).
-/

namespace Sys2Proof.Machine

open Sys2Proof

/-- The ring a descriptor describes (R95). -/
def ringOfDesc (l : List W64) : Ring :=
  { base := (wd l 0).setWidth 32, lslot := bf (wd l 0) 32 4, cap := bf (wd l 0) 36 12, elastic := bit (wd l 0) 48,
    plim := bf (wd l 0) 49 11, prod := bf (wd l 1) 0 2, cons := bf (wd l 1) 2 2 }

/-- A descriptor with a field that RCFG refuses by itself (R95). See log 15. -/
def ringBad (l : List W64) : Bool :=
  let r := ringOfDesc l
  bf (wd l 0) 60 4 != 0 || bf (wd l 1) 4 60 != 0 || wd l 2 != 0 || wd l 3 != 0 || decide (r.lslot < 4) || decide (12 < r.lslot)
    || decide (r.cap < 1) || decide (1024 < r.cap) || r.base.toNat % r.slotBytes != 0 || r.prod == 3 || r.cons == 3

/-- RCFG (R203). See log 15. -/
def execRcfg (a : BitVec 6) (h : BitVec 4) (s : State) : Host.Outcome State Fault Refusal :=
  run (.rcfg a h) false (!xOnly a) (do
    let l ← descRead (s.xval a).toNat 32
    let c ← getCore
    let held := match c.ring h.toNat with | some r => !r.slots.isEmpty | none => false
    if l.all (fun w => w == 0) then
      if held then illegalOperand else modCore (fun co => { co with rings := tdel co.rings h.toNat })
    else if ringBad l || held || decide (Config.bufferEntries - c.bufferUsed < (ringOfDesc l).cap) then illegalOperand
    else modCore (fun co => { co with rings := tput co.rings h.toNat (ringOfDesc l) })) s

/-- The issuing core's ring of a handle, whose party, when one is asked for, is a context. -/
def ringFor (h : BitVec 4) (party : Ring → Nat) : M Ring := do
  match (← getCore).ring h.toNat with
  | none => do illegalOperand; pure {}
  | some r => do require (party r == 0) 2 0; pure r

/-- What brings a ring on: the copies of the core and the jobs of its team. -/
def ringChores : M (List Chore) := do
  let c ← getCore
  let k ← me
  return c.copies.flatMap (copyChores k) ++ [.drainRow (teamOf k)]

/-- RRESV (R204). -/
def execRresv (d : BitVec 6) (h : BitVec 4) (s : State) : Host.Outcome State Fault Refusal :=
  run (.rresv d h) false (!xOrZero d) (do
    let r ← ringFor h Ring.prod
    match s.nextSlot s.issue.core r with
    | none => stallFor (← ringChores)
    | some slot => do
      modify (fun t => t.modRing t.issue.core h.toNat (fun g => g.begin slot))
      xset d (w64 r.pnext)) s

/-- RPROD (R204): a release at core scope. -/
def execRprod (h : BitVec 4) (s : State) : Host.Outcome State Fault Refusal :=
  run (.rprod h) false false (do
    let r ← ringFor h Ring.prod
    match r.lowest .filling with
    | none => illegalOperand
    | some x => do
      releaseNow 1
      modify (fun t => t.modRing t.issue.core h.toNat (fun g => g.mark x.pos .full))) s

/-- RWAIT (R204). -/
def execRwait (d : BitVec 6) (h : BitVec 4) (s : State) : Host.Outcome State Fault Refusal :=
  run (.rwait d h) false (!xOrZero d) (do
    let r ← ringFor h Ring.cons
    match r.at r.cnext with
    | some x =>
      if x.state = .full then do
        modify (fun t => t.modRing t.issue.core h.toNat (fun g => { g.mark x.pos .draining with cnext := g.cnext + 1 }))
        xset d (w64 x.pos)
      else stallFor (← ringChores)
    | none => stallFor (← ringChores)) s

/-- RCONS (R204): a release at core scope. -/
def execRcons (h : BitVec 4) (s : State) : Host.Outcome State Fault Refusal :=
  run (.rcons h) false false (do
    let r ← ringFor h Ring.cons
    match r.lowest .draining with
    | none => illegalOperand
    | some x => do
      releaseNow 1
      modify (fun t => t.modRing t.issue.core h.toNat (fun g => g.free x.pos))) s

/-- RSLOT (R204). -/
def execRslot (d a : BitVec 6) (h : BitVec 4) (s : State) : Host.Outcome State Fault Refusal :=
  run (.rslot d a h) false (!xOrZero d || !xOnly a) (do
    let r ← ringFor h (fun _ => 0)
    xset d (match r.at (s.xval a).toNat with | some x => w64 x.addr | none => w64 (2 ^ 64 - 1))) s

end Sys2Proof.Machine
end

