-- ==== Sys2Proof/Machine/Front.lean ====
section
/-!
DEFINITION. The front end (07 R162-R164, R168, R430, 08 R186, 09 R218): what a context does in a turn; the heartbeat
and what each tick brings (01, 02 R36, R47); and the choice of the next turn, which is the model's own schedule.
-/

namespace Sys2Proof.Machine

open Sys2Proof

/-! ### Fetching -/

/-- What a fetch at an address finds (R186). -/
inductive Fetch where
  /-- a translation fault, or poison on the line -/
  | trap (cause : Nat) (tval : W64)
  /-- the page is on its way -/
  | wait (tenant page : Nat)
  | word (w : BitVec 32) (s : State)

/-- The fetch of a word of core c at an address of its tenant's code pages. -/
def State.fetch (s : State) (c : Nat) (pc : W64) : Fetch :=
  let v := s.tenantOf c
  match s.xlate v pc .fetch with
  | .fault k => .trap k pc
  | .wait => .wait v (pc.toNat / 2 ^ 16)
  | .ok phys _ _ =>
    let t := (s.lookup c v pc false).scrubLine phys
    if t.poisonAt phys then .trap 9 (w64 (alignTo 64 pc.toNat))
    else .word (BitVec.ofNat 32 (t.hread phys 4)) t

/-- The instruction of a word: a word that is none is ILLEGAL_INSTRUCTION (R173). -/
def instrOf (w : BitVec 32) : Instr :=
  match decodeBytes (bytesOfWord w) with
  | .ok (i, _) => i
  | .error _ => .illegalInstruction w

/-! ### Delivery -/

/-- Instructions past which nothing is delivered (R163, R164, R173). -/
def Slot.holds (x : Slot) : Bool := holdsFront x.instr || badAtDecode x.iss.himm x.instr

/-- The front end may deliver to a context: its buffers have room and nothing delivered holds it (R162, R163); a LOOPW
back-edge waits for the EH (R218), and nothing follows an MDONE (R287). A hint word takes no entry of a buffer: it is consumed at
its delivery, a DESIGN CHOICE of the model beside R162 and R430. See log 9. -/
def Ctx.mayDeliver (c : Ctx) : Bool :=
  decide (c.ah.length < 32) && decide (c.eh.length < 32) && !(c.ah ++ c.eh).any Slot.holds && (!c.rowEnded || c.shadow.isSome)
    && (c.edge.isNone || c.eh.isEmpty)

/-- What a turn of a context comes to. -/
inductive Act where
  /-- the turn ends here -/
  | done (s : State)
  /-- an instruction issues -/
  | go (i : Instr) (s : State)

/-- The instruction just fetched joins the program order of its context (R162, R168): its slot, and the state with the
fetch point after it. -/
def State.delivered (s : State) (c k : Nat) (addr : W64) (i : Instr) : Slot × State :=
  let x := s.ctx c k
  let sl : Slot := { instr := i, iss := { core := c, ctx := k, addr := addr, first := x.hfirst.getD addr, himm := x.himm,
                                          hmod := x.hmod, view := x.view, loops := x.loops, seq := x.seq } }
  (sl, s.modCtx c k (fun y =>
    let y := { y with himm := [], hmod := [], hfirst := none, seq := y.seq + 1 }
    if deferred i then { y with pc := addr + 4, edge := none } else y.follow addr (y.eh.isEmpty && halfIn x.himm i == .ah)))

/-- A slot at the end of its half's buffer. -/
def Ctx.append (c : Ctx) (sl : Slot) : Ctx :=
  match halfIn sl.iss.himm sl.instr with
  | .ah => { c with ah := c.ah ++ [sl] }
  | .eh => { c with eh := c.eh ++ [sl] }

/-- What a fetch that finds no word raises: after an open hint group a place that is not mapped or not executable is the
end of the text section, whose missing target is illegal (R169, R428); the word of a missing target is a free value. -/
def missingTarget (group : Bool) (pc : W64) (cause : Nat) (tval : W64) : Nat × W64 :=
  if group && (cause == 6 || cause == 7) then (1, Config.missingWord pc) else (cause, tval)

/-- A trap found by the front end (R186): it counts as an EH trap at the fetch address; under ignore the context
retires as by TEND, after every earlier instruction has issued, and a handler ends its row (R226), but the missing target of a hint
group is as NOP. -/
def State.fetchTrap (s : State) (c k : Nat) (pc : W64) (cause : Nat) (tval : W64) : State :=
  let x := s.ctx c k
  let e := missingTarget x.hfirst.isSome pc cause tval
  match s.takeTrap c k none .eh (x.hfirst.getD pc) e.1 e.2 true with
  | .done t => t
  | .ignored t => if e.1 = 1 then t.modCtx c k Ctx.dropFetch else if !x.ah.isEmpty then s else if k = 4 then t.releaseRow c else t.retire c k

/-- One word delivered to a context; straight: with both buffers empty the instruction issues at once. -/
def State.deliver (s : State) (c k : Nat) (straight : Bool) : Act :=
  let s := match (s.ctx c k).edge with
    | some a => s.modCtx c k (fun x => x.backEdge a true true 4)
    | none => s
  let x := s.ctx c k
  let pc := x.pc
  match s.fetch c pc with
  | .trap cause tval => if x.eh.isEmpty then .done (s.fetchTrap c k pc cause tval) else .done s
  | .wait v page => .done (s.pend [.pageBringUp v page])
  | .word w t =>
    let i := instrOf w
    if isHint i then
      .go i { (t.modCtx c k (fun y => { y.follow pc y.eh.isEmpty with hfirst := some (y.hfirst.getD pc) })) with
              issue := { core := c, ctx := k, addr := pc } }
    else
      let r := t.delivered c k pc i
      if straight && x.ah.isEmpty && x.eh.isEmpty then .go i { r.2 with issue := r.1.iss }
      else .done (r.2.modCtx c k (fun y => y.append r.1))

/-! ### Issue -/

/-- WFLAGS and WPOS issue only after the EH has issued every earlier instruction (R192). -/
def afterEh (i : Instr) : Bool := match i with | .wflags .. | .wpos .. => true | _ => false

/-- The head of a half may issue beside the other half's buffer (R164, R192); an earlier acquire of the AH holds an access
of the EH (05 R110). -/
def headReady (h : Slot) (other : List Slot) : Bool :=
  (match other with
  | [] => true
  | o :: _ =>
    if o.iss.seq < h.iss.seq then !joins h.instr && !joins o.instr && !afterEh h.instr else true)
  && !(ehOrdered h.instr && other.any (fun o => decide (o.iss.seq < h.iss.seq) && o.acquires))

/-- An open FENCE.SC lets an instruction issue only when it precedes the fence in program order (05 R113). -/
def Ctx.scLets (c : Ctx) (h : Slot) : Bool := match c.sc with | some f => decide (h.iss.seq < f.seq) | none => true

/-- What a context can do in a turn: issue from a half, or take a delivery. -/
inductive Way where
  | half (h : Half)
  | deliver
  deriving DecidableEq, Repr

/-- The ways open to a context, the earlier instruction first. -/
def Ctx.ways (c : Ctx) : List Way :=
  let a := match c.ah with | h :: _ => if headReady h c.eh && c.scLets h then [Way.half .ah] else [] | [] => []
  let e := match c.eh with | h :: _ => if headReady h c.ah && c.scLets h then [Way.half .eh] else [] | [] => []
  let both := match c.ah, c.eh with
    | x :: _, y :: _ => if x.iss.seq ≤ y.iss.seq then a ++ e else e ++ a
    | _, _ => a ++ e
  both ++ (if c.mayDeliver && c.sc.isNone then [.deliver] else [])

/-- The phases in which contexts run (R27); a core that parks runs nothing (R40). -/
def Core.runs (c : Core) : Bool := (c.phase == .run || c.phase == .gather || c.phase == .drain) && c.early.isNone
/-- A context that may take a turn. -/
def Ctx.runs (c : Ctx) : Bool := c.active && decide (c.await = .running)
/-- Context k of the core may take a turn; the handler also serves rows of other cores' jobs after its core has arrived. -/
def Core.turns (c : Core) (k : Nat) : Bool :=
  (c.runs || (k == 4 && c.phase == .arrived && c.early.isNone)) && (c.ctx k).runs

/-- The handler has issued everything of a row whose MDONE has issued (R287). -/
def Ctx.spentRow (c : Ctx) : Bool := c.rowEnded && c.ah.isEmpty && c.eh.isEmpty && c.shadow.isNone && c.unwritten.isEmpty

/-- The clocks of a cluster are gated: its paddock is in PS7 (25 R418). -/
def State.gated (s : State) (k : Nat) : Bool :=
  s.plat.nodes.any (fun p => p.2.power == 7 && p.2.state != .covered && p.2.state != .split
    && decide ((nodeRange p.1).1 ≤ k) && decide (k < (nodeRange p.1).2))

/-- A turn of a context. -/
def State.contextTurn (s : State) (c k : Nat) : Act :=
  let x := s.ctx c k
  if !(s.core c).turns k || s.gated (clusterOf c) then .done s
  else if x.spentRow then .done ((s.modCtx c k Ctx.idle).pend [.drainRow (teamOf c)])
  else
    let ways := x.ways
    match ways[x.skip % ways.length]? with
    | none => .done s
    | some .deliver => (s.modCtx c k (fun y => { y with skip := (y.skip + 1) % 6 })).deliver c k true
    | some (.half h) =>
      let s := s.modCtx c k (fun y => { y with skip := (y.skip + 1) % 6 })
      match h with
      | .ah => match x.ah with
        | sl :: r => .go sl.instr { (s.modCtx c k (fun y => { y with ah := r })) with issue := sl.iss }
        | [] => .done s
      | .eh => match x.eh with
        | sl :: r => .go sl.instr { (s.modCtx c k (fun y => { y with eh := r })) with issue := sl.iss }
        | [] => .done s

/-! ### The heartbeat -/

/-- A debugger holds a context of the domain (R47). -/
def State.halted (s : State) (m : Domain) : Bool := m.members.any (fun c => (s.core c).ctxs.any (fun p => p.2.active && p.2.await == .debugger))

/-- A tick for one commit domain: the watchdog count, which only the root's device lets expire, and the poll timer (R36, R47). A raised budget counts from this
tick on, unless the old one has been reached (22 R386). See log 3. -/
def State.tickDomain (s : State) (d : Nat) : State :=
  let m := s.domain d
  if !m.live then s
  else
    let run := m.wdRun && !s.halted m
    let count := if run then m.wdCount + 1 else m.wdCount
    let out := run && (s.parentDev d).isNone && decide (m.wdBudget ≤ count)
    let s := s.modDomain d (fun m => { m with wdBudget := if out then m.wdBudget else m.wdRaise.getD m.wdBudget, wdRaise := none, wdCount := count })
    let s := if out then s.pend [.watchdogExpiry d] else s
    if m.pollAt = some s.hbt then s.pend [.pollTimer d] else s

/-- A domain is yielded (R27, R379). -/
def State.yielded (s : State) (d : Nat) : Bool := (s.domain d).away

/-- The ticks after which an operation has waited too long (R292): its TIMEOUT, or the launch's watchdog budget. -/
def State.collLimit (s : State) (o : Coll) : Nat :=
  let t := bf (o.words.getD 7 0) 0 40
  if t = 0 then (s.domain o.dom).wdBudget else t

/-- A tick for a started operation (R292); ticks while the domain is yielded do not count. -/
def State.tickColl (s : State) (d slot : Nat) : State :=
  match tfind (s.die d).colls slot with
  | none => s
  | some o =>
    if !o.started || s.yielded o.dom then s
    else
      let s := s.modDie d (fun x => { x with colls := tput x.colls slot { o with ticks := o.ticks + 1 } })
      if o.ticks + 1 = s.collLimit o then s.pend [.collTimeout d slot] else s

/-- A tick for a die: ticks spent with stretched clocks are counted (25 R418). -/
def State.tickDie (s : State) (d : Nat) : State :=
  if (s.die d).stretched then s.modDie d (fun x => { x with clTicks := satAdd x.clTicks 1 }) else s

/-- The heartbeat exchange of every 1,000 ticks on the up ports that lead to other devices (23 R396). -/
def State.exchange (s : State) : State :=
  if s.hbt % 1000 ≠ 0 then s
  else s.pend (((List.range 32).filter (fun k => (s.port k).state == 2 && (s.port k).peer != s.plat.devNo.toNat)).map (fun k => .heartbeatFlit k (Config.beatError s.hbt)))

/-- The last tick at which a device was heard (23 R400): the last heartbeat flit of a cabled one, on any of its ports; for one that
no cable leads to, the last tick at which a port was up that a path to it could begin with. See log 44. -/
def State.lastHeard (s : State) (dev : Nat) : Nat :=
  match (s.plat.ports.filter (fun p => p.2.peer == dev)).map (fun p => p.2.lastBeat) with
  | [] => s.plat.lastUp
  | l => l.foldl Nat.max 0
/-- A port is up; a port that the list does not hold is as at reset. -/
def State.anyUp (s : State) : Bool := decide (s.plat.ports.length < 32) || s.plat.ports.any (fun p => p.2.state == 2)
/-- A present device that has not been heard for 1,000 ticks counts as failed (23 R400). See log 44. -/
def State.watchDevices (s : State) : State :=
  let s := if s.anyUp then s.modPlat (fun p => { p with lastUp := s.hbt }) else s
  s.pend (s.domains.flatMap (fun p =>
    if !p.2.live ∨ p.2.devices.length < 2 then []
    else ((s.participants p.1).filter (fun v => v != s.plat.devNo.toNat && decide (s.lastHeard v + 1000 ≤ s.hbt))).map (fun v => .deviceFailed p.1 v)))

/-- A power state for every unit of a node (25 R418): the ticks of its running launches are noted under the old one. -/
def State.applyPower (s : State) (n k : Nat) : State :=
  (s.domains.foldl (fun s p => if p.2.live ∧ p.2.node = n then s.noteTicks p.1 else s) s).modNode n (fun x => { x with power := k, powerNext := none })

/-- A heartbeat tick. A power state that was commanded holds from it on (25 R418). See logs 3 and 46. -/
def State.beat (s : State) : State :=
  let s := { s with hbt := s.hbt + 1 }
  let s := s.exchange.watchDevices
  let s := s.dies.foldl (fun s p => s.tickDie p.1) s
  let s := s.domains.foldl (fun s p => s.tickDomain p.1) s
  let s := s.dies.foldl (fun s p => p.2.colls.foldl (fun s q => s.tickColl p.1 q.1) s) s
  s.plat.nodes.foldl (fun s p => match p.2.powerNext with | some k => s.applyPower p.1 k | none => s) s

/-! ### The schedule -/

/-- A step of the device, the host or a link: no instruction word, and not the trap of a word that is none. -/
def isStep (i : Instr) : Bool :=
  match i with
  | .illegalInstruction _ => false
  | i => (encode i).isNone

/-- What the next step does. -/
inductive Work where
  | turn (t : Turn)
  | chore (c : Chore)
  | idle

/-- The contexts that may take a turn, as core·8 + context; a node in PS7 has its clocks gated (25 R418). -/
def State.runnable (s : State) : List Nat :=
  s.cores.flatMap (fun p => if s.gated (clusterOf p.1) then [] else (p.2.ctxs.filter (fun q => p.2.turns q.1)).map (fun q => p.1 * 8 + q.1))

/-- The next context after the one that ran last, round robin. See log 7. -/
def State.nextContext (s : State) : Option Nat :=
  match s.runnable.find? (fun k => decide (s.sched.last < k)) with
  | some k => some k
  | none => s.runnable.head?

/-- The first of the caused steps, taken from the list. -/
def State.popChore (s : State) : Option (Chore × State) :=
  match s.sched.pending with
  | [] => none
  | c :: r => some (c, { s with sched := { s.sched with pending := r, flip := true } })

/-- A context's turn, round robin. -/
def State.popContext (s : State) : Option (Turn × State) :=
  match s.nextContext with
  | none => none
  | some k => some (.context (k / 8) (k % 8), { s with sched := { s.sched with last := k, flip := false } })

/-- The next step's work: a turn from outside, else caused steps and contexts in alternation, else nothing. See log 7. -/
def State.nextWork (s : State) : Work × State :=
  match s.sched.turns with
  | t :: r => (.turn t, { s with sched := { s.sched with turns := r } })
  | [] =>
    let chore := s.popChore
    let ctx := s.popContext
    match (if s.sched.flip then none else chore), ctx, chore with
    | some (c, t), _, _ => (.chore c, t)
    | none, some (u, t), _ => (.turn u, t)
    | none, none, some (c, t) => (.chore c, t)
    | none, none, none => (.idle, s)

end Sys2Proof.Machine
end

