-- ==== Sys2Proof/Machine/System.lean ====
section
/-!
DEFINITION. CSRs (09 R220, R222-R225, R229, and the maps those rules name), software traps, the return from a handler,
HALT, NOP (R230-R232), the hints (07 R168-R171, 09 R234) and words that are no instruction (R173).
-/

namespace Sys2Proof.Machine

open Sys2Proof

/-! ### CSRs -/

/-- The speed-table clock of a core or an engine. -/
def Speed.mhz (e : Speed) : Nat := 940 + 5 * e.code.toNat
/-- The snapshot of a core (03 R58). -/
def State.snap (s : State) (c : Nat) : Nat :=
  match s.domOf c with
  | some d => tget d.speed c (tget s.plat.coreSpeed c {}).mhz
  | none => (tget s.plat.coreSpeed c {}).mhz
/-- The snapshot of a team's engine (03 R59). -/
def State.esnap (s : State) (t : Nat) (c : Nat) : Nat :=
  match s.domOf c with
  | some d => tget d.espeed t (tget s.plat.teamSpeed t {}).mhz
  | none => (tget s.plat.teamSpeed t {}).mhz
/-- The present clock of a core. -/
def State.clock (s : State) (c : Nat) : Nat := clockIn (s.node (s.nodeOf c)).power (s.snap c)

/-- The domain identifier of a slot; 0xFFFF where none is bound (02 R26). -/
def Domain.slotId (d : Domain) (slot : Nat) : Nat :=
  if slot = 0 then d.id.toNat else if d.levels.getD (slot - 1) 0 = 0 then 0xFFFF else (d.phaseIds.getD (slot - 1) 0xFFFF#16).toNat

/-- The CSRs of R224. -/
def csrAssigned (n : Nat) : Bool :=
  n == 1 || n == 2 || (decide (4 ≤ n) && decide (n ≤ 8)) || (decide (0xC ≤ n) && decide (n ≤ 0xE)) || (decide (0x20 ≤ n) && decide (n ≤ 0x25))
    || n == 0x30 || (decide (0x40 ≤ n) && decide (n ≤ 0x47)) || (decide (0x50 ≤ n) && decide (n ≤ 0x5F)) || n == 0x60 || n == 0x61
    || (decide (0x70 ≤ n) && decide (n ≤ 0x73)) || n == 0x80 || n == 0x81 || n == 0xC0 || n == 0xC2 || n == 0xC4 || n == 0xC8

/-- The CSRs of a commit domain (02 R26). -/
def csrOfDomain (d : Option Domain) (n : Nat) : W64 :=
  match d with
  | none => if n = 0x45 then w64 (2 ^ 64 - 1) else 0
  | some d =>
    match n with
    | 0x40 => d.ssn.setWidth 64
    | 0x41 => d.step.setWidth 64
    | 0x44 => w64 (d.total.toNat + d.consec * 2 ^ 32)
    | 0x45 => w64 (d.slotId 0 + d.slotId 1 * 2 ^ 16 + d.slotId 2 * 2 ^ 32 + d.slotId 3 * 2 ^ 48)
    | _ => 0

/-- The loop CSRs (R220). -/
def csrOfLoops (l : Loops) (n : Nat) : W64 :=
  match n with
  | 4 => l.lc0
  | 5 => l.lc1
  | 6 => l.lc2
  | 7 => l.lstate
  | 0xC => l.laddr0
  | 0xD => l.laddr1
  | _ => l.laddr2

/-- The CSRs a context holds by itself. -/
def csrOfCtx (x : Ctx) (n : Nat) : W64 :=
  match n with
  | 1 => x.fcsr
  | 0x20 => x.tvec
  | 0x21 => x.tcause
  | 0x22 => x.tpc
  | 0x23 => x.tval
  | 0x24 => x.tstatus
  | 0x25 => x.tscr
  | 0x30 => x.cpol
  | 0x42 => x.barres
  | 0x43 => x.bstrag
  | 0x46 => x.retrymax
  | 0x47 => x.bstat
  | 0x60 => x.mshare
  | 0x61 => x.collbw
  | 0xC0 => w64 (b2n x.attached)
  | 0xC8 => x.errinj
  | n => if 0x50 ≤ n ∧ n ≤ 0x5F then tget x.dc (n - 0x50) 0 else 0

/-- The value of a CSR (R223-R225), with the loop CSRs and VIEW as they are given. -/
def State.csr (s : State) (view : W64) (loops : Loops) (n : Nat) : W64 :=
  let c := s.issue.core
  match n with
  | 2 => view
  | 8 => (s.core c).tcmcfg
  | 0x40 => csrOfDomain (s.domOf c) 0x40
  | 0x41 => csrOfDomain (s.domOf c) 0x41
  | 0x44 => csrOfDomain (s.domOf c) 0x44
  | 0x45 => csrOfDomain (s.domOf c) 0x45
  | 0x70 => w64 (s.gcid c)
  | 0x71 => w64 s.issue.ctx
  | 0x72 => w64 (s.snap c + s.esnap (teamOf c) c * 2 ^ 11 + s.clock c * 2 ^ 22)
  | 0x73 => Config.fset.setWidth 64
  | 0x80 => s.tick
  | 0x81 => (s.tick - s.plat.cycleBase) * w64 (s.clock c) / 100
  | 0xC2 => w64 ((s.core c).replays.toNat + (s.team (teamOf c)).replays.toNat * 2 ^ 32)
  | 0xC4 => (s.core c).memdiag
  | n =>
    if (4 ≤ n ∧ n ≤ 7) ∨ (0xC ≤ n ∧ n ≤ 0xE) then csrOfLoops loops n
    else csrOfCtx (s.ctx c s.issue.ctx) n

/-- CSRR (R222): the loop CSRs and VIEW are those of its delivery (R223). -/
def execCsrr (d : BitVec 6) (c : BitVec 12) (s : State) : Host.Outcome State Fault Refusal :=
  run (.csrr d c) (!csrAssigned c.toNat) (!s.ehDst false d) (gPush d (s.csr s.issue.view s.issue.loops c.toNat)) s

/-- A result that a write of a CSR refuses (R223): reserved fields and the checks of its map. -/
def csrBad (n : Nat) (v : W64) : Bool :=
  match n with
  | 1 => bit v 7 || bf v 11 53 != 0 || decide (5 < bf v 8 3)
  | 2 => bit v 7 || bit v 15 || bf v 17 3 != 0 || bf v 24 40 != 0
  | 7 => bf v 2 14 != 0 || bf v 30 2 != 0 || bf v 46 2 != 0 || bf v 62 2 != 0
  | 0xC | 0xD | 0xE => bf v 0 2 != 0 || bf v 55 9 != 0
  | 0x20 => bf v 0 2 != 0 || bit v 55 || bf v 58 4 != 0 || bit v 63
  | 0x24 => bf v 2 62 != 0
  | 0x30 => bf v 16 48 != 0
  | 0x46 => bf v 8 56 != 0
  | 0x60 => bf v 4 60 != 0 || bf v 0 4 == 0
  | 0x61 => bf v 12 52 != 0 || bf v 0 4 == 0 || bf v 4 4 == 0 || bf v 8 4 == 0
  | 0xC8 => bf v 2 62 != 0
  | n => decide (0x50 ≤ n) && decide (n ≤ 0x5F) && (bf v 32 32 != 0 || decide (0 < sval 32 (bf v 0 32)))

/-- The loop CSRs written. -/
def Loops.setCsr (l : Loops) (n : Nat) (v : W64) : Loops :=
  match n with
  | 4 => { l with lc0 := v }
  | 5 => { l with lc1 := v }
  | 6 => { l with lc2 := v }
  | 7 => { l with lstate := v }
  | 0xC => { l with laddr0 := v }
  | 0xD => { l with laddr1 := v }
  | 0xE => { l with laddr2 := v }
  | _ => l

/-- A writable CSR of a context written; read-only CSRs and fields keep their value. -/
def Ctx.setCsr (x : Ctx) (n : Nat) (v : W64) : Ctx :=
  match n with
  | 1 => { x with fcsr := v }
  | 2 => { x with view := v }
  | 0x20 => { x with tvec := v }
  | 0x24 => { x with tstatus := bput v 0 1 (b2n (bit x.tstatus 0)) }
  | 0x25 => { x with tscr := v }
  | 0x30 => { x with cpol := v }
  | 0x46 => { x with retrymax := v }
  | 0x60 => { x with mshare := v }
  | 0x61 => { x with collbw := v }
  | 0xC8 => { x with errinj := v }
  | n => if 0x50 ≤ n ∧ n ≤ 0x5F then { x with dc := tset x.dc (n - 0x50) v 0 } else { x with loops := x.loops.setCsr n v }

/-- ERRINJ writes take effect in the core's paddock (R225, R359). -/
def State.injectable (s : State) (c : Nat) : Bool := bit (s.node (s.nodeOf c)).pcfg 4

/-- A CSR write whose result is v; clear is what a W1C field loses. -/
def csrWrite (n : Nat) (v clear : W64) : M Unit := do
  let s ← get
  let c := s.issue.core
  if n = 0xC4 then modCore (fun co => { co with memdiag := co.memdiag &&& ~~~clear })
  else if n = 0xC8 ∧ !s.injectable c then pure ()
  else if csrBad n v then illegalOperand
  else do
    modCtx (fun x => x.setCsr n v)
    if n = 0x61 then modify (fun s => s.modDie (dieOf c) (fun d => { d with collbw := v })) else pure ()

/-- The reads of the instruction are judged before its write takes effect (R225 ERRINJ). -/
def readsDone : M Unit := do
  checkReads false
  modify (fun s => { s with issue := { s.issue with low := none, bad := none } })

/-- A CSR write whose result is v that its map refuses; MEMDIAG and a withheld ERRINJ refuse nothing. -/
def State.csrRefuses (s : State) (n : Nat) (v : W64) : Bool := n != 0xC4 && !(n == 0xC8 && !s.injectable s.issue.core) && csrBad n v

/-- The template of the writing forms: the result of old and operand, and what a W1C field loses (R222, R223). The value
is judged before what was read (R428); under an ignored poison the CSR keeps its value (R226). -/
def csrForm (i : Instr) (d : BitVec 6) (c : BitVec 12) (f : W64 → W64 → W64) (w1c : Bool) (s : State) : Host.Outcome State Fault Refusal :=
  run i (!csrAssigned c.toNat) (!s.ehSrc false d) (do
    let v ← gPop d
    let t ← get
    let x ← getCtx
    let r := f (t.csr x.view x.loops c.toNat) v
    require (!t.csrRefuses c.toNat r) 2 0
    readsDone
    if ← ignoring 9 then pure () else csrWrite c.toNat r (if w1c then v else 0)) s

/-- CSRW (R222). -/
def execCsrw (d : BitVec 6) (c : BitVec 12) (s : State) : Host.Outcome State Fault Refusal := csrForm (.csrw d c) d c (fun _ v => v) true s
/-- CSRS (R222). -/
def execCsrs (d : BitVec 6) (c : BitVec 12) (s : State) : Host.Outcome State Fault Refusal := csrForm (.csrs d c) d c (fun o v => o ||| v) true s
/-- CSRC (R222). -/
def execCsrc (d : BitVec 6) (c : BitVec 12) (s : State) : Host.Outcome State Fault Refusal := csrForm (.csrc d c) d c (fun o v => o &&& ~~~v) false s

/-! ### Traps, returns and stops -/

/-- TRAP (R231): the software trap. -/
def execTrap (i : BitVec 24) (s : State) : Host.Outcome State Fault Refusal := run (.trap i) false false (trapWith 17 (wi (s.imm i))) s

/-- DBRK (R231): with a debugger attached the context stops. -/
def execDbrk (i : BitVec 24) (s : State) : Host.Outcome State Fault Refusal :=
  run (.dbrk i) false false (do
    if (← getCtx).attached then modCtx (fun c => { c with await := .debugger }) else trapWith 16 (wi (s.imm i))) s

/-- ERET (R230). -/
def execEret (s : State) : Host.Outcome State Fault Refusal :=
  run .eret (!bit (s.ctx s.issue.core s.issue.ctx).tstatus 0) false (modCtx Ctx.leaveHandler) s

/-- The context is the handler context or runs a trap handler (R228, R301). -/
def State.inHandler (s : State) : Bool := s.issue.ctx == 4 || bit (s.ctx s.issue.core s.issue.ctx).tstatus 0

/-- The local stores of the context are performed before it stops taking part. -/
def walkersDone : M Unit := do
  let s ← get
  let x ← getCtx
  awaitFor x.unwritten.isEmpty (s.storeChores s.issue.core s.issue.ctx)

/-- The context retires (R63); the stores that it has issued stay in flight. -/
def retireSelf : M Unit := modify (fun s => s.retire s.issue.core s.issue.ctx)

/-- HALT (R232): the debugger holds the context; without one it retires as by TEND. -/
def execHalt (s : State) : Host.Outcome State Fault Refusal :=
  let x := s.ctx s.issue.core s.issue.ctx
  run .halt (!x.attached && s.inHandler) false (if x.attached then modCtx (fun c => { c with await := .debugger }) else retireSelf) s

/-- NOP (R232). -/
def execNop (s : State) : Host.Outcome State Fault Refusal := run .nop false false (pure ()) s

/-! ### Hints (R168-R171, R234-R237) -/

/-- HIMM (R234): it joins the group of the next instruction. -/
def execHimm (p : BitVec 24) (s : State) : Host.Outcome State Fault Refusal :=
  run (.himm p) false false (modCtx (fun c => { c with himm := c.himm ++ [p] })) s

/-- HMOD (R235): it joins the group of the next instruction. -/
def execHmod (e : BitVec 16) (sd n : BitVec 1) (c k : BitVec 3) (s : State) : Host.Outcome State Fault Refusal :=
  run (.hmod e sd n c k) false false (modCtx (fun x => { x with hmod := x.hmod ++ [e ++ sd ++ n ++ c ++ k] })) s

/-- HSCHED (R237): timing only. -/
def execHsched (x : BitVec 19) (k : BitVec 1) (r l : BitVec 2) (s : State) : Host.Outcome State Fault Refusal :=
  run (.hsched x k r l) false false (pure ()) s

/-- The hint opcodes that are not assigned act as none (R171). -/
def execNopHint (op : BitVec 2) (p : BitVec 24) (s : State) : Host.Outcome State Fault Refusal := run (.nopHint op p) false false (pure ()) s

/-- A word that is no instruction (R173): illegal-instruction. -/
def execIllegalInstruction (w : BitVec 32) (s : State) : Host.Outcome State Fault Refusal := run (.illegalInstruction w) true false (pure ()) s

end Sys2Proof.Machine
end

