-- ==== Sys2Proof/Machine/Tiles.lean ====
section
/-!
DEFINITION. Tile views (11 R268) and how the matrix engine reads and writes through them (R83, R136, R270, R273, R275):
engine reads of elements and scales, the stationary tile, the sums of a job, and a drained row's write.
-/

namespace Sys2Proof.Machine

open Sys2Proof

/-! ### Tile views (R268) -/

/-- A tile view as a descriptor's four words; a view never loaded is all zero (R269). -/
abbrev View := List W64

def View.w (v : View) (i : Nat) : W64 := v.getD i 0
def View.g (v : View) : Bool := bit (v.w 0) 63
def View.base (v : View) : Nat := bf (v.w 0) 0 55
def View.rows (v : View) : Nat := bf (v.w 1) 0 10
def View.cols (v : View) : Nat := bf (v.w 1) 10 10
def View.fmt (v : View) : Nat := bf (v.w 1) 20 4
def View.bdir (v : View) : Bool := bit (v.w 1) 24
def View.stride (v : View) : BitVec 32 := BitVec.ofNat 32 (bf (v.w 1) 32 32)
def View.bsp (v : View) : Nat := bf (v.w 2) 0 55
def View.bandp (v : View) : Nat := bf (v.w 3) 0 55

/-- The format of a FMT code. -/
def tileFmt (n : Nat) : Fmt :=
  match n with | 0 => .f32 | 1 => .f16 | 2 => .bf16 | 3 => .e4m3 | 4 => .e5m2 | _ => .e2m1
/-- The depth factor q of a stationary format (R270); 0 for f32. -/
def depthFactor (n : Nat) : Nat := match n with | 0 => 0 | 1 => 1 | 2 => 1 | 3 => 2 | 4 => 2 | _ => 4
/-- A 16-bit format. -/
def half16 (n : Nat) : Bool := n == 1 || n == 2
/-- Bytes of n elements of a format. -/
def elemBytes (fmt n : Nat) : Nat := (n * (tileFmt fmt).width + 7) / 8

/-- A descriptor that TVLD refuses (R269). R269 lists only 0 of ROWS and COLS; that a value above 512, outside the range
that R268 gives, is refused too is a DESIGN CHOICE of the model. See log 27. -/
def viewBad (v : View) : Bool :=
  bf (v.w 0) 55 8 != 0 || (!v.g && bf (v.w 0) 32 23 != 0) || bf (v.w 1) 25 7 != 0 || bf (v.w 2) 55 9 != 0 || bf (v.w 3) 55 9 != 0
    || v.rows == 0 || v.cols == 0 || decide (512 < v.rows) || decide (512 < v.cols) || decide (5 < v.fmt)
    || v.base % 16 != 0 || v.stride.toNat % 16 != 0

/-! ### Engine accesses as a core, through a cluster's windows (R83, R285) -/

/-- Who an engine acts as: a core, the cluster whose windows its local addresses name, and whether it reads committed
images only (R271). -/
structure Actor where
  core : Nat := 0
  cluster : Nat := 0
  committed : Bool := false

/-- An engine's work on the state. -/
abbrev E (α : Type) := StateT State (Except EStop) α

/-- Where a local address lies for an actor: window 0 is the core's own TCM, the windows are the cluster's. -/
def State.place (s : State) (w : Actor) (a n : Nat) : Loc :=
  if clusterOf w.core = w.cluster then s.locate w.core a n
  else if a % 2 ^ 32 / 2 ^ 24 = 0 then .unconf
  else s.locateWin w.cluster (a % 2 ^ 32 / 2 ^ 24) (a % 2 ^ 24) n

/-- The committed image of a local place (R84, R85). -/
def State.committedAt (s : State) (w : Actor) (l : Loc) (n : Nat) : Nat :=
  match l with
  | .tcm off =>
    let c := s.core w.core
    gather (fun a => match c.undo.find? (fun x => x.1 == a / 64) with
      | some x => byteOf x.2.toNat (a % 64)
      | none => c.tcmByte w.core a) off n
  | .pad off _ _ _ _ => gather (fun a => (s.cluster w.cluster).committedByte w.cluster (a % Config.padBytes)) off n
  | _ => 0

/-- An actor reads the committed images only: where it must, or through another cluster's windows (R82, R271). -/
def Actor.readsCommitted (w : Actor) : Bool := w.committed || decide (clusterOf w.core ≠ w.cluster)
/-- What an actor reads at a local place: the committed image where it must, or is not the owner (R82). -/
def State.localAs (s : State) (w : Actor) (l : Loc) (n : Nat) : Nat :=
  if w.readsCommitted then s.committedAt w l n else s.lreadAt w.core l n

/-- What an actor's read of n bytes at a place meets there: poison, or an error that cannot be corrected (R242, 25 R413). -/
def State.errorAs (s : State) (w : Actor) (l : Loc) (a : W64) (n : Nat) : Option EStop :=
  let line := w64 (alignTo 64 (a.toNat % 2 ^ 32))
  let of := fun (poison parity : Bool) => if poison then some (.fault 9 line) else if parity then some (.fault 10 line) else (none : Option EStop)
  let c := s.core w.core
  let k := s.cluster w.cluster
  match w.readsCommitted, l with
  | true, .tcm off => of (meetsMark c.committedMarked off n) (meetsBad c.committedBad off n)
  | true, .pad off _ _ _ _ => of (meetsMark k.committedMarked off n) (meetsBad k.committedBad off n)
  | _, l => of (s.localMark w.core l a.toNat n).isSome (s.meetsError w.core l n)
/-- The containment group of a fault that an actor meets: poison of a working image is group 2 (02 R52). -/
def State.workingAs (s : State) (w : Actor) (cause : Nat) (a : W64) : Bool := !w.readsCommitted && s.meetsWorking w.core cause a

/-- n bytes read by an engine as an actor. -/
def State.readAs (s : State) (w : Actor) (g : Bool) (a : W64) (n : Nat) : Except EStop (Nat × State) :=
  if g then s.eread w.core true a n
  else match s.place w a.toNat n with
    | .absent k win => .error (.wait (s.wanted k win))
    | .unconf => .ok (0, s.modCore w.core (fun c => c.diag 0 1))
    | l => match s.errorAs w l a n with | some e => .error e | none => .ok (s.localAs w l n, s)

/-- n bytes written by an engine as an actor. -/
def State.writeAs (s : State) (w : Actor) (g : Bool) (a : W64) (n x seq : Nat) : Except EStop State :=
  if g || decide (clusterOf w.core = w.cluster) then
    s.ewrite w.core g a n x seq
  else match s.place w a.toNat n with
    | .absent k win => .error (.wait (s.wanted k win))
    | .pad off cls _ win woff =>
      if cls = 0 then .ok (s.modCluster w.cluster (fun k => k.putPads off n x))
      else if cls = 2 then .ok (s.modCore w.core (fun c => c.diag 1 1))
      else .ok ((s.emitLine w.core seq (.window w.cluster win (alignTo 64 woff)) (woff % 64) n x).share w.core seq)
    | _ => .ok (s.modCore w.core (fun c => c.diag 0 1))

/-- An address displaced within a view: local addresses wrap in their window (R73). -/
def State.shift (s : State) (w : Actor) (g : Bool) (a : Nat) (d : Int) : W64 :=
  if g then w64 a + wi d else w64 (s.localPlus (w.cluster * 128) a d)

/-- The aligned 8-byte word of an address. -/
def readWord (w : Actor) (g : Bool) (a : W64) : E Nat := fun s => s.readAs w g (w64 (alignTo 8 a.toNat)) 8

/-- n bytes that lie in one aligned word. -/
def readSmall (w : Actor) (g : Bool) (a : W64) (n : Nat) : E Nat := do
  return (← readWord w g a) >>> (8 * (a.toNat % 8)) % 2 ^ (8 * n)

/-- The first n codes of row r of a view; nothing beyond its rows and columns is fetched (R268). -/
def readCodes (w : Actor) (v : View) (r n : Nat) : E (List Nat) := do
  if v.rows ≤ r then pure []
  else
    let n := Nat.min n v.cols
    let bits := (tileFmt v.fmt).width
    let s ← get
    let words ← ((List.range ((elemBytes v.fmt n + 7) / 8)).mapM (fun (i : Nat) =>
      readWord w v.g (s.shift w v.g v.base (v.stride.toInt * (r : Int) + ((8 * i : Nat) : Int)))))
    let all := words.foldr (fun x acc => x + acc * 2 ^ 64) 0
    pure ((List.range n).map (fun k => all >>> (bits * k) % 2 ^ bits))

/-- The block-scale code of element (r, c) of a view. -/
def readScale (w : Actor) (v : View) (r c : Nat) : E Nat := do
  let i := if v.bdir then r / 8 * v.cols + c else r * ((v.cols + 7) / 8) + c / 8
  readSmall w v.g ((← get).shift w v.g v.bsp i) 1

/-- The band-scale code of band i. -/
def readBand (w : Actor) (v : View) (i : Nat) : E Nat := do
  readSmall w v.g ((← get).shift w v.g v.bandp (2 * i)) 2

/-- The band scales of a depth of n. -/
def readBands (w : Actor) (v : View) (n : Nat) : E (Tab Nat) := do
  if v.bandp = 0 then pure []
  else (List.range ((n + 63) / 64)).mapM (fun i => do return (i, ← readBand w v i))

/-- Row r of a view as it streams: its first n codes, read through src (the view itself, or a ring slot laid out like
it), with the view's scales. -/
def readRow (w : Actor) (v src : View) (r n : Nat) : E StreamRow := do
  let codes ← readCodes w src r n
  let scales ← if v.bsp = 0 then pure [] else
    (List.range ((codes.length + 7) / 8)).mapM (fun b => do return (b, ← readScale w v r (8 * b)))
  let bands ← readBands w v codes.length
  return { fmt := v.fmt, codes := codes.zipIdx.map (fun p => (p.2, p.1)), scales := scales, bands := bands,
           scaled := v.bsp != 0, banded := v.bandp != 0 }

/-- The bits of a row's elements from its start. -/
def StreamRow.raw (r : StreamRow) : Nat := r.codes.foldl (fun acc p => acc + p.2 * 2 ^ ((tileFmt r.fmt).width * p.1)) 0

/-- A row taken from an operand stream or the chain, as row m of ATV gives it a meaning (R273): its bits in ATV's format,
with the scales that it carries (R280, R282, 18 R338), or, where it carries none of that format, those of ATV's planes. See log 27. -/
def readTaken (w : Actor) (atv : View) (m n : Nat) (r : StreamRow) : E StreamRow := do
  let bits := (tileFmt atv.fmt).width
  let have_ := r.codes.length * (tileFmt r.fmt).width / bits
  let codes := (List.range (Nat.min n have_)).map (fun k => (k, r.raw >>> (bits * k) % 2 ^ bits))
  let inView := if atv.rows ≤ m then 0 else Nat.min codes.length atv.cols
  let scales ← if atv.bsp = 0 then pure [] else if r.scaled ∧ r.fmt = atv.fmt then pure r.scales else
    (List.range ((inView + 7) / 8)).mapM (fun b => do return (b, ← readScale w atv m (8 * b)))
  let bands ← if r.banded ∧ r.fmt = atv.fmt ∧ atv.bandp ≠ 0 then pure r.bands else readBands w atv inView
  return { fmt := atv.fmt, codes := codes, scales := scales, bands := bands, scaled := atv.bsp != 0, banded := atv.bandp != 0 }

/-- A view that cannot be a stationary source: f32, its scale plane not along k, or never loaded (R269, R270). -/
def View.badTile (v : View) (west : Bool) : Bool :=
  v.rows == 0 || v.fmt == 0 || (v.bsp != 0 && v.bdir == west)

/-- The stationary tile of a view (R270). -/
def readTile (w : Actor) (v : View) (west : Bool) : E Tile := do
  let depth := 128 * depthFactor v.fmt
  let rows ← (List.range (Nat.min v.rows (if west then 128 else depth))).mapM (fun r =>
    readCodes w v r (if west then depth else 128))
  let codes := (rows.zipIdx).flatMap (fun p => p.1.zipIdx.map (fun q =>
    (if west then q.2 * 128 + p.2 else p.2 * 128 + q.2, q.1)))
  let kmax := Nat.min depth (if west then v.cols else v.rows)
  let nmax := Nat.min 128 (if west then v.rows else v.cols)
  let scales ← if v.bsp = 0 then pure [] else
    (List.range ((kmax + 7) / 8)).mapM (fun b => (List.range nmax).mapM (fun n => do
      return (b * 128 + n, ← if west then readScale w v n (8 * b) else readScale w v (8 * b) n)))
  let bands ← readBands w v kmax
  return { fmt := v.fmt, codes := codes, scales := scales.flatten, bands := bands, scaled := v.bsp != 0, banded := v.bandp != 0 }

/-! ### The sums (R136, R273) -/

/-- The exact sum of terms, as a term, with its flags. -/
def termSum (ts : List Term) : Term × Nat :=
  let v := sumTerms ts false
  match v.r with
  | .nan => (.nan, v.fl)
  | .inf n => (.inf n, v.fl)
  | .zero n => (.fin n ⟨0, 1⟩, v.fl)
  | .real _ =>
    let q := ts.foldl (fun (q : Q) t => match t with | .fin n m => q.add (if n then m.neg else m) | _ => q) ⟨0, 1⟩
    (.fin q.isNeg q.abs, v.fl)

/-- A term times a decoded scale. -/
def termScale (t : Term) (k : Fp) : Term × Nat :=
  mulTerm (match t with | .nan => .nan false | .inf n => .inf n | .fin n m => .fin n m) k

/-- A running sum in f32 with its flags. -/
abbrev Running := Nat × Nat

/-- c := Round(c + t, f32, RNE). -/
def accumulate (c : Running) (t : Term × Nat) : Running :=
  let v := sumTerms [(decodeFp false .f32 c.1).term, t.1] false
  let r := roundVal false .f32 .rne v
  (r.1, c.2 ||| t.2 ||| r.2 ||| nfOf [decodeFp false .f32 c.1] .f32 r.1
    ||| flagIf (match t.1 with | .fin _ _ => false | _ => true) NF)

/-- The decoded code of a row at k. -/
def StreamRow.at (r : StreamRow) (anm : Bool) (k : Nat) : Fp := decodeFp anm (tileFmt r.fmt) (tget r.codes k 0)
/-- The decoded code of a tile at (k, n). -/
def Tile.at (t : Tile) (anm : Bool) (k n : Nat) : Fp := decodeFp anm (tileFmt t.fmt) (tget t.codes (k * 128 + n) 0)
/-- The value 1. -/
def one : Fp := .fin false ⟨1, 1⟩
/-- A scale of an 8-bit or 4-bit operand; 16-bit operands enter with 1. -/
def scaleOf (anm : Bool) (fmt : Nat) (f : Fmt) (c : Option Nat) : Fp :=
  if half16 fmt then one else match c with | some x => decodeFp anm f x | none => one

/-- The block rule of R136 from c: over blocks of 8, the exact sum of the products that dep admits, times the block's
scales; a wholly masked block contributes nothing (R273). -/
def blockSum (depth : Nat) (a w : Nat → Fp) (scales : Nat → List Fp) (dep : Nat → Bool) (c : Nat) : Running :=
  (List.range (depth / 8)).foldl (fun acc b =>
    let ks := ((List.range 8).map (fun i => 8 * b + i)).filter dep
    if ks.isEmpty then acc
    else
      let ps := ks.map (fun k => mulTerm (a k) (w k))
      let p := termSum (ps.map (fun x => x.1))
      let q := (scales b).foldl (fun (x : Term × Nat) k => let y := termScale x.1 k; (y.1, x.2 ||| y.2)) (p.1, ps.foldl (fun f x => f ||| x.2) p.2)
      accumulate acc q) (c, 0)

/-- A job's position (m, n): the sum of R136 from c over the depths that dep admits; act tells that row and column are
not masked. A replaced position contributes an exact zero. -/
def jobCell (anm : Bool) (t : Tile) (r : StreamRow) (dep : Nat → Bool) (act : Bool) (n : Nat) (c : Nat) : Running :=
  let depth := 128 * depthFactor t.fmt
  if half16 r.fmt && half16 t.fmt then
    (List.range depth).foldl (fun a k =>
      accumulate a (if act && dep k then mulTerm (r.at anm k) (t.at anm k n) else (.fin false ⟨0, 1⟩, 0))) (c, 0)
  else if !act then (c, 0)
  else blockSum depth (r.at anm) (fun k => t.at anm k n) (fun b =>
    [scaleOf anm r.fmt .e3m5 (tfind r.scales b), scaleOf anm t.fmt .e3m5 (tfind t.scales (b * 128 + n)),
     scaleOf anm r.fmt .bf16 (tfind r.bands (b / 8)), scaleOf anm t.fmt .bf16 (tfind t.bands (b / 8))]) dep c

/-- The FLAGS field of a record (R267) of flags as FCSR numbers them. -/
def recordFlags (fl : Nat) : Nat :=
  b2n (fl.testBit 0) + 2 * b2n (fl.testBit 2) + 4 * b2n (fl.testBit 3) + 8 * b2n (fl.testBit 4) + 16 * b2n (fl.testBit 5)

/-! ### A drained row's write (R275) -/

/-- The elements of a row bound for a view: address, bytes, value; and the flags of the conversions. -/
def State.rowElems (s : State) (w : Actor) (v : View) (m : Nat) (col : Nat → Bool) (vals : Nat → Nat) : List (W64 × Nat × Nat) × Nat :=
  let n := elemBytes v.fmt 1
  let ks : List Nat := if v.rows ≤ m then [] else (List.range (Nat.min 128 v.cols)).filter col
  let l := ks.map (fun (k : Nat) =>
    let r : Nat × Nat := if v.fmt = 0 then (vals k, 0) else
      let x := decodeFp false .f32 (vals k)
      let y := convertFp false (tileFmt v.fmt) .rne { r := x.res } x.signalling
      (y.1, y.2)
    (s.shift w v.g v.base (v.stride.toInt * (m : Int) + Int.ofNat (k * n)), r.1, r.2 ||| nfOf [decodeFp false .f32 (vals k)] (tileFmt v.fmt) r.1))
  (l.map (fun e => (e.1, n, e.2.1)), l.foldl (fun f e => f ||| e.2.2) 0)

/-- The elements of a row bound for a ring slot: f32 words from its start. -/
def State.slotElems (s : State) (w : Actor) (addr : Nat) (col : Nat → Bool) (vals : Nat → Nat) : List (W64 × Nat × Nat) :=
  ((List.range 128).filter col).map (fun (k : Nat) => (s.shift w false addr (4 * k), 4, vals k))

/-- Elements written; one that reaches an unconfigured window is dropped, and each 8-byte word of them counts once
(R73, R275). -/
def State.writeElems (s : State) (w : Actor) (g : Bool) (seq : Nat) (l : List (W64 × Nat × Nat)) : Except EStop State :=
  let lost := l.filter (fun e => !g && decide (s.place w e.1.toNat 8 = .unconf))
  let words := lost.foldl (fun ws e => insertNew ws (e.1.toNat / 8)) []
  (l.filter (fun e => !lost.contains e)).foldlM (fun s e => s.writeAs w g e.1 e.2.1 e.2.2 seq)
    (s.modCore w.core (fun c => c.diag 0 words.length))

end Sys2Proof.Machine
end

