-- ==== Sys2Proof/Machine/Matrix.lean ====
section
/-!
DEFINITION. The matrix engine (11 R265-R287): tile views, stationary loads, jobs, operand streams, the lead span,
capabilities and remote jobs, drain handlers, and the steps the engine takes by itself.
-/

namespace Sys2Proof.Machine

open Sys2Proof

/-! ### TVLD (R269) -/

/-- TVLD (R269). -/
def execTvld (a : BitVec 6) (n : BitVec 4) (s : State) : Host.Outcome State Fault Refusal :=
  run (.tvld a n) false (!xOnly a) (do
    let l ← descRead (s.xval a).toNat 32
    if viewBad l then illegalOperand
    else modCore (fun c => { c with views := tput c.views n.toNat l })) s

/-- A command that names some views waits for every earlier TVLD of the context that loads one of them (R269). -/
def viewsReady (views : List Nat) : M Unit := do
  let s ← get
  let x ← getCtx
  await (!x.ah.any (fun sl => decide (sl.iss.seq < s.issue.seq) && (match sl.instr with | .tvld _ n => views.contains n.toNat | _ => false)))

/-- Tile view n of a core as it stands. -/
def Core.view (c : Core) (n : Nat) : View := (tfind c.views n).getD [0, 0, 0, 0]

/-- An AH access earlier in program order has not issued. -/
def accessAhead (x : Ctx) (seq : Nat) : Bool := x.ah.any (fun sl => decide (sl.iss.seq < seq) && ahAccess sl.instr)

/-- What an engine command of the EH waits for: what release fences hold later stores for (R112), and, with a flag whose
scope takes in the engine, every earlier access (R107, R118). -/
def commandOrder (flagged : Bool) (scope : Nat) : M Unit := do
  passPoint true
  let s ← get
  if flagged && takesCore scope then do
    await (!accessAhead (s.ctx s.issue.core s.issue.ctx) s.issue.seq)
    settled true
  else pure ()

/-! ### Records and queues (R267, R272) -/

/-- The word of a record. -/
def JobRec.word (r : JobRec) (id : Nat) : W64 :=
  w64 (r.state + 4 * r.status + 64 * r.flags + 65536 * id + 2 ^ 32 * (r.rows % 256))

/-- The record of an identifier, kept by the core that submitted it; none holds it: STATE 3, STATUS 15. -/
def State.jobRecord (s : State) (c id : Nat) : W64 :=
  match tfind (s.core c).recs id with
  | some r => r.word id
  | none => w64 (3 + 4 * 15 + 65536 * id)

/-- The next job identifier of the issuing core. -/
def takeJobId : M Nat := do
  let id := (← getCore).jobNext
  modCore (fun c => { c with jobNext := (c.jobNext + 1) % 2 ^ 16 })
  return id

/-- A job queued on an engine (R272): the queue holds 32. The key is the engine's own count; the record stays at the
submitting core, the newest holder of its identifier (R267, R285). -/
def submit (t : Nat) (j : Job) : M Nat := do
  await (decide (((← get).team t).queue.length < Config.jobQueue))
  let id ← takeJobId
  let key := ((← get).team t).jobKey
  modCore (fun c => { c with recs := tput c.recs id { team := t, key := key } })
  modify (fun s => (s.modTeam t (fun x => { x with queue := x.queue ++ [{ j with id := id, key := x.jobKey }], jobKey := x.jobKey + 1 })).pend
    [.matrixJobStart t])
  return id

/-! ### MLOADN, MLOADW (R270) -/

/-- The template of R270. -/
def loadTile (i : Instr) (west : Bool) (d : BitVec 6) (n : BitVec 4) (s : State) : Host.Outcome State Fault Refusal :=
  run i false (!s.ehDst false d) (do
    viewsReady [n.toNat]
    commandOrder (s.kind != 0) s.scope
    let c := s.issue.core
    let v := (s.core c).view n.toNat
    let id ← submit (teamOf c) { core := c, cls := c % 8, load := true, west := west, stv := v, flagsReq := s.kind, scope := s.scope,
                                 weight := bf (s.ctx c s.issue.ctx).mshare 0 4 }
    gPush d (w64 id)) s

/-- MLOADN (R270). -/
def execMloadn (d : BitVec 6) (n : BitVec 4) (s : State) : Host.Outcome State Fault Refusal := loadTile (.mloadn d n) false d n s
/-- MLOADW (R270). -/
def execMloadw (d : BitVec 6) (n : BitVec 4) (s : State) : Host.Outcome State Fault Refusal := loadTile (.mloadw d n) true d n s

/-! ### MJOB, MSEND (R272, R274, R285) -/

/-- Fields of a job descriptor (R272). -/
def Job.smode (j : Job) : Nat := bf (j.w 0) 0 2
def Job.skind (j : Job) : Nat := bf (j.w 0) 10 2
def Job.sid (j : Job) : Nat := bf (j.w 0) 12 6
def Job.m (j : Job) : Nat := bf (j.w 0) 18 8
def Job.kcnt (j : Job) : Nat := bf (j.w 0) 26 10
def Job.ncnt (j : Job) : Nat := bf (j.w 0) 36 8
def Job.acc (j : Job) : Bool := bit (j.w 0) 44
def Job.first (j : Job) : Bool := bit (j.w 0) 45
def Job.final (j : Job) : Bool := bit (j.w 0) 46
def Job.dtvNo (j : Job) : Nat := bf (j.w 0) 52 4
def Job.dring (j : Job) : Bool := bit (j.w 0) 56
/-- Col(n) of R273. -/
def Job.col (j : Job) (n : Nat) : Bool := decide (n < j.ncnt) && (bf (j.w 1) 14 6 == 63 || bit j.cmask n)
/-- Dep(k) of R273. -/
def Job.dep (j : Job) (q k : Nat) : Bool := decide (k < j.kcnt) && (bf (j.w 1) 20 6 == 63 || bit j.kmask (k / q))

/-- A mask code that R272 refuses. -/
def maskBad (c : Nat) : Bool := decide (48 ≤ c) && decide (c ≤ 62)

/-- The checks of R272 and R274, but for the scope; openGroup tells that the core holds an open group. -/
def jobBad (j : Job) (rings : Tab Ring) (openGroup : Bool) : Bool :=
  bf (j.w 0) 57 7 != 0 || bf (j.w 1) 26 38 != 0 || bf (j.w 2) 55 9 != 0 || j.smode == 3 || j.m == 0 || decide (128 < j.m)
    || j.kcnt == 0 || decide (512 < j.kcnt) || j.ncnt == 0 || decide (128 < j.ncnt)
    || maskBad (bf (j.w 1) 8 6) || maskBad (bf (j.w 1) 14 6) || maskBad (bf (j.w 1) 20 6)
    || (j.skind == 2 && (match tfind rings (j.sid % 16) with | some r => r.cons != 2 | none => true))
    || (j.dring && (match tfind rings j.dtvNo with | some r => r.prod != 2 | none => true))
    || j.first == openGroup

/-- A mask register read at issue. -/
def readMask (code : Nat) : M W128 := do
  if code < 48 then return BitVec.ofNat 128 (← rsRead (vAddr (← get).issue.view code) 16) else pure 0

/-- The core as which row m of a job drains (R83): its handler's, or the submitting core. -/
def Job.writer (j : Job) (t m : Nat) : Nat := match j.handlerOf m with | some h => t * 8 + h | none => j.core

/-- The rows bound for ring h of core c that jobs issued earlier have still to drain. -/
def State.ringRows (s : State) (c h : Nat) : Nat :=
  (s.teams.map (fun p => ((p.2.queue ++ p.2.jobs).filter (fun j => j.core == c && j.final && !j.load && j.dring && j.dtvNo == h && j.state != 3)).map
    (fun j => if j.state = 0 then j.rowList.length else j.left.length))).flatten.sum

/-- Where the n rows of a job may come to lie in its ring, in order (R96, R97): in the home slots that follow those of the rows before
them, and, of an elastic ring, in the blocks that it may borrow. -/
def State.rowSlots (s : State) (c h n : Nat) (r : Ring) : List Nat :=
  (List.range (Nat.min n r.cap)).map (fun i => s.homeSlot c r ((r.home + s.ringRows c h + i) % r.cap))
    ++ (if r.elastic then ((s.core c).poolBlocks r.slotBytes).take (Nat.min n r.plim) else [])

/-- The drain target's lines, for which a job reserves (R86, R335), each with the core that writes it on the engine of
team t: the distinct lines of the rows and columns counted, whatever the masks, or of the producer slot of each of its rows. Each core
that writes to a line sends its own delta, which takes an entry. See log 27. -/
def State.drainLines (s : State) (t : Nat) (j : Job) : Bool × List (Nat × Nat) :=
  let k := t / 16
  if !j.final then (false, [])
  else if j.dring then
    match (s.core j.core).ring j.dtvNo with
    | some r =>
      let rows := j.rowList
      (false, (s.rowSlots j.core j.dtvNo rows.length r).zipIdx.foldl (fun acc x =>
        let w := j.writer t (rows.getD (x.2 % Nat.min rows.length r.cap) 0)
        acc ++ ((s.sideLines j.core false x.1 0 1 r.slotBytes).filter (fun l => !acc.contains (w, l))).map (fun l => (w, l))) [])
    | none => (false, [])
  else if 2 < View.fmt j.dtv then (false, [])
  else
    let v : View := j.dtv
    (v.g, (List.range (Nat.min j.m v.rows)).foldl (fun acc m =>
      let w := j.writer t m
      let a := s.sideAddr (k * 128) v.g v.base v.stride m 0
      acc ++ ((s.sideLines (k * 128) v.g a.toNat 0 1 (elemBytes v.fmt (Nat.min j.ncnt v.cols))).filter (fun l =>
        !acc.contains (w, l))).map (fun l => (w, l))) [])

/-- One entry reserved at issue for a line that an engine of cluster k writes as core c: in another cluster's windows a
line of a versioned window takes a pool entry there (R285). -/
def State.reserveAs (s : State) (c k : Nat) (g : Bool) (a : Nat) : Except EStop State :=
  if g || decide (clusterOf c = k) then s.reserve1 c g (w64 a)
  else match s.resolveWin k (a % 2 ^ 32 / 2 ^ 24) (a % 2 ^ 24) 1 with
    | .pad _ cls _ _ _ =>
      if cls ≠ 1 ∨ a % 2 ^ 32 / 2 ^ 24 = 0 then .ok s
      else if (s.cluster k).poolUsed < Config.poolEntries then .ok (s.modCluster k (fun x => { x with reserved := x.reserved + 1 }))
      else .error (.fault 12 0)
    | _ => .ok s

/-- A job's version entries on the engine of team t, taken at its issue; a page that is not there yet is awaited. Of the traps that the
reservation and the command's reads find, the one with the lowest cause is raised (R428). -/
def reserveJob (j : Job) (t : Nat) : M Bool := do
  let s ← get
  let r := s.drainLines t j
  match reserveEach (fun s x => s.reserveAs x.1 (t / 16) r.1 x.2) s r.2 with
  | .ok u => do checkReads false; set u; pure true
  | .error (.wait l) => do stallFor l; pure false
  | .error (.fault k a) =>
    if s.issue.ign.contains k then do checkReads false; pure false
    else do
      if 8 < k then checkReads false else pure ()
      trapWith k a
      pure false

/-- The job that v[A] and v[A+1] describe, with its masks and views as they stand; the caller judges the reads after the
descriptor (R428). Its class has the weight that MSHARE.WEIGHT holds at its submission: a DESIGN CHOICE of the model, since R276 does
not say when it is read. See log 27. -/
def jobOfRegs (a : BitVec 6) : M Job := do
  let s ← get
  let c := s.core s.issue.core
  let lo ← rsRead (vAddr s.issue.view a.toNat) 16
  let hi ← rsRead (vAddr s.issue.view (a.toNat + 1)) 16
  let j : Job := { core := s.issue.core, words := [w64 lo, w64 (lo >>> 64), w64 hi, w64 (hi >>> 64)] }
  viewsReady ((if j.smode = 1 ∨ j.smode = 2 then [bf (j.w 0) 2 4] else []) ++ [bf (j.w 0) 6 4] ++ (if j.dring then [] else [j.dtvNo]))
  let rm ← readMask (bf (j.w 1) 8 6)
  let cm ← readMask (bf (j.w 1) 14 6)
  let km ← readMask (bf (j.w 1) 20 6)
  return { j with rmask := rm, cmask := cm, kmask := km, stv := c.view (bf (j.w 0) 2 4), atv := c.view (bf (j.w 0) 6 4),
                  dtv := c.view j.dtvNo, weight := bf (s.ctx s.issue.core s.issue.ctx).mshare 0 4,
                  flagsReq := bf (j.w 0) 47 2, scope := bf (j.w 0) 49 3 }

/-- MJOB (R272, R274). See log 27. -/
def execMjob (d a : BitVec 6) (s : State) : Host.Outcome State Fault Refusal :=
  run (.mjob d a) false (!s.ehDst false d || decide (46 < a.toNat)) (do
    let c := s.issue.core
    let j ← jobOfRegs a
    let co ← getCore
    require (!jobBad j co.rings co.group.isSome) 2 0
    require (decide (j.scope < 6)) 3 0
    commandOrder (j.flagsReq != 0) j.scope
    let t := teamOf c
    await (decide (((← get).team t).queue.length < Config.jobQueue))
    if ← reserveJob j t then do
      let key := ((← get).team t).jobKey
      let group := if j.first then key else co.group.getD 0
      let id ← submit t { j with cls := c % 8, group := group }
      modCore (fun x => { x with group := if j.final then none else some group })
      gPush d (w64 id)
    else gPush d (w64 (← takeJobId))) s

/-- The keyed check of a capability (R283). -/
def State.capKey (s : State) (c : Nat) : W64 := (s.node (s.nodeOf c)).key

/-- A capability checked by the engine of team t for the rights that a command needs (R284); 0 passes. -/
def State.capStatus (s : State) (t : Nat) (cap : W64) (need : Nat) : Nat :=
  let c := match (List.range 8).find? (fun i => (s.domOf (t * 8 + i)).isSome) with | some i => t * 8 + i | none => t * 8
  let ssn := match s.domOf c with | some d => d.ssn.toNat | none => 0
  if bf cap 42 22 ≠ (Config.capCheck (s.capKey c) (BitVec.ofNat 42 (bf cap 0 42))).toNat then 1
  else if bf cap 18 8 ≠ s.tenantOf c % 256 then 4
  else if 2 ^ 15 ≤ (bf cap 26 16 + 2 ^ 16 - ssn % 2 ^ 16) % 2 ^ 16 then 2
  else if bf cap 0 10 ≠ t then 5
  else if bf cap 10 8 &&& need ≠ need then 3
  else 0

/-- MSEND (R285): the job travels to the engine that the capability names. See log 27. -/
def execMsend (d a b : BitVec 6) (s : State) : Host.Outcome State Fault Refusal :=
  run (.msend d a b) false (!s.ehDst false d || decide (46 < a.toNat) || !s.ehSrc false b) (do
    let j ← jobOfRegs a
    let cap ← gPop b
    let co ← getCore
    require (!(jobBad j co.rings co.group.isSome || !j.first || !j.final || !j.acc || j.skind != 0 || j.dring)) 2 0
    require (decide (j.scope < 6)) 3 0
    commandOrder (j.flagsReq != 0) j.scope
    let t := bf cap 0 10
    await (decide (((← get).team t).queue.length < Config.jobQueue))
    if ← reserveJob j t then do
      let key := ((← get).team t).jobKey
      let id ← submit t { j with cls := 8, group := key, cap := cap }
      gPush d (w64 id)
    else gPush d (w64 (← takeJobId))) s

/-- MWAIT (R278). -/
def execMwait (d a : BitVec 6) (s : State) : Host.Outcome State Fault Refusal :=
  run (.mwait d a) false (s.gBad d [a]) (do
    let id := bf (← gPop a) 0 16
    checkReads false
    let r := (← get).jobRecord s.issue.core id
    await (bf r 0 2 == 3)
    gPush d r) s

/-- MPOLL (R278). -/
def execMpoll (d a : BitVec 6) (s : State) : Host.Outcome State Fault Refusal :=
  run (.mpoll d a) false (s.gBad d [a]) (do
    let id := bf (← gPop a) 0 16
    gPush d ((← get).jobRecord s.issue.core id)) s

/-! ### Operand streams (R280, R281) -/

/-- Bytes of the replay store that a stream takes. -/
def streamBytes (v : View) : Nat := v.rows * (16 * ((elemBytes v.fmt v.cols + 15) / 16))

/-- An engine of cluster k subscribes to a stream. -/
def State.subscribed (s : State) (k sid : Nat) : Bool :=
  (List.range 16).any (fun i => (s.team (k * 16 + i)).subs.any (fun x => x.sid == sid))

/-- A stream that has had a subscriber and has none left ends (R281). -/
def State.endStream (s : State) (k sid : Nat) : State :=
  match tfind (s.cluster k).streams sid with
  | some x => if x.subscribed && !s.subscribed k sid then s.modCluster k (fun c => { c with streams := tdel c.streams sid }) else s
  | none => s

/-- MPUB (R280). -/
def execMpub (d a : BitVec 6) (n : BitVec 4) (s : State) : Host.Outcome State Fault Refusal :=
  let c := s.issue.core
  let k := clusterOf c
  run (.mpub d a n) false (!s.ehDst false d) (do
    viewsReady [n.toNat]
    let v := (← getCore).view n.toNat
    require (!(decide (128 < v.rows) || v.fmt == 0)) 2 0
    commandOrder (s.kind != 0) s.scope
    let cl := (← get).cluster k
    if (tfind cl.streams a.toNat).isSome then gPush d 1
    else do
      await (decide ((cl.streams.map (fun x => x.2.bytes)).sum + streamBytes v ≤ Config.replayStore))
      let st : Stream := { core := c, view := v, subscribed := (← get).subscribed k a.toNat, bytes := streamBytes v }
      modify (fun t => (t.modCluster k (fun x => { x with streams := tput x.streams a.toNat st })).pend [.streamPublishRead k a.toNat])
      gPush d 0) s

/-- MSUB (R281). -/
def execMsub (d a b : BitVec 6) (s : State) : Host.Outcome State Fault Refusal :=
  let c := s.issue.core
  run (.msub d a b) false (s.gBad d [b]) (do
    let w := (← gPop b).toNat
    require (decide (1 ≤ w) && decide (w ≤ 65535)) 2 0
    checkReads false
    passPoint true
    if ((← get).team (teamOf c)).subs.any (fun x => x.sid == a.toNat) then gPush d 1
    else do
      modify (fun t => (t.modTeam (teamOf c) (fun x => { x with subs := x.subs ++ [{ sid := a.toNat, left := w }] })).modCluster (clusterOf c)
        (fun k => match tfind k.streams a.toNat with
          | some x => { k with streams := tput k.streams a.toNat { x with subscribed := true } }
          | none => k))
      gPush d 0) s

/-- MUNSUB (R281). -/
def execMunsub (a : BitVec 6) (s : State) : Host.Outcome State Fault Refusal :=
  let t := teamOf s.issue.core
  run (.munsub a) false false (modify (fun x =>
    ((x.modTeam t (fun y => { y with subs := y.subs.filter (fun z => z.sid != a.toNat) })).endStream (t / 16) a.toNat).pend [.matrixJobStart t])) s

/-! ### The lead span (R282) and capabilities (R283) -/

/-- The chain that waits takes effect when none of the jobs it waits for is queued. -/
def State.linkChain (s : State) (k : Nat) : State :=
  match (s.cluster k).chainNext with
  | none => s
  | some (n, keys) =>
    let left := keys.filter (fun x => (s.team (k * 16 + x % 16)).queue.any (fun j => j.key == x / 16))
    if left.isEmpty then
      (List.range 4).foldl (fun s i => if i = 0 then s else s.modTeam (k * 16 + i) (fun t => { t with chainRows := [] }))
        (s.modCluster k (fun c => { c with chain := n, chainNext := none }))
    else s.modCluster k (fun c => { c with chainNext := some (n, left) })

/-- MCHAIN (R282). -/
def execMchain (d a : BitVec 6) (n : BitVec 3) (s : State) : Host.Outcome State Fault Refusal :=
  let t := teamOf s.issue.core
  let k := t / 16
  run (.mchain d a n) false (s.gBad d [a] || t % 16 != 0 || decide (n.toNat < 1) || decide (4 < n.toNat)) (do
    let cap ← gPop a
    checkReads false
    passPoint true
    let st := (← get).capStatus t cap 4
    if st = 0 then
      modify (fun x =>
        let keys := (List.range n.toNat).flatMap (fun i => (x.team (k * 16 + i)).queue.map (fun j => j.key * 16 + i))
        (x.modCluster k (fun c => { c with chainNext := some (n.toNat, keys) })).linkChain k)
    else pure ()
    gPush d (w64 st)) s

/-- MCAP (R283). -/
def execMcap (d a b : BitVec 6) (s : State) : Host.Outcome State Fault Refusal :=
  run (.mcap d a b) false (s.gBad d [a, b]) (do
    let x ← gPop a
    let y ← gPop b
    require (bf x 13 51 == 0 && bf y 16 48 == 0) 2 0
    checkReads false
    let low := bf x 0 18 + (s.tenantOf s.issue.core % 256) * 2 ^ 18 + bf y 0 16 * 2 ^ 26
    gPush d (w64 (low + (Config.capCheck (s.capKey s.issue.core) (BitVec.ofNat 42 low)).toNat * 2 ^ 42))) s

/-! ### Starting a job (R271, R273, R274, R276) -/

/-- The engine acts for a job as its submitting core, through its own cluster's windows. -/
def Job.actor (j : Job) (t : Nat) : Actor := { core := j.core, cluster := t / 16 }

/-- The stationary tile replaced, with its source. -/
def setTile (t : Nat) (tile : Tile) (src : TileSource) : E Unit :=
  modify (fun s => s.modTeam t (fun x => { x with tile := some tile, source := some src }))

/-- The tile a job works with (R270, R271): loaded, kept, or reloaded from the committed images of its source; or the
status that ends the job. -/
def jobTile (t : Nat) (j : Job) : E (Except Nat Tile) := do
  let tm := (← get).team t
  if j.load || j.smode != 0 then do
    let west := if j.load then j.west else j.smode == 2
    if View.badTile j.stv west then return .error 7
    else do
      let tile ← readTile (j.actor t) j.stv west
      setTile t tile { view := j.stv, west := west, core := j.core }
      return .ok tile
  else match tm.tile, tm.source with
    | some tile, _ => return .ok tile
    | none, none => return .error 6
    | none, some src => do
      let tile ← readTile { core := src.core, cluster := t / 16, committed := true } src.view src.west
      setTile t tile src
      return .ok tile

/-- The lead span forwards the rows of this engine. -/
def State.leads (s : State) (t : Nat) : Bool := t % 16 == 0 && decide (2 ≤ (s.cluster (t / 16)).chain)
/-- The engine takes forwarded rows. -/
def State.follows (s : State) (t : Nat) : Bool := t % 16 != 0 && decide (t % 16 < (s.cluster (t / 16)).chain)

/-- The rows a job streams (R273, R281, R282), by row number; a row that no source gives reads as +0. A status ends the
job. Masked rows are fetched only when the lead span forwards them. -/
def jobRows (t : Nat) (j : Job) : E (Except Nat (List StreamRow)) := do
  let s ← get
  let tm := s.team t
  let atv : View := j.atv
  let n := if s.leads t then 512 else j.kcnt
  let take (l : List StreamRow) : E (List StreamRow) := (List.range j.m).mapM (fun m => readTaken (j.actor t) atv m n (l.getD m {}))
  let fetch (src : View) : E (List StreamRow) := (List.range j.m).mapM (fun m =>
    if j.row m || s.leads t then readRow (j.actor t) atv src m n else pure { fmt := atv.fmt })
  match j.skind with
  | 0 => return .ok (← fetch atv)
  | 1 =>
    match tm.subs.find? (fun x => x.sid == j.sid), tfind (s.cluster (t / 16)).streams j.sid with
    | some x, some st => do
      let subs := tm.subs.filter (fun y => y.sid != j.sid) ++ (if x.left ≤ 1 then [] else [{ x with left := x.left - 1 }])
      set ((s.modTeam t (fun y => { y with subs := subs })).endStream (t / 16) j.sid)
      return .ok (← take st.rows)
    | _, _ => return .error 8
  | 2 =>
    match (s.core j.core).ring (j.sid % 16) with
    | none => return .error 7
    | some r =>
      match r.at r.cnext with
      | none => return .error 7
      | some slot => do
        let rows ← fetch [w64 slot.addr, atv.w 1, atv.w 2, atv.w 3]
        modify (fun s => s.modRing j.core (j.sid % 16) (fun r => { r.free slot.pos with cnext := r.cnext + 1 }))
        return .ok rows
  | _ =>
    if s.follows t then do
      modify (fun s => s.modTeam t (fun y => { y with chainRows := y.chainRows.drop j.m }))
      return .ok (← take tm.chainRows)
    else return .error 8

/-- The status that R269, R273 and R275 give a job by itself, 0 for none. -/
def State.formStatus (s : State) (j : Job) (q : Nat) : Nat :=
  let atv : View := j.atv
  let dtv : View := j.dtv
  let drain :=
    if !j.final then false
    else if j.dring then (match (s.core j.core).ring j.dtvNo with | some r => decide (r.slotBytes < 512) | none => true)
    else dtv.rows == 0 || decide (2 < dtv.fmt)
  if 128 * q < j.kcnt ∨ atv.fmt = 0 ∨ (atv.bsp ≠ 0 ∧ atv.bdir) ∨ (j.skind = 0 ∧ atv.rows = 0) ∨ drain then 7 else 0

/-- A remote job's checks (R284, R285): its capability, then local views in window 0; a view never loaded gives STATUS 7
(R269). -/
def State.remoteStatus (s : State) (t : Nat) (j : Job) : Nat :=
  let st := s.capStatus t j.cap (if j.smode = 0 then 1 else 3)
  let own := fun (v : View) => v.rows != 0 && !v.g && decide (v.base / 2 ^ 24 = 0)
  if j.cls ≠ 8 then 0
  else if st ≠ 0 then st
  else if (j.smode ≠ 0 ∧ own j.stv) ∨ own j.atv ∨ own j.dtv then 9 else 0

/-- The buffer of a group. -/
def Team.bufferOf (t : Team) (g : Nat) : Tab (BitVec 32) :=
  if t.buf0.group = some g then t.buf0.words else if t.buf1.group = some g then t.buf1.words else []
/-- The buffer of a group with other words. -/
def Team.setBuffer (t : Team) (g : Nat) (l : Tab (BitVec 32)) : Team :=
  if t.buf0.group = some g then { t with buf0 := { t.buf0 with words := l } }
  else if t.buf1.group = some g then { t with buf1 := { t.buf1 with words := l } } else t
/-- A free buffer taken for a group (R274). -/
def Team.takeBuffer (t : Team) (g : Nat) : Team :=
  if t.buf0.group = none then { t with buf0 := { group := some g } } else { t with buf1 := { group := some g } }
/-- A group's buffer freed: it reads as zeros. -/
def Team.freeBuffer (t : Team) (g : Nat) : Team :=
  if t.buf0.group = some g then { t with buf0 := {} } else if t.buf1.group = some g then { t with buf1 := {} } else t

/-- The buffer after a job, and its flags (R273). -/
def jobSums (anm : Bool) (j : Job) (tile : Tile) (rows : List StreamRow) (buf : Tab (BitVec 32)) : Tab (BitVec 32) × Nat :=
  let q := depthFactor tile.fmt
  let cells := (List.range 128).flatMap (fun m => (List.range 128).map (fun n =>
    let c := if j.acc then (tget buf (m * 128 + n) 0).toNat else 0
    (m * 128 + n, jobCell anm tile (rows.getD m { fmt := View.fmt j.atv }) (j.dep q) (j.row m && j.col n) n c)))
  (cells.filterMap (fun p => if p.2.1 = 0 then none else some (p.1, BitVec.ofNat 32 p.2.1)), cells.foldl (fun f p => f ||| p.2.2) 0)

/-- A job run from its stream into its buffer: the status, the flags. DESIGN CHOICE: the engine decodes with the ANM of the core
that submitted the job (R128). See log 29. -/
def runJob (t : Nat) (j : Job) : E (Nat × Nat) := do
  let bad := (← get).remoteStatus t j
  if bad ≠ 0 then return (bad, 0)
  else if j.load then
    match ← jobTile t j with
    | .error st => return (st, 0)
    | .ok _ => return (0, 0)
  else
    match ← jobTile t j with
    | .error st => return (st, 0)
    | .ok tile =>
      let st := (← get).formStatus j (depthFactor tile.fmt)
      if st ≠ 0 then return (st, 0)
      else match ← jobRows t j with
        | .error st => return (st, 0)
        | .ok rows => do
          let s ← get
          let r := jobSums (s.core j.core).anm j tile rows ((s.team t).bufferOf j.group)
          set (s.modTeam t (fun x => { x.setBuffer j.group r.1 with chainRows := if s.leads t then x.chainRows ++ rows else x.chainRows }))
          return (0, recordFlags r.2)

/-- What a job at the head of its class waits for, other than memory (R274, R276, R281, R282, R96). -/
def State.jobReady (s : State) (t : Nat) (j : Job) : Bool :=
  let tm := s.team t
  j.load ||
    ((!j.first || tm.buf0.group.isNone || tm.buf1.group.isNone)
      && (!s.leads t || tm.chainRows.isEmpty)
      && (match j.skind with
        | 1 => match tm.subs.find? (fun x => x.sid == j.sid) with
          | some _ => (match tfind (s.cluster (t / 16)).streams j.sid with | some st => st.read | none => false)
          | none => true
        | 2 => match (s.core j.core).ring (j.sid % 16) with
          | some r => (match r.at r.cnext with | some x => x.state == .full | none => false)
          | none => true
        | 3 => !s.follows t || decide (j.m ≤ tm.chainRows.length)
        | _ => true))

/-- A row written to its job's target (R275) as an actor: a view, or the slot of a ring position. The state, and the
flags of the conversions. -/
def State.writeRow (s : State) (w : Actor) (j : Job) (m pos : Nat) (mask : Nat → Bool) (vals : Nat → Nat) : Except EStop (State × Nat) :=
  let col := fun n => j.col n && mask n
  let r := s.takeSeq w.core
  if j.dring then
    match (s.core j.core).ring j.dtvNo with
    | none => .ok (s, 0)
    | some ring =>
      match ring.at pos with
      | none => .ok (s, 0)
      | some slot =>
        match r.2.writeElems w false r.1 (r.2.slotElems w slot.addr col vals) with
        | .ok u => .ok (u, 0)
        | .error e => .error e
  else
    let v : View := j.dtv
    let e := r.2.rowElems w v m col vals
    match r.2.writeElems w v.g r.1 e.1 with
    | .ok u => .ok (u, recordFlags e.2)
    | .error x => .error x

/-- The fault that the drain of a job would meet, found before anything is written (R267). -/
def State.drainFault (s : State) (t : Nat) (j : Job) : Option Fail :=
  if !j.final || j.load || j.dring then none
  else j.rowList.findSome? (fun m =>
    match s.writeRow { core := j.writer t m, cluster := t / 16 } j m 0 (fun _ => true) (fun _ => 0) with
    | .error (.fault k a) => some (k, a)
    | _ => none)

/-- A queued job moved among those that run, with its outcome: a status ends it, otherwise it drains its rows. -/
def State.launchJob (s : State) (t : Nat) (j : Job) (status flags : Nat) : State :=
  let left := if status = 0 ∧ !j.load ∧ j.final then j.rowList else []
  let s := s.modTeam t (fun x =>
    let x := { x with jobs := x.jobs ++ [{ j with state := 1, status := status, flags := flags, left := left }] }
    if left.isEmpty && j.final && !j.load then x.freeBuffer j.group else x)
  let s := s.modJob t j.key id
  (s.linkChain (t / 16)).pend [.drainRow t, .matrixJobComplete t, .chainForward (t / 16), .matrixJobStart t]

/-- A job started: the state after it, or what it waits for. A fault, of the stream or of the drain to come, enters
containment at core level (R226, R289) and ends the job with STATUS 9; such a job writes nothing (R267). A job that starts and ends
by its form or a fault takes no window of a stream: a DESIGN CHOICE of the model beside R281. See log 27. -/
def State.startJob (s : State) (t : Nat) (j : Job) : Except (List Chore) State :=
  let s0 := s.modTeam t (fun x =>
    let x := { x with queue := x.queue.filter (fun y => y.key != j.key) }
    if j.first && !j.load then x.takeBuffer j.group else x)
  let fault := fun (k : Nat) (a : W64) =>
    (s0.contain 1 j.core none 0 (groupOf k (!s0.workingAs (j.actor t) k a)) (sourceOf k a) (logKind k) (logAddr k a)).1.launchJob t j 9 0
  match (runJob t j).run s0 with
  | .ok (r, u) =>
    match (if r.1 = 0 then u.drainFault t j else none) with
    | some f => .ok (fault f.1 f.2)
    | none => .ok (u.launchJob t j r.1 r.2)
  | .error (.wait l) => .error l
  | .error (.fault k a) => .ok (fault k a)

/-- The head of a class. -/
def Team.head (t : Team) (cls : Nat) : Option Job := t.queue.find? (fun j => j.cls == cls)
/-- A job can start now. -/
def State.canStart (s : State) (t : Nat) (j : Job) : Bool :=
  s.jobReady t j && (match s.startJob t j with | .ok _ => true | .error _ => false)
/-- What the heads of the engine's classes wait for. -/
def State.jobWaits (s : State) (t : Nat) : List Chore :=
  (List.range 9).flatMap (fun c => match (s.team t).head c with
    | some j => if s.jobReady t j then (match s.startJob t j with | .error l => l | .ok _ => []) else []
    | none => [])

/-- Engine cycles a job costs (R276). -/
def Job.cost (j : Job) : Nat := if j.load then 128 else j.m + (if j.smode = 0 then 0 else 128)
/-- The launch that runs on the paddock of a cluster. -/
def State.clusterLaunch (s : State) (k : Nat) : Option Domain :=
  s.plat.nodes.findSome? (fun p => if (nodeRange p.1).1 ≤ k ∧ k < (nodeRange p.1).2 then p.2.running.map s.domain else none)
/-- The weight of a class's head: remote jobs take that of the engine's paddock. -/
def State.weight (s : State) (t : Nat) (j : Job) : Nat :=
  if j.cls = 8 then ((((List.range 8).findSome? (fun i => s.domOf (t * 8 + i))).or (s.clusterLaunch (t / 16))).map (fun d => d.rweight)).getD 8 else j.weight

/-- The jobs that a visit to a class starts (R276). -/
def State.serve (s : State) (t cls fuel : Nat) : State × Bool :=
  match fuel with
  | 0 => (s, false)
  | n + 1 =>
    match (s.team t).head cls with
    | none => (s.modTeam t (fun x => { x with deficit := tput x.deficit cls 0 }), false)
    | some j =>
      if s.jobReady t j ∧ j.cost ≤ tget (s.team t).deficit cls 0 then
        match s.startJob t j with
        | .ok u => ((u.modTeam t (fun x => { x with deficit := tmod x.deficit cls 0 (fun d => d - j.cost) })).serve t cls n).1 |> fun x => (x, true)
        | .error _ => (s, false)
      else (s, false)

/-- Visits to the classes until a job has started (R276). -/
def State.arbitrate (s : State) (t fuel : Nat) : Option State :=
  match fuel with
  | 0 => none
  | n + 1 =>
    let tm := s.team t
    let order := (List.range 9).map (fun i => (tm.served + 1 + i) % 9)
    match order.find? (fun c => match tm.head c with | some j => s.canStart t j | none => false) with
    | none => none
    | some c =>
      let w := match tm.head c with | some j => s.weight t j | none => 0
      let r := (s.modTeam t (fun x => { x with served := c, deficit := tmod x.deficit c 0 (fun d => d + 64 * w) })).serve t c 33
      if r.2 then some r.1 else r.1.arbitrate t n

/-- MATRIX_JOB_START (R276). -/
def State.matrixJobStart (s : State) (t : Nat) : Option State := s.arbitrate t 64

/-- MATRIX_JOB_START (R276). -/
def execMatrixJobStart (t : Nat) (s : State) : Host.Outcome State Fault Refusal := event "MATRIX_JOB_START" (s.matrixJobStart t)

/-! ### Draining (R20, R68, R69, R275, R286, R287) -/

/-- The ring position of a drained row is full (R96). -/
def State.fillPos (s : State) (j : Job) (pos : Nat) : State :=
  if j.dring then s.modRing j.core j.dtvNo (fun r => r.mark pos .full) else s

/-- A job that a fault ends while it drains: STATUS 9, its remaining rows are dropped and its buffer is free (R267). -/
def State.failJob (s : State) (t : Nat) (j : Job) : State :=
  (s.modJob t j.key (fun x => { x with status := 9, left := [] })).modTeam t (fun x => x.freeBuffer j.group)

/-- A row written, or, when a fault ends it, contained at core level with STATUS 9 in the record (R226, R267); a job that
has failed writes nothing more. -/
def State.finishRow (s : State) (w : Actor) (t : Nat) (j : Job) (m pos : Nat) (mask : Nat → Bool) (vals : Nat → Nat) :
    Except (List Chore) State :=
  if j.status ≠ 0 then .ok s
  else match s.writeRow w j m pos mask vals with
  | .ok (u, fl) => .ok ((u.fillPos j pos).modJob t j.key (fun x => { x with flags := x.flags ||| fl }))
  | .error (.wait l) => .error l
  | .error (.fault k a) =>
    .ok (((s.contain 1 w.core none 0 (groupOf k (!s.workingAs w k a)) (sourceOf k a) (logKind k) (logAddr k a)).1.fillPos j pos).failJob t j)

/-- A row of a draining job leaves the buffer, which is free after the last one (R274). -/
def State.rowOut (s : State) (t : Nat) (j : Job) (m : Nat) : State :=
  let s := s.modJob t j.key (fun x => { x with state := 2, left := x.left.erase m })
  if j.left.erase m = [] then s.modTeam t (fun x => x.freeBuffer j.group) else s

/-- The handler context of a core takes a row (R20, R286). -/
def Ctx.takeRow (x : Ctx) (j : Job) (r : Row) (vals : Nat → Nat) : Ctx :=
  let x := (x.setX 1 (j.w 3)).rsPut (16 * bf x.view 8 7) 512 ((List.range 128).foldr (fun n acc => vals n % 2 ^ 32 + acc * 2 ^ 32) 0)
  { x with active := true, await := .running, pc := w64 (alignTo 4 (bf (j.w 2) 0 55)), edge := none, ah := [], eh := [], himm := [], hmod := [],
           hfirst := none, row := some r, rowEnded := false, shadow := none }

/-- The next row that can leave (R69): jobs in the order they began to drain, rows in order; a row bound for a busy
handler waits, and a ring takes its rows in order. -/
def State.nextRow (s : State) (t : Nat) : Option (Job × Nat) :=
  let rows := (s.team t).jobs.flatMap (fun j => (if j.dring || j.handlers.isEmpty then j.left.take 1 else j.left).map (fun m => (j, m)))
  rows.find? (fun p =>
    match p.1.handlerOf p.2 with
    | none => true
    | some h =>
      let x := s.ctx (t * 8 + h) 4
      !x.active && x.row.isNone
        && (rows.takeWhile (fun q => !(q.1.key == p.1.key && q.2 == p.2))).all (fun q => q.1.handlerOf q.2 != some h))

/-- DRAIN_ROW (R68, R69, R275): a row goes to its handler, or straight to its target; or what it waits for. -/
def State.drainNext (s : State) (t : Nat) : Except (List Chore) State :=
  match s.nextRow t with
  | none => .error []
  | some (j, m) =>
    let vals := fun n => (tget ((s.team t).bufferOf j.group) (m * 128 + n) 0).toNat
    let slot := if j.dring then (match (s.core j.core).ring j.dtvNo with
      | some r => (s.nextSlot j.core r).map (fun x => (r.pnext, x))
      | none => none) else some (0, (0, false))
    match slot with
    | none => .error []
    | some (pos, x) =>
      let s1 := if j.dring then s.modRing j.core j.dtvNo (fun r => r.begin x) else s
      let after := [.drainRow t, .matrixJobComplete t, .matrixJobStart t]
      match j.handlerOf m with
      | some h =>
        .ok (((((s1.rowOut t j m).modJob t j.key (fun y => { y with busyRows := y.busyRows + 1 })).modCtx (t * 8 + h) 4
          (fun y => y.takeRow j { team := t, job := j.key, row := m, pos := pos } vals))).pend after)
      | none =>
        match s1.finishRow (j.actor t) t j m pos (fun _ => true) vals with
        | .ok u => .ok (((u.rowOut t j m).modJob t j.key (fun y => { y with rows := y.rows + 1 })).pend after)
        | .error l => .error l

/-- DRAIN_ROW (R68, R275). -/
def State.drainRow (s : State) (t : Nat) : Option State := (s.drainNext t).toOption

/-- DRAIN_ROW (R68). -/
def execDrainRow (t : Nat) (s : State) : Host.Outcome State Fault Refusal := event "DRAIN_ROW" (s.drainRow t)

/-- MHND (R286): a handler holds a row whenever it issues one. -/
def execMhnd (d : BitVec 6) (s : State) : Host.Outcome State Fault Refusal :=
  run (.mhnd d) (s.issue.ctx != 4) (!s.ehDst false d) (do
    match (← getCtx).row with
    | none => pure ()
    | some r =>
      match ((← get).team r.team).jobs.find? (fun j => j.key == r.job) with
      | none => pure ()
      | some j =>
        gPush d (w64 (r.row + 65536 * j.id + (if j.cls = 8 then 2 ^ 35 else 2 ^ 32 * (j.core % 8))))) s

/-- MDONE (R287): after every earlier EH instruction, the row at ABASE is written to the job's target, as the handler's
core, unless it is dropped. See log 28. -/
def execMdone (drop app : BitVec 1) (m : BitVec 3) (s : State) : Host.Outcome State Fault Refusal :=
  let c := s.issue.core
  run (.mdone drop app m) (s.issue.ctx != 4) false (do
    walkersDone
    match (← getCtx).row with
    | none => pure ()
    | some r =>
      match ((← get).team r.team).jobs.find? (fun j => j.key == r.job) with
      | none => pure ()
      | some j =>
        let mask ← if app = 1 ∧ drop = 0 then rsRead (vAddr s.issue.view m.toNat) 16 else pure (2 ^ 128 - 1)
        let row ← if drop = 0 then rsRead (16 * bf s.issue.view 8 7) 512 else pure 0
        checkReads false
        if drop = 1 then pure ()
        else
          let w : Actor := { core := c, cluster := clusterOf c }
          let done := (← get).finishRow w r.team j r.row r.pos (fun n => mask.testBit n) (fun n => row >>> (32 * n) % 2 ^ 32)
          match done with
          | .ok t => set t
          | .error l => stallFor l
        modify (fun t => t.endRow c)) s

/-- A job has finished: its stream has passed and every drained row has passed MDONE or been written (R273). -/
def Job.finished (j : Job) : Bool := j.state != 3 && j.left.isEmpty && j.busyRows == 0

/-- MATRIX_JOB_COMPLETE (R273, R274). -/
def State.matrixJobComplete (s : State) (t : Nat) : Option State :=
  match (s.team t).jobs.find? (fun j => j.finished && (!s.leads t || (s.team t).chainRows.isEmpty)) with
  | none => none
  | some j => some (((s.modJob t j.key (fun x => { x with state := 3 })).nudge j.core).pend [.matrixJobComplete t])

/-- MATRIX_JOB_COMPLETE (R273). -/
def execMatrixJobComplete (t : Nat) (s : State) : Host.Outcome State Fault Refusal := event "MATRIX_JOB_COMPLETE" (s.matrixJobComplete t)

/-- CHAIN_FORWARD (R282): engine 0's next row goes to every engine of the chain, none of which holds 128. -/
def State.chainForward (s : State) (k : Nat) : Option State :=
  let n := (s.cluster k).chain
  let ts := (List.range n).drop 1
  match (s.team (k * 16)).chainRows with
  | [] => none
  | r :: rest =>
    if n < 2 then some (s.modTeam (k * 16) (fun t => { t with chainRows := [] }))
    else if ts.all (fun i => decide ((s.team (k * 16 + i)).chainRows.length < 128)) then
      some ((ts.foldl (fun s i => s.modTeam (k * 16 + i) (fun t => { t with chainRows := t.chainRows ++ [r] }))
        (s.modTeam (k * 16) (fun t => { t with chainRows := rest }))).pend
          ([.chainForward k, .matrixJobComplete (k * 16), .matrixJobStart (k * 16)] ++ ts.map (fun i => .matrixJobStart (k * 16 + i))))
    else none

/-- CHAIN_FORWARD (R282). -/
def execChainForward (k : Nat) (s : State) : Host.Outcome State Fault Refusal := event "CHAIN_FORWARD" (s.chainForward k)

/-- STREAM_PUBLISH_READ (R280): the distributor reads the view's rows as the publishing core; what a fault leaves reads
as +0. -/
def State.publishRead (s : State) (k sid : Nat) : Except (List Chore) State :=
  match tfind (s.cluster k).streams sid with
  | none => .error []
  | some st =>
    if st.read then .error []
    else
      let v : View := st.view
      let put := fun (s : State) (rows : List StreamRow) =>
        (s.modCluster k (fun c => { c with streams := tput c.streams sid { st with rows := rows, read := true } })).pend
          ((List.range 16).map (fun i => .matrixJobStart (k * 16 + i)))
      match ((List.range v.rows).mapM (fun r => readRow { core := st.core, cluster := k } v v r v.cols)).run s with
      | .ok (rows, u) => .ok (put u rows)
      | .error (.wait l) => .error l
      | .error (.fault c a) => .ok (put (s.contain 1 st.core none 0 (groupOf c (!s.meetsWorking st.core c a)) (sourceOf c a) (logKind c) (logAddr c a)).1 [])

/-- STREAM_PUBLISH_READ (R280). -/
def State.streamPublishRead (s : State) (k sid : Nat) : Option State := (s.publishRead k sid).toOption

/-- STREAM_PUBLISH_READ (R280). -/
def execStreamPublishRead (k sid : Nat) (s : State) : Host.Outcome State Fault Refusal := event "STREAM_PUBLISH_READ" (s.streamPublishRead k sid)

end Sys2Proof.Machine
end

