-- ==== Sys2Proof/Machine/Banks.lean ====
section
/-!
DEFINITION. The near-bank units (04 R104, R105; 11 R288-R290): BGEMV, BWAIT, the product over a BANKMAT region and the
two ways a command ends.
-/

namespace Sys2Proof.Machine

open Sys2Proof

/-! ### Descriptors (R288) -/

def Bank.region (b : Bank) : Nat := bf b.w0 0 55
def Bank.m (b : Bank) : Nat := bf b.w1 0 17
def Bank.k (b : Bank) : Nat := 128 * bf b.w1 17 10
def Bank.units (b : Bank) : Nat := 2 ^ bf b.w1 27 4
def Bank.nvec (b : Bank) : Nat := if bf b.w1 31 3 = 0 then 8 else bf b.w1 31 3
def Bank.acc (b : Bank) : Bool := bit b.w1 34
def Bank.order (b : Bank) : Nat := bf b.w1 35 2
def Bank.scope (b : Bank) : Nat := bf b.w1 37 3
/-- A side is global, and its address. -/
def sideGlobal (w : W64) : Bool := bit w 63
def sideBase (w : W64) : Nat := if bit w 63 then bf w 0 55 else bf w 0 32
/-- A local side that R289 refuses, or bits [62:55] of a global one, which its table neither reserves nor uses: that these must be
zero is a DESIGN CHOICE of the model. See log 29. -/
def sideBad (w : W64) : Bool := if bit w 63 then bf w 55 8 != 0 else bf w 32 31 != 0 || bf w 0 32 % 8 != 0

/-- Local rows of the fullest unit, groups of a unit, bytes of a group and of a segment (R104). -/
def Bank.groups (b : Bank) : Nat := ((b.m + b.units - 1) / b.units + 63) / 64
def Bank.groupBytes (b : Bank) : Nat := 64 + 40 * b.k
def Bank.segBytes (b : Bank) : Nat := (b.groups * b.groupBytes + 65535) / 65536 * 65536

/-- The checks of R289 that raise illegal-operand. -/
def Bank.bad (b : Bank) : Bool :=
  bf b.w0 55 9 != 0 || bf b.w1 40 24 != 0 || b.m % 2 != 0 || decide (b.m < 2) || decide (65536 < b.m)
    || b.k == 0 || decide (65536 < b.k) || decide (1024 < b.units) || sideBad b.w2 || sideBad b.w3

/-- The record of a near-bank command (R267); its ROWS field reads zero. -/
def Bank.record (b : Bank) : W64 := w64 (b.state + 4 * b.status + 64 * b.flags + 65536 * b.id)

/-- The record of an identifier. -/
def Core.bankRecord (c : Core) (id : Nat) : W64 :=
  match (c.banks.filter (fun b => b.id == id)).getLast? with
  | some b => b.record
  | none => w64 (3 + 4 * 15 + 65536 * id)

/-! ### BGEMV, BWAIT -/

/-- BGEMV (R288, R289). See log 29. -/
def execBgemv (d a : BitVec 6) (s : State) : Host.Outcome State Fault Refusal :=
  run (.bgemv d a) false (!s.ehDst false d || decide (46 < a.toNat)) (do
    let c := s.issue.core
    let lo ← rsRead (vAddr s.issue.view a.toNat) 16
    let hi ← rsRead (vAddr s.issue.view (a.toNat + 1)) 16
    let b : Bank := { ctx := s.issue.ctx, w0 := w64 lo, w1 := w64 (lo >>> 64), w2 := w64 hi, w3 := w64 (hi >>> 64) }
    require (!b.bad) 2 0
    require (decide (b.scope < 6)) 3 0
    let o1 ← withheld (b.region % 65536 == 0) 5 (w64 b.region)
    let o2 ← withheld (!(sideGlobal b.w2 && sideBase b.w2 % 8 != 0)) 5 (w64 (sideBase b.w2))
    let o3 ← withheld (!(sideGlobal b.w3 && sideBase b.w3 % 8 != 0)) 5 (w64 (sideBase b.w3))
    let v := s.tenantOf c
    let fail := match s.xlate v (w64 b.region) .read with
      | .fault k => k
      | .wait => 0
      | .ok _ cls _ => if cls = 3 then 0 else 7
    let o4 ← withheld (fail == 0) fail (w64 b.region)
    match s.xlate v (w64 b.region) .read with
    | .wait => stallFor [.pageBringUp v (b.region / 65536)]
    | _ => pure ()
    commandOrder (b.order != 0) b.scope
    let co ← getCore
    await (decide ((co.banks.filter (fun x => x.state != 3)).length < Config.bankInFlight))
    let id := co.bankNext
    modCore (fun x => { x with bankNext := (id + 1) % 2 ^ 16 })
    let t ← get
    let g := sideGlobal b.w3
    let lines := t.sideLines c g (sideBase b.w3) 0 1 (4 * b.nvec * b.m)
    if o1 || o2 || o3 || o4 then gPush d (w64 id)
    else match t.reserveAll c g (lines.map w64) with
      | .error (.wait l) => stallFor l
      | .error (.fault k a) =>
        if t.issue.ign.contains k then gPush d (w64 id)
        else do
          if 8 < k then checkReads false else pure ()
          trapWith k a
      | .ok u => do
        checkReads false
        let r := if lines.any (u.deltaLine c g) then u.takeSeq c else (0, u)
        set (r.2.pend [.bgemvComplete c id, .nbuFault c id])
        modCore (fun x => { x with banks := x.banks ++ [{ b with id := id, seq := r.1, state := 1 }] })
        gPush d (w64 id)) s

/-- BWAIT (R290): it does not join and orders nothing (R119). -/
def execBwait (d a : BitVec 6) (s : State) : Host.Outcome State Fault Refusal :=
  run (.bwait d a) false (s.gBad d [a]) (do
    let id := bf (← gPop a) 0 16
    checkReads false
    let r := (← getCore).bankRecord id
    awaitFor (bf r 0 2 == 3) [.bgemvComplete s.issue.core id, .nbuFault s.issue.core id]
    gPush d r) s

/-! ### The product (R104, R129, R136, R288) -/

/-- n bytes from an 8-byte boundary, read in aligned words (R109). -/
def readSpan (w : Actor) (g : Bool) (base off n : Nat) : E Nat := do
  let words ← (List.range ((n + 7) / 8)).mapM (fun (i : Nat) => do readWord w g ((← get).shift w g base (Int.ofNat (off + 8 * i))))
  return words.foldr (fun x acc => x + acc * 2 ^ 64) 0 % 2 ^ (8 * n)

/-- Every page of the region's segments is a BANKMAT page whose near-bank unit is NBASE + u, NBASE a multiple of S (R104,
R367); a page that is not mapped, or is of another class, is a fault (R289). See log 29. -/
def regionRule (v : Nat) (b : Bank) : E Bool := do
  let s ← get
  let pages := (List.range (Nat.min b.units b.m)).flatMap (fun u =>
    (List.range (b.segBytes / 65536)).map (fun p => (u, w64 (b.region + u * b.segBytes + 65536 * p))))
  let base := match s.pte v (w64 b.region) with | some e => ptePch e.1 | none => 0
  let oks ← pages.mapM (fun x => do
    match s.pte v x.2 with
    | none => throw (.fault 6 x.2)
    | some e => if pteClass e.1 = 3 then pure (ptePch e.1 == base + x.1) else throw (.fault 7 x.2))
  return base % b.units == 0 && oks.all (fun o => o)

/-- Row r of the region: its codes, its block scales and its group's band scale (R104). -/
def readBankRow (w : Actor) (b : Bank) (r : Nat) : E (Nat × Nat × Nat) := do
  let j := r / b.units
  let g := b.region + r % b.units * b.segBytes + j / 64 * b.groupBytes
  let i := j % 64
  let codes ← readSpan w true g (64 + i * (b.k / 2)) (b.k / 2)
  let scales ← readSpan w true g (64 + 32 * b.k + i * (b.k / 8)) (b.k / 8)
  let band ← readSpan w true g 0 2
  return (codes, scales, band)

/-- The results of a command, by v·M + r, with its flags. -/
def bankResults (anm : Bool) (b : Bank) (acts rows : List Nat) (planes : List (Nat × Nat)) (old : Nat) : List Running :=
  (List.range b.nvec).flatMap (fun v => (List.range b.m).map (fun r =>
    let act := acts.getD v 0
    let code := rows.getD r 0
    let sc := planes.getD r (0, 0)
    let c := if b.acc then old >>> (32 * (v * b.m + r)) % 2 ^ 32 else 0
    blockSum b.k (fun e => decodeFp anm .e2m1 (code >>> (4 * e) % 16)) (fun e => decodeFp anm .bf16 (act >>> (16 * e) % 65536))
      (fun k => [decodeFp anm .e3m5 (sc.1 >>> (8 * k) % 256), decodeFp anm .bf16 sc.2]) (fun _ => true) c))

/-- The result words of a command written, or what the first that cannot be written meets. -/
def State.writeResults (s : State) (w : Actor) (b : Bank) (words : List (Nat × Nat)) : Except EStop State :=
  let g := sideGlobal b.w3
  words.foldlM (fun (t : State) p => t.writeAs w g (t.shift w g (sideBase b.w3) (Int.ofNat (8 * p.2))) 8 p.1 b.seq) s

/-- A command run: its status, its flags and its result words, which can all be written. What its region breaks is STATUS 9
(R367). -/
def runBank (c : Nat) (b : Bank) : E (Nat × Nat × List Nat) := do
  let s ← get
  let w : Actor := { core := c, cluster := clusterOf c }
  if !(← regionRule (s.tenantOf c) b) then return (9, 0, [])
  else do
    let acts ← (List.range b.nvec).mapM (fun v => readSpan w (sideGlobal b.w2) (sideBase b.w2) (2 * b.k * v) (2 * b.k))
    let old ← if b.acc then readSpan w (sideGlobal b.w3) (sideBase b.w3) 0 (4 * b.nvec * b.m) else pure 0
    let rows ← (List.range b.m).mapM (readBankRow w b)
    let res := bankResults (s.core c).anm b acts (rows.map (fun r => r.1)) (rows.map (fun r => r.2)) old
    let words := (List.range (res.length / 2)).map (fun i => (res.getD (2 * i) (0, 0)).1 + (res.getD (2 * i + 1) (0, 0)).1 * 2 ^ 32)
    match (← get).writeResults w b words.zipIdx with
    | .ok _ => pure ()
    | .error e => throw e
    return (0, recordFlags (res.foldl (fun f r => f ||| r.2) 0), words)

/-- The command of core c with an identifier that has not ended. -/
def Core.bankOf (c : Core) (id : Nat) : Option Bank := c.banks.find? (fun b => b.id == id && b.state != 3)

/-- A command ended with a status, flags and the result words that are still to be written. -/
def State.endBank (s : State) (c id status flags : Nat) (out : List Nat) : State :=
  ((s.modCore c (fun x => { x with banks := x.banks.map (fun b =>
    if b.id == id && b.state != 3 then { b with state := 3, status := status, flags := flags, out := out } else b) })).nudge c).pend
    (if out.isEmpty then [] else [.bankWrite c id])

/-- BGEMV_COMPLETE (R288, R290), or what the command waits for. -/
def State.bankRun (s : State) (c id : Nat) : Except (List Chore) State :=
  match (s.core c).bankOf id with
  | none => .error []
  | some b =>
    match (runBank c b).run s with
    | .ok (r, u) => .ok (u.endBank c id r.1 r.2.1 r.2.2)
    | .error (.wait l) => .error l
    | .error (.fault _ _) => .error []

/-- The next result word of a finished command is written (R119: after its completion has been reported), or what it waits
for; a word whose place has gone since is lost. -/
def State.bankOut (s : State) (c id : Nat) : Except (List Chore) State :=
  match (s.core c).banks.find? (fun b => b.id == id && !b.out.isEmpty) with
  | none => .error []
  | some b =>
    let t := s.modCore c (fun x => { x with banks := x.banks.map (fun y => if y.id == id then { y with out := y.out.drop 1 } else y) })
    let go := fun (t : State) => (t.nudge c).pend [.bankWrite c id]
    match t.writeResults { core := c, cluster := clusterOf c } b [(b.out.headD 0, b.nvec * b.m / 2 - b.out.length)] with
    | .ok u => .ok (go u)
    | .error (.wait l) => .error l
    | .error (.fault _ _) => .ok (go t)

/-- BGEMV_COMPLETE (R288). -/
def State.bgemvComplete (s : State) (c id : Nat) : Option State := (s.bankRun c id).toOption

/-- BGEMV_COMPLETE (R288). -/
def execBgemvComplete (c id : Nat) (s : State) : Host.Outcome State Fault Refusal := event "BGEMV_COMPLETE" (s.bgemvComplete c id)

/-- NBU_FAULT (R289): a fault met by a unit enters containment at core level, and the record carries STATUS 9. -/
def State.nbuFault (s : State) (c id : Nat) : Option State :=
  match (s.core c).bankOf id with
  | none => none
  | some b =>
    match (runBank c b).run s with
    | .error (.fault k a) =>
      some ((s.contain 1 c none 0 (groupOf k (!s.meetsWorking c k a)) (sourceOf k a) (logKind k) (logAddr k a)).1.endBank c id 9 0 [])
    | _ => none

/-- NBU_FAULT (R289). -/
def execNbuFault (c id : Nat) (s : State) : Host.Outcome State Fault Refusal := event "NBU_FAULT" (s.nbuFault c id)

end Sys2Proof.Machine
end

