-- ==== Sys2Proof/Machine/Collectives.lean ====
section
/-!
DEFINITION. Global requests performed at their homes (05 R121), CSIG, and the collective engines: COLL, CWAIT and the
steps of an operation (05 R120; 11 R291-R295; 23 R402, R403).
-/

namespace Sys2Proof.Machine

open Sys2Proof

/-! ### Requests performed at their homes (R121) -/

/-- Unstarted operations of the module, whose ready words a store may have reached. -/
def State.collWaiting (s : State) : List Chore :=
  s.dies.flatMap (fun p => (p.2.colls.filter (fun q => !q.2.started)).map (fun q => .collStart p.1 q.1))

/-- A global request performed at its home (R121): 8 bytes of it (R109). A store writes them; a load's value returns to its
requester, with the mark of a poisoned line. A core reads the committed image of every page but a LIVE one (04 R82); that the line of
a LIVE page, written in place, counts as a committed image (group 3) too is a DESIGN CHOICE of the model. See log 13. What is left of it keeps its place. Nothing while its page is on its
way, or an edge holds it (23 R391). -/
def State.performReq (s : State) (c : Nat) (g : GReq) : Option State :=
  let v := s.tenantOf c
  match s.xlate v g.addr (if g.load then .read else .write) with
  | .wait => none
  | .fault _ => some (s.modCore c (fun x => { x with gstores := x.gstores.filter (fun h => h.id != g.id) }))
  | .ok phys _ _ => (s.cross (dieOf c) (homeDie phys)).map (fun s =>
    let rest : List GReq := if g.size = 16 then [{ g with size := 8, addr := g.addr + 8, data := g.data >>> 64 }] else []
    let n := Nat.min g.size 8
    let t := s.modCore c (fun x => { x with gstores := x.gstores.flatMap (fun h => if h.id = g.id then rest else [h]) })
    if g.load then
      let t := (t.lookup c v g.addr false).scrubLine phys
      let m : Option Mark := if t.poisonAt phys then some { line := w64 (alignTo 64 g.addr.toNat), committed := true } else none
      t.loadPart c g.ctx g.seq g.part (t.greadAt phys n) m
    else t.performGlobal v g.addr n (g.data.toNat % 2 ^ (8 * n)) (2 ^ n - 1))

/-- GLOBAL_ACCESS_PERFORMED (R121): one of a core's requests is performed, which one is a free value; those of one home and
lane in issue order. See log 53. -/
def State.globalAccessPerformed (s : State) (c : Nat) : Option State :=
  let l := s.requestsFree c
  match l[Config.performChoice s.fresh % l.length]? with
  | none => none
  | some g =>
    match { s with fresh := s.fresh + 1 }.performReq c g with
    | none => none
    | some t => some ((t.nudge c).pend ((if (t.core c).gstores.isEmpty then [] else [.globalAccessPerformed c]) ++ t.collWaiting))

/-- GLOBAL_ACCESS_PERFORMED (R121). -/
def execGlobalAccessPerformed (c : Nat) (s : State) : Host.Outcome State Fault Refusal :=
  event "GLOBAL_ACCESS_PERFORMED" (s.globalAccessPerformed c)

/-- CSIG (R295): a release store to a LIVE word. -/
def execCsig (a b : BitVec 6) (sc k : BitVec 3) (s : State) : Host.Outcome State Fault Refusal :=
  run (.csig a b sc k) false (!ahSrc a || !ahSrc b) (do
    require (k == 2 && decide (sc.toNat < 6)) 3 0
    let x := (← ahPop a).setWidth 64
    let v := ((← ahPop b).setWidth 64).toNat
    let c := s.issue.core
    let w := storeAfter 2 (Nat.max 2 sc.toNat) s.issue.seq
    if ← globalChecks x 8 then pure ()
    else match s.xlate (s.tenantOf c) x .write with
      | .ok _ cls _ => do
        let off ← withheld (cls == 2) 7 x
        if off then pure () else globalStore x 8 v w
      | _ => globalStore x 8 v w) s

/-! ### COLL (R291, R293) -/

/-- Fields of an operation. -/
def Coll.w (o : Coll) (i : Nat) : W64 := o.words.getD i 0
def Coll.op (o : Coll) : Nat := bf (o.w 0) 0 2
def Coll.red (o : Coll) : Nat := bf (o.w 0) 3 3
def Coll.type (o : Coll) : Nat := bf (o.w 0) 6 2
def Coll.tag (o : Coll) : Nat := bf (o.w 0) 8 16
def Coll.elems (o : Coll) : Nat := bf (o.w 2) 0 32
/-- Bytes of an element. -/
def Coll.size (o : Coll) : Nat := if o.type = 1 then 2 else 4

/-- A post and its contribution sent to another device in pieces that fit a flit: the domain, the tag and the place of the
piece, then its words. -/
def State.sendPost (s : State) (dev : Nat) (o : Coll) (data : List W64) : State :=
  let m := s.domain o.dom
  let l := o.words ++ data
  (List.range ((l.length + 27) / 28)).foldl (fun s i =>
    s.sendFlit dev 5 m.epoch (w64 m.id.toNat :: w64 (o.tag + 28 * i * 2 ^ 16) :: (l.drop (28 * i)).take 28)) s

/-- The other devices that take part in an operation. -/
def State.collPeers (s : State) (o : Coll) : List Nat := (s.participants o.dom).filter (fun x => x != s.plat.devNo.toNat)
/-- A post sent to them: when COLL has posted the operation, without a contribution yet, and with it when it starts (R291, R292). -/
def State.sendPosts (s : State) (o : Coll) (data : List W64) : State := (s.collPeers o).foldl (fun s v => s.sendPost v o data) s

/-- A descriptor that raises illegal-operand. See log 30. -/
def collBad (o : Coll) : Bool :=
  bf (o.w 0) 24 40 != 0 || bf (o.w 2) 32 32 != 0 || bf (o.w 7) 40 24 != 0 || o.op == 3 || decide (3 < o.red) || o.type == 3
    || o.elems == 0 || (o.red == 1 && o.type == 2)

/-- The cause that an address of the operation earns by itself; 0 for none. A live page is asked for by the bucket. -/
def State.collAccess (s : State) (v : Nat) (a : W64) (write live : Bool) : Nat :=
  if bf a 55 9 ≠ 0 then 6
  else match s.pte v a with
    | none => 6
    | some (e, _) =>
      if (write && !(pteWr e && decide (pteClass e ≠ 4))) || (!write && !pteRd e) || (live && pteClass e ≠ 2) then 7 else 0

/-- The lowest of the translation causes of a descriptor, with its address. -/
def State.collFault (s : State) (v : Nat) (o : Coll) : Option Fail :=
  let b := o.w 1
  let pages := (List.range ((b.toNat % 65536 + o.elems * o.size + 65535) / 65536)).map (fun i =>
    if i = 0 then b else w64 (alignTo 65536 b.toNat + 65536 * i))
  let all := pages.map (fun a => (s.collAccess v a true true, a)) ++ [(s.collAccess v (o.w 3) false false, o.w 3)]
    ++ (if o.w 5 = (0 : W64) then [] else [(s.collAccess v (o.w 5) true false, o.w 5)])
  match all.find? (fun p => p.1 == 6) with
  | some p => some p
  | none => all.find? (fun p => p.1 == 7)

/-- The lowest free slot of a die's engine (R293). -/
def Die.freeSlot (d : Die) : Option Nat := (List.range Config.collSlots).find? (fun i => (tfind d.colls i).isNone)

/-- The operation of a launch with a tag, in flight or among the 256 that ended last (R293). -/
def State.collTagged (s : State) (dom tag : Nat) : Option Coll :=
  match (s.dies.flatMap (fun p => p.2.colls.map (fun q => q.2))).find? (fun o => o.dom == dom && o.tag == tag) with
  | some o => some o
  | none => (s.domain dom).collDone.find? (fun o => o.tag == tag)

/-- COLL (R291, R293). -/
def execColl (d a : BitVec 6) (s : State) : Host.Outcome State Fault Refusal :=
  let c := s.issue.core
  run (.coll d a) false (!xOrZero d || !xOnly a) (do
    let l ← descRead (s.xval a).toNat 64
    let dom := (s.core c).domain.getD 0
    let o : Coll := { vf := s.tenantOf c, dom := dom, core := c, words := l }
    require (!collBad o) 2 0
    let o1 ← withheld ((o.w 1).toNat % 8 == 0) 5 (o.w 1)
    let o2 ← withheld ((o.w 3).toNat % 8 == 0) 5 (o.w 3)
    let o3 ← withheld ((o.w 5).toNat % 8 == 0) 5 (o.w 5)
    let f := s.collFault o.vf o
    let o4 ← withheld f.isNone (f.getD (0, 0)).1 (f.getD (0, 0)).2
    match s.collTagged dom o.tag with
    | some old => xset d (w64 old.id)
    | none =>
      if o1 || o2 || o3 || o4 then xset d 0
      else do
      passPoint true
      match (s.die (dieOf c)).freeSlot with
        | none => stall
        | some slot => do
          let n := tget (s.domain dom).collCount (dieOf c) 0
          let id := slot + 8 * (n % 8192)
          modify (fun t => (((t.modDie (dieOf c) (fun x => { x with colls := tput x.colls slot { o with id := id } })).modDomain dom
            (fun m => { m with collCount := tput m.collCount (dieOf c) (n + 1) })).pend [.collStart (dieOf c) slot]).sendPosts { o with id := id } [])
          xset d (w64 id)) s

/-! ### CWAIT (R294) -/

/-- What an identifier names for a core of a die (R293, R294). -/
inductive CollState where
  /-- an operation in flight -/
  | flying
  /-- one that has ended -/
  | ended (o : Coll)
  | unknown
  deriving DecidableEq, Repr

/-- The operation of a launch that an identifier names: one of the core's own die first, then one of another die, whose
identifier a COLL of the same TAG has returned (R293). See log 30. -/
def State.collNamed (s : State) (dom die id : Nat) : CollState :=
  let flying := s.dies.flatMap (fun p => (p.2.colls.filter (fun q => q.2.dom == dom && q.2.id == id)).map (fun _ => p.1))
  let done := (s.domain dom).collDone.filter (fun o => o.id == id)
  if flying.contains die then .flying
  else match done.find? (fun o => dieOf o.core == die) with
    | some o => .ended o
    | none => if !flying.isEmpty then .flying else match done with | o :: _ => .ended o | [] => .unknown

/-- CWAIT (R294). -/
def execCwait (d a : BitVec 6) (s : State) : Host.Outcome State Fault Refusal :=
  let c := s.issue.core
  run (.cwait d a) false (!xOrZero d || !xOnly a) (do
    match s.collNamed ((s.core c).domain.getD 0) (dieOf c) (bf (s.xval a) 0 16) with
    | .flying => stall
    | .ended o => xset d (w64 (o.status + 256 * o.count))
    | .unknown => xset d (w64 255)) s

/-! ### The steps of an operation -/

/-- n bytes of a tenant's committed memory for a collective engine, through the look-up of the core that posted the operation (21
R369); what cannot be read is zero. -/
def State.vread (s : State) (c v : Nat) (a : W64) (n : Nat) : Except (List Chore) (Nat × State) :=
  match s.xlate v a .read with
  | .wait => .error [.pageBringUp v (a.toNat / 65536)]
  | .fault _ => .ok (0, s)
  | .ok phys _ _ => let t := (s.lookup c v a false).scrubLine phys; .ok (t.hread phys n, t)

/-- The 8-byte words of a bucket. -/
def State.readBucket (s : State) (o : Coll) : Except (List Chore) (List W64 × State) :=
  (List.range ((o.elems * o.size + 7) / 8)).foldlM (fun (x : List W64 × State) i =>
    match x.2.vread o.core o.vf (o.w 1 + w64 (8 * i)) 8 with
    | .ok (v, t) => .ok (x.1 ++ [w64 v], t)
    | .error l => .error l) ([], s)

/-- The operations of a domain that are in flight go on. -/
def State.collChores (s : State) (d : Nat) : List Chore :=
  s.dies.flatMap (fun p => (p.2.colls.filter (fun q => q.2.dom == d)).map (fun q => if q.2.started then .collComplete p.1 q.1 else .collStart p.1 q.1))

/-- An operation of a die. -/
def State.coll (s : State) (d slot : Nat) : Option Coll := tfind (s.die d).colls slot

/-- Whether a participant has posted its part of an operation: this device has (R292). -/
def State.hasPosted (s : State) (o : Coll) (v : Nat) : Bool :=
  v == s.plat.devNo.toNat || (s.domain o.dom).contribs.any (fun x => x.dev == v && decide (x.words.length = 8) && bf (x.words.getD 0 0) 8 16 == o.tag)
/-- HELD of CESTAT (23 R403): the operation waits for a member that is yielded or has not posted. -/
def State.collHeld (s : State) (o : Coll) : Bool := s.yielded o.dom || (s.participants o.dom).any (fun v => !s.hasPosted o v)

/-- A post of another device that has come in full, with its contribution. -/
def Contribution.whole (x : Contribution) : Bool :=
  let o : Coll := { words := x.words }
  decide (x.words.length = 8) && decide ((o.elems * o.size + 7) / 8 ≤ x.data.length)

/-- COLL_START (R120, R292): the ready word has reached RVAL; the contribution is taken and sent to the other devices. -/
def State.collBegin (s : State) (d slot : Nat) : Except (List Chore) State :=
  match s.coll d slot with
  | none => .error []
  | some o =>
    if o.started || s.yielded o.dom then .error []
    else match s.vread o.core o.vf (o.w 3) 8 with
      | .error l => .error l
      | .ok (v, t) =>
        if v < (o.w 4).toNat then .error []
        else match t.readBucket o with
          | .error l => .error l
          | .ok (data, u) =>
            let u := u.modDie d (fun x => { x with colls := tput x.colls slot { o with started := true, own := data } })
            .ok ((u.sendPosts o data).pend [.collComplete d slot])

/-- COLL_START (R292). See log 30. -/
def State.collStart (s : State) (d slot : Nat) : Option State := (s.collBegin d slot).toOption

/-- COLL_START (R292). -/
def execCollStart (d slot : Nat) (s : State) : Host.Outcome State Fault Refusal := event "COLL_START" (s.collStart d slot)

/-- Element i of a contribution. -/
def elemOf (size : Nat) (data : List W64) (i : Nat) : Nat :=
  let per := 8 / size
  bf (data.getD (i / per) 0) (8 * size * (i % per)) (8 * size)

/-- The combining operator of R292 on codes. -/
def Coll.combine (o : Coll) (a b : Nat) : Nat :=
  if o.type = 2 then
    match o.red with
    | 2 => IntOp.min.eval 32 a b
    | 3 => IntOp.max.eval 32 a b
    | _ => IntOp.add.eval 32 a b
  else
    let f : Fmt := if o.type = 0 then .f32 else .bf16
    match o.red with
    | 2 => (pickLane false f a b).1
    | 3 => (pickLane true f a b).1
    | _ => (roundVal false f .rne (fpAdd (decodeFp false f a) (decodeFp false f b) .rne)).1

/-- The average's factor applied (R292). -/
def Coll.scale (o : Coll) (n a : Nat) : Nat :=
  if o.red = 1 then
    let f : Fmt := if o.type = 0 then .f32 else .bf16
    let k := (roundVal false f .rne { r := .real (.ofQ ⟨1, n⟩) }).1
    (roundVal false f .rne (fpMul (decodeFp false f a) (decodeFp false f k))).1
  else a

/-- The elements that participant j of n writes, with their values (R292). -/
def Coll.results (o : Coll) (data : List (List W64)) (j : Nat) : List (Nat × Nat) :=
  let n := data.length
  let x := fun p i => elemOf o.size (data.getD p []) i
  let chunk := fun p => (p * o.elems / n, (p + 1) * o.elems / n)
  let red := fun i => o.scale n ((List.range n).foldl (fun a p => if p = 0 then x 0 i else o.combine a (x p i)) 0)
  match o.op with
  | 0 => (List.range o.elems).map (fun i => (i, red i))
  | 1 => (List.range ((chunk j).2 - (chunk j).1)).map (fun k => ((chunk j).1 + k, red ((chunk j).1 + k)))
  | _ => (List.range n).flatMap (fun p => (List.range ((chunk p).2 - (chunk p).1)).map (fun k => ((chunk p).1 + k, x p ((chunk p).1 + k))))

/-- The operation ends: DVAL to DONE, its event, its slot free (R292, R293, R403). -/
def State.collEnd (s : State) (d slot : Nat) (o : Coll) (status n : Nat) : State :=
  let s := if o.w 5 = (0 : W64) then s else s.performAs o.core o.vf (o.w 5) 8 (o.w 6).toNat (2 ^ 8 - 1)
  let s := s.modDie d (fun x =>
    { x with colls := tdel x.colls slot, ceDone := x.ceDone + 1, ceMismatch := if status = 1 then satAdd x.ceMismatch 1 else x.ceMismatch })
  let s := s.modDomain o.dom (fun m =>
    { m with collDone := ({ o with status := status, count := n, epoch := m.epoch } :: m.collDone).take 256, contribs := m.contribs.filter (fun x => bf (x.words.getD 0 0) 8 16 != o.tag) })
  s.pend s.collWaiting

/-- The pages that an operation is about to write and that must come to tier 0 first (21 R370). -/
def State.collWaits (s : State) (o : Coll) (l : List W64) : List Chore :=
  (l.filter (fun a => s.xlate o.vf a .write == .wait)).map (fun a => .pageBringUp o.vf (a.toNat / 65536))

/-- The end of an operation once its pages are there: buckets, then DVAL and the event. -/
def State.collFinish (s : State) (d slot : Nat) : Except (List Chore) State :=
  match s.coll d slot with
  | none => .error []
  | some o =>
    if !o.started || s.yielded o.dom then .error []
    else
      let devs := s.participants o.dom
      let posts := devs.map (fun p => if p = s.plat.devNo.toNat then some (o.words, o.own)
        else ((s.domain o.dom).contribs.find? (fun x => x.dev == p && x.whole && bf (x.words.getD 0 0) 8 16 == o.tag)).map (fun x => (x.words, x.data)))
      if posts.any (fun p => p.isNone) then .error []
      else
        let l := posts.filterMap (fun p => p)
        let bad := l.any (fun p => p.1 != o.words)
        let res := if bad then [] else o.results (l.map (fun p => p.2)) (devs.takeWhile (fun p => p != s.plat.devNo.toNat)).length
        let waits := s.collWaits o (res.map (fun e => o.w 1 + w64 (o.size * e.1)) ++ (if o.w 5 = (0 : W64) then [] else [o.w 5]))
        if !waits.isEmpty then .error waits
        else
          let t := res.foldl (fun s e => s.performAs o.core o.vf (o.w 1 + w64 (o.size * e.1)) o.size e.2 (2 ^ o.size - 1)) s
          .ok (t.collEnd d slot o (if bad then 1 else 0) devs.length)

/-- COLL_COMPLETE (R291, R292): every participant has posted; posts that differ end with status 1 and write no bucket. -/
def State.collComplete (s : State) (d slot : Nat) : Option State := (s.collFinish d slot).toOption

/-- COLL_COMPLETE (R292). -/
def execCollComplete (d slot : Nat) (s : State) : Host.Outcome State Fault Refusal := event "COLL_COMPLETE" (s.collComplete d slot)

/-- COLL_TIMEOUT (R292, R400, R403): the devices that have not posted count as failed. -/
def State.collTimeout (s : State) (d slot : Nat) : Option State :=
  match s.coll d slot with
  | none => none
  | some o =>
    let late := (s.participants o.dom).filter (fun p => !s.hasPosted o p)
    if !o.started || decide (o.ticks < s.collLimit o) || late.isEmpty then none
    else some ((s.modDie d (fun x => { x with ceTmo := satAdd x.ceTmo 1 })).pend (late.map (fun p => .deviceFailed o.dom p)))

/-- COLL_TIMEOUT (R292). -/
def execCollTimeout (d slot : Nat) (s : State) : Host.Outcome State Fault Refusal := event "COLL_TIMEOUT" (s.collTimeout d slot)

/-! ### Posts of other devices (R291, R402) -/

/-- A pennant that this device discards is counted (R32, R399); so are other malformed flits. -/
def State.pennantLost (s : State) : State := s.modPlat (fun p => { p with pdisc := satAdd p.pdisc 1 })
def State.flitLost (s : State) : State := s.modPlat (fun p => { p with fdisc := satAdd p.fdisc 1 })

/-- The live domain with an identifier. -/
def State.domainById (s : State) (id : Nat) : Option Nat := (s.domains.find? (fun p => p.2.live && p.2.id.toNat == id)).map (fun p => p.1)

/-- An operation that has ended here restarts when another device posts it again after a shrink (R402): its own contribution
is still held, and every bucket is written again in full. -/
def State.redo (s : State) (d tag : Nat) : State :=
  match (s.domain d).collDone.find? (fun o => o.tag == tag && o.epoch != (s.domain d).epoch) with
  | none => s
  | some o =>
    let k := dieOf o.core
    let slot := ((s.die k).freeSlot).getD (Config.collSlots + tag)
    let s := s.modDomain d (fun m => { m with collDone := m.collDone.filter (fun x => x.id != o.id || x.tag != tag) })
    let s := s.modDie k (fun x => { x with colls := tput x.colls slot { o with status := 0, count := 0, ticks := 0 }, ceRestart := satAdd x.ceRestart 1 })
    s.sendPosts o o.own

/-- A flit that has come before its launch or its epoch is kept until then. -/
def State.keepFlit (s : State) (src cls epoch : Nat) (l : List W64) : State :=
  s.modPlat (fun p => { p with kept := p.kept ++ [{ src := src, cls := cls, epoch := epoch, words := l }] })

/-- A piece of another device's post (R291). One that comes before the launch is admitted here, or before this device has taken the
shrink that its epoch belongs to (23 R399, R402), is kept for then: its sender sends it once. See log 43. -/
def State.takePost (s : State) (src epoch : Nat) (l : List W64) : State :=
  match s.domainById (bf (l.getD 0 0) 0 16) with
  | none => s.keepFlit src 5 epoch l
  | some d =>
    if (s.domain d).epoch ≠ epoch then
      if (epoch + 16 - (s.domain d).epoch) % 16 ≤ 8 then s.keepFlit src 5 epoch l else s
    else
      let tag := bf (l.getD 1 0) 0 16
      let first := bf (l.getD 1 0) 16 48
      let s := if first = 0 then s.redo d tag else s
      let s := s.modDomain d (fun m =>
        if first = 0 then
          { m with contribs := m.contribs.filter (fun x => !(x.dev == src && bf (x.words.getD 0 0) 8 16 == tag))
                               ++ [{ dev := src, words := (l.drop 2).take 8, data := l.drop 10 }] }
        else { m with contribs := m.contribs.map (fun x =>
          if x.dev = src ∧ bf (x.words.getD 0 0) 8 16 = tag then { x with data := x.data ++ l.drop 2 } else x) })
      s.pend (s.dies.flatMap (fun p => (p.2.colls.filter (fun o => o.2.dom == d && o.2.started)).map (fun o => .collComplete p.1 o.1)))

end Sys2Proof.Machine
end

