-- ==== Sys2Proof/Machine/Sync.lean ====
section
/-!
DEFINITION. Barriers as an instruction, votes, STEP requests and waits (11 R302-R305; 02 R25, R26, R28).
-/

namespace Sys2Proof.Machine

open Sys2Proof

/-- The context's queues that hold entries, as the TVAL of channel-residue has them (R226 code 14). -/
def Ctx.residue (c : Ctx) : Nat :=
  16 * b2n (c.lq.length != 0) + 32 * b2n (c.sq.length != 0) + 64 * b2n (c.xq.length != 0) + 128 * b2n (c.bq.length != 0)
/-- Queue entries discarded. -/
def Ctx.emptyQueues (c : Ctx) : Ctx := { c with lq := [], sq := [], xq := [], bq := [] }

/-- A slot is bound (R25). -/
def State.slotBound (s : State) (c slot : Nat) : Bool :=
  slot == 0 || (match s.domOf c with | some d => d.levels.getD (slot - 1) 0 != 0 | none => false)

/-- BAR (R302): the context waits; the barrier's decision writes x[D]. See log 31. -/
def execBar (d a : BitVec 6) (o : BitVec 3) (sl : BitVec 2) (s : State) : Host.Outcome State Fault Refusal :=
  let slot := sl.toNat
  run (.bar d a o sl) s.inHandler (!ahDst d || !ahSrc a || !s.slotBound s.issue.core slot) (do
    let r := (← getCtx).residue
    require (slot != 0 || r == 0 || s.issue.ign.contains 14) 14 (w64 r)
    let v := (← ahPop a).setWidth 64
    if slot = 0 ∧ r ≠ 0 then modCtx Ctx.emptyQueues else pure ()
    walkersDone
    let sl0 := s.slot (.bar d a o sl)
    modCtx (fun c => { c with await := .bar slot o.toNat v d, barred := c.barred || slot == 0, barSlot := some sl0 })
    modCore (fun c => { c with lastBar := s.issue.ctx })
    modify (fun t => t.checkArrive t.issue.core)) s

/-- VOTE (R303). -/
def execVote (a : BitVec 6) (c : BitVec 1) (k : BitVec 2) (s : State) : Host.Outcome State Fault Refusal :=
  run (.vote a c k) false (c == 1 && !s.ehSrc false a) (do
    let g ← if c = 1 then gPop a else pure 1
    checkReads false
    if g ≠ (0 : W64) then modCtx (fun x => { x with vote := Nat.max x.vote k.toNat }) else pure ()) s

/-- STEPADV (R304): the core keeps the largest request of its contexts. -/
def execStepadv (a : BitVec 6) (s : State) : Host.Outcome State Fault Refusal :=
  run (.stepadv a) false (!s.ehSrc false a) (do
    let g ← gPop a
    require (bf g 48 16 == 0) 2 0
    modCore (fun c => { c with stepReq := BitVec.ofNat 48 (Nat.max c.stepReq.toNat g.toNat) })) s

/-- What a WAIT on memory finds (R305). -/
inductive Waited where
  /-- the word to compare -/
  | word (w : W64)
  /-- an ignored fault: the wait ends with a zero load -/
  | zero
  /-- an ignored poison: the wait ends and its destination register keeps its value -/
  | keep
  deriving DecidableEq, Repr

/-- The word a WAIT on memory compares (R305), read as an acquire load and checked as an 8-byte LD or LDG: bits [62:55] of
a global address are judged by its translation (R77, R178). -/
def waitWord (x : W64) : M Waited := do
  let s ← get
  let c := s.issue.core
  if bit x 63 then do
    let a := w64 (bf x 0 63)
    if ← globalChecks a 8 then pure .zero
    else match s.xlate (s.tenantOf c) a .read with
      | .fault k => if s.issue.ign.contains k then pure .zero else do trapWith k a; pure .zero
      | .wait => stallFor [.pageBringUp (s.tenantOf c) (a.toNat / 2 ^ 16)]
      | .ok phys _ _ =>
        let t := (s.lookup c (s.tenantOf c) a false).scrubLine phys
        set t
        if t.laneBusy c a then stallFor [.globalAccessPerformed c]
        else if t.poisonAt phys then
          if s.issue.ign.contains 9 then pure .keep else throw (.trap 9 (w64 (alignTo 64 a.toNat)) true)
        else pure (.word (w64 (t.greadAt phys 8)))
  else do
    let l ← localAccess (bf x 0 32) 8
    checkMark (bf x 0 32) l 8
    checkParity (bf x 0 32) l 8
    if (s.localMark c l (bf x 0 32) 8).isSome then pure .keep else pure (.word (w64 ((← get).lreadAt c l 8)))

/-- WAIT (R305). See log 31. -/
def execWait (d a b : BitVec 6) (sc c : BitVec 3) (s : State) : Host.Outcome State Fault Refusal :=
  run (.wait d a b sc c) false (!ahDst d || (decide (2 ≤ c.toNat) && (!ahSrc b || !ahSrc a))) (do
    require (!((c == 2 || c == 3) && decide (5 < sc.toNat))) 3 0
    let co ← getCore
    if c = 0 then do
      await (!co.mail.isEmpty)
      ahPush d (w64 co.mail.length)
    else if c = 1 then do
      let v := co.chanSet &&& (b.toNat % 16)
      await (v != 0)
      ahPush d (w64 v)
    else if c = 4 then do
      let x := (← ahPop b).setWidth 64
      await (decide (x.toNat ≤ s.tick.toNat))
      ahPush d s.tick
    else do
      let x := (← ahPop a).setWidth 64
      let y := (← ahPop b).setWidth 64
      match ← waitWord x with
      | .zero => ahPush d 0
      | .keep => if d = 57 then ahPush d 0 else pure ()
      | .word w => do
        await (if c = 2 then decide (y.toNat ≤ w.toNat) else w == y)
        ahPush d w) s

end Sys2Proof.Machine
end

