-- ==== Sys2Proof/Machine/Tasks.lean ====
section
/-!
DEFINITION. The task graph of a paddock (20 R354, R356, R361, R362, R364; 03 R67): posting a record, effective
priorities, the wish to yield, and the end of every launch of a paddock that is held (02 R53, 20 R358).
-/

namespace Sys2Proof.Machine

open Sys2Proof

/-- Slots of record store that each tenant owns (R364). -/
def ownSlots : Nat := 256

/-- The record of 128 bytes that tenant v posts, with TENANT as the controller writes it (R355). -/
def recOf (v : Nat) (words : List W64) (dyn : Bool) : Rec :=
  let l := (List.range 16).map (fun i => words.getD i 0)
  let l := l.set 3 (bput (l.getD 3 0) 40 8 v)
  { words := l, lid := bf (l.getD 3 0) 48 16, dyn := dyn }

/-- A record stored for its tenant (R364), and the records that may leave WAITING looked at (R361). -/
def State.storeRecord (s : State) (v : Nat) (r : Rec) : State :=
  let own := ((s.vf v).stored.filter (fun x => !x.pooled)).length
  let r := { r with order := s.plat.order, since := s.hbt, pooled := decide (ownSlots ≤ own) }
  let s := s.modPlat (fun p => { p with order := p.order + 1 })
  let s := s.modVf v (fun t => { t with records := t.records ++ [r] })
  (s.wakeRecords v (s.vf v).records.length).pend [.launchSelect (s.vf v).node]

/-- A TQPUSH record checked and posted at its commit, or reported as REJECTED (R356). -/
def State.postPushed (s : State) (v : Nat) (words : List W64) : State :=
  let r := recOf v words true
  let code := s.recCheck v r
  if code = 0 then s.storeRecord v r
  else s.complete v { lid := r.lid, status := 6, cause := code, dyn := true }

/-- The effective priority of a record (R362). -/
def State.effective (s : State) (r : Rec) : Nat := Nat.min 7 (r.prio + (s.hbt - r.since) / 2 ^ 16)

/-- Another launch of a record's job has started and not ended: launches of one job run one at a time (R357). -/
def Vf.jobBusy (t : Vf) (r : Rec) : Bool :=
  r.job != 0 && t.records.any (fun q => q.order != r.order && q.job == r.job && (q.domain.isSome || q.state == .gating))

/-- The producer that must run again before a record whose buffer was dropped, and before that its own (R363): one that has
ended OK, or whose replay is under way, a yielded one being taken up again. -/
def Vf.replayFor (t : Vf) (r : Rec) (fuel : Nat) : Option Rec :=
  match fuel with
  | 0 => none
  | k + 1 =>
    if !r.dropped then none
    else match t.records.find? (fun p => p.lid == r.rprod && (p.replay || (p.state == .ended && p.status == 0))) with
      | none => none
      | some p => some ((t.replayFor p k).getD p)

/-- A record that selection may take: READY, or YIELDED, which acts as READY (R361), of a tenant that is not in ERROR
(26 R427), not being exported (22 R381) and not kept back after a warm reset (22 R384); nor does its job, or that of the
producer to run first, have another launch under way (R357). -/
def State.selectable (s : State) (v : Nat) (r : Rec) : Bool :=
  !(s.vf v).jobBusy (((s.vf v).replayFor r (s.vf v).records.length).getD r) && (r.state == .ready || r.state == .yielded) && (s.vf v).tdisp != .error && (s.vf v).exported.isNone && !(r.preserved && !(s.node (s.vf v).node).selectable)

/-- The records of a node's tenants that selection may take. -/
def State.candidates (s : State) (n : Nat) : List (Nat × Rec) :=
  s.plat.vfs.flatMap (fun p => if p.2.node = n then (p.2.records.filter (s.selectable p.1)).map (fun r => (p.1, r)) else [])

/-- The controller asks the running launch of a domain to yield (R362), or an earlier request still stands. -/
def State.wantsYield (s : State) (d : Nat) : Bool :=
  let m := s.domain d
  let slice := bf (s.node m.node).pcfg 8 32
  m.yieldReq || (s.vf m.vf).tdisp == .error
    || (s.candidates m.node).any (fun p => p.1 != m.vf
        && (decide (m.prio < s.effective p.2)
            || (s.effective p.2 == m.prio && slice != 0 && decide (m.runSince + slice ≤ s.hbt))))

/-- Every launch of a node ends with STATUS HELD: the records of its tenants that have not ended (R53, R358). Only the
running one has an ending decision; the CAUSE of a yielded one is 15 (R365). See log 26. -/
def State.endLaunches (s : State) (n cause : Nat) : State :=
  let s := s.domains.foldl (fun s p =>
    if p.2.live && p.2.node == n && !p.2.members.isEmpty then s.endLaunch p.1 7 (if p.2.away then 15 else cause) else s) s
  s.plat.vfs.foldl (fun s p =>
    if p.2.node = n then
      (s.vf p.1).records.foldl (fun s r => if r.state = .ended then s else s.endRecord p.1 r.order 7 15 0 0) s
    else s) s

/-- A system-level kill self: the paddock is held (R53, R358); VF vector 1 is raised, and locked tenants are in error
(26 R427). See log 26. -/
def State.holdNode (s : State) (n cause : Nat) : State :=
  let s := s.endLaunches n cause
  let s := s.modPlat (fun p => { p with vfs := p.vfs.map (fun x =>
    if x.2.node = n then (x.1, { x.2 with held := x.2.held + 1, tdisp := if x.2.tdisp = .locked ∨ x.2.tdisp = .run then .error else x.2.tdisp })
    else x) })
  s.modNode n (fun x => { x with state := .held, running := none })

end Sys2Proof.Machine
end

