-- ==== Sys2Proof/Machine/Work.lean ====
section
/-!
DEFINITION. Work and contexts: TNEXT, TEND, SPAWN, FAN, GANG, TQPUSH (11 R300, R301; 03 R61-R67) and the start message
(R64, R65).
-/

namespace Sys2Proof.Machine

open Sys2Proof

/-! ### Dealing (R61, R300) -/

/-- Tile columns of a domain's launch (R56). -/
def State.gridCols (s : State) (d : Domain) : Nat := match (s.vf d.vf).record d.record with | some r => r.cols | none => 1

/-- TNEXT (R300). -/
def execTnext (d : BitVec 6) (i : BitVec 12) (s : State) : Host.Outcome State Fault Refusal :=
  run (.tnext d i) (s.issue.ctx == 4) (!xOrZero d) (do
    let c := s.issue.core
    let own := match s.domOf c with | some m => tget m.deal c (0, 0) | none => (0, 0)
    let cols := match s.domOf c with | some m => s.gridCols m | none => 1
    let k := (s.core c).dealt
    if k < own.2 then do
      let t := own.1 + k
      modCore (fun co => { co with dealt := co.dealt + 1 })
      xset d (w64 (t / cols * 2 ^ 32 + t % cols))
      fallThrough
    else jump (s.issue.addr + wi (4 * s.imm i))) s

/-! ### Contexts (R62, R63) -/

/-- A context as it starts (R62): argument in x1, launch or spawner values in the CSRs that R62 excepts. -/
def startedCtx (pc arg : W64) (cpol retry : W64) (dc : Tab W64) (mshare collbw : W64) : Ctx :=
  { (({} : Ctx).setX 1 arg) with
    active := true, pc := w64 (alignTo 4 pc.toNat), cpol := cpol, retrymax := retry, dc := dc, mshare := mshare, collbw := collbw }

/-- Context k of core c starts; a core that was draining gathers again, since the new context has not arrived (R62). What
the context that ran there before has left to write stays to be written. -/
def State.startCtx (s : State) (c k : Nat) (x : Ctx) : State :=
  let left := (s.ctx c k).unwritten.map (fun h => { h with after := { h.after with eh := 0 } })
  (s.modCore c (fun co =>
    let co := { co with ctxs := tput co.ctxs k { x with stores := left } }
    if co.phase = .drain then { co with phase := if co.general.any (fun p => p.2.waitsOn.isSome) then .gather else .run } else co)).pend
    (if left.isEmpty then [] else [.storeWrite c k])

/-- Context 0 of a core starts with the launch's values (R62). -/
def State.startLaunched (s : State) (c : Nat) (pc arg : W64) : State :=
  let d := match s.domOf c with | some m => m | none => {}
  (s.startCtx c 0 (startedCtx pc arg 0xF5DF#64 (w64 d.retry) d.dcs 8 0x448#64)).modCore c
    (fun co => { co with started := true })

/-- TEND (R301, R63). -/
def execTend (s : State) : Host.Outcome State Fault Refusal := run .tend s.inHandler false retireSelf s

/-- SPAWN (R301, R62). -/
def execSpawn (d a b : BitVec 6) (s : State) : Host.Outcome State Fault Refusal :=
  run (.spawn d a b) (s.issue.ctx == 4) (aBad d [a, b]) (do
    let c := s.issue.core
    let x := s.ctx c s.issue.ctx
    let pc ← ahPop a
    let arg ← ahPop b
    match (List.range 4).find? (fun k => !(s.ctx c k).active) with
    | none => ahPush d (w64 (2 ^ 64 - 1))
    | some k => do
      modify (fun t => t.startCtx c k (startedCtx (pc.setWidth 64) (arg.setWidth 64) x.cpol x.retrymax x.dc x.mshare x.collbw))
      ahPush d (w64 k)) s

/-! ### Fan-out (R64, R65) -/

/-- The member cores of a cluster, in increasing number. -/
def Domain.inCluster (d : Domain) (k : Nat) : List Nat := d.members.filter (fun c => clusterOf c == k)
/-- The clusters that hold a member core, in increasing number. -/
def Domain.clusters (d : Domain) : List Nat := (List.range Config.clusters).filter (fun k => d.members.any (fun c => clusterOf c == k))
/-- The children of a core on the spanning tree of R64: cluster children first. -/
def Domain.children (d : Domain) (c : Nat) : List Nat :=
  let own := d.inCluster (clusterOf c)
  let cl := d.clusters
  let j := indexOf own c
  let i := indexOf cl (clusterOf c)
  let heads := if j = 0 then [2 * i + 1, 2 * i + 2].filterMap (fun k => (cl[k]?).bind (fun x => (d.inCluster x).head?)) else []
  heads ++ [4 * j + 1, 4 * j + 2, 4 * j + 3, 4 * j + 4].filterMap (fun k => own[k]?)

/-- FAN (R301, R64). -/
def execFan (a b : BitVec 6) (s : State) : Host.Outcome State Fault Refusal :=
  run (.fan a b) (s.issue.ctx == 4) (!ahSrc a || !ahSrc b) (do
    let pc ← ahPop a
    let arg ← ahPop b
    let l := match s.domOf s.issue.core with | some d => d.children s.issue.core | none => []
    modify (fun t => t.pend (l.map (fun k => .startMessage k (pc.setWidth 64) (arg.setWidth 64))))) s

/-- START_MESSAGE (R64, R65): a core whose mark is set is left as it is. DESIGN CHOICE: a message of an attempt that was aborted
is not recalled. See log 32. -/
def State.startMessage (s : State) (c : Nat) (pc arg : W64) : Option State :=
  match s.domOf c with
  | none => none
  | some d => if !d.members.contains c then none else if (s.core c).started then some s else some (s.startLaunched c pc arg)

/-- START_MESSAGE (R64). -/
def execStartMessage (c : Nat) (pc arg : W64) (s : State) : Host.Outcome State Fault Refusal := event "START_MESSAGE" (s.startMessage c pc arg)

/-! ### Gangs (R66) -/

/-- The groups of a gang record, the leading run of valid entries, and whether the record is illegal (R301): no
group, a k above 13 in a group, or a reserved bit set in any of the eight entries. -/
def gangOf (l : List W64) : List GangGroup × Bool :=
  let entry := fun g => (wd l (2 * g), wd l (2 * g + 1))
  let run := (List.range 8).takeWhile (fun g => bit (entry g).1 63)
  let reserved := fun (w : W64) => bf w 59 4 != 0 || bf w 0 2 != 0
  (run.map (fun g => { pc := w64 (bf (entry g).1 0 55), k := bf (entry g).1 55 4, arg := (entry g).2 }),
   run.isEmpty || run.any (fun g => decide (13 < bf (entry g).1 55 4)) || (List.range 8).any (fun g => reserved (entry g).1))

/-- The cores of a group at the lowest position that fits among free cores (R66). See log 33. -/
def placeGroup (free : List Nat) (k : Nat) : Option (List Nat) :=
  let n := 2 ^ k
  let starts := (List.range (Config.cores / n)).map (fun i => i * n)
  (starts.map (fun a => (List.range n).map (fun i => a + i))).find? (fun l => l.all (fun c => free.contains c))

/-- The groups of a record placed in order, each away from those before it; none when one does not fit. See log 33. -/
def placeGroups (free : List Nat) (l : List GangGroup) : Option (List (GangGroup × List Nat)) :=
  match l with
  | [] => some []
  | g :: r =>
    match placeGroup free g.k with
    | none => none
    | some cs => (placeGroups (free.filter (fun c => !cs.contains c)) r).map (fun t => (g, cs) :: t)

/-- GANG (R301). -/
def execGang (d a : BitVec 6) (s : State) : Host.Outcome State Fault Refusal :=
  run (.gang d a) (s.issue.ctx == 4) (aBad d [a]) (do
    let l ← descRead (← ahPop a).toNat 128
    let g := gangOf l
    if g.2 then illegalOperand
    else match (s.core s.issue.core).domain, s.domOf s.issue.core with
      | some key, some m =>
        if (placeGroups m.members g.1).isSome then do
          modify (fun t => t.modDomain key (fun x => { x with gangs := x.gangs ++ [{ core := s.issue.core, groups := g.1 }] }))
          ahPush d 0
        else ahPush d 1
      | _, _ => ahPush d 1) s

/-- TQPUSH (R301, R67): the record keeps its words; its tenant is the issuing one. -/
def execTqpush (d a : BitVec 6) (s : State) : Host.Outcome State Fault Refusal :=
  run (.tqpush d a) (s.issue.ctx == 4) (aBad d [a]) (do
    let l ← descRead (← ahPop a).toNat 128
    match (s.core s.issue.core).domain with
    | some key => modify (fun t => t.modDomain key (fun x => { x with pushes := x.pushes ++ [(s.issue.core, l)] }))
    | none => pure ()
    ahPush d 0) s

end Sys2Proof.Machine
end

