-- ==== Sys2Proof/Machine/Barrier.lean ====
section
/-!
DEFINITION. Barriers (02 R24-R36, R40, R45, R47): reductions and pennants, arrival, the combining tree, the root's
decision, polls, the park of a core, the watchdog, and phase barriers.
-/

namespace Sys2Proof.Machine

open Sys2Proof

/-! ### Reductions (R35) -/

/-- A contribution: operator, value, and whether operators have disagreed. -/
structure Contrib where
  rop : Nat := 0
  val : W64 := 0
  err : Bool := false
  deriving DecidableEq, Repr

/-- Two values under an operator (R31 ROP). -/
def ropEval (rop : Nat) (a b : W64) : W64 :=
  let i := fun (op : IntOp) => w64 (op.eval 64 a.toNat b.toNat)
  match rop with
  | 1 => i .add
  | 2 => w64 (roundVal false .f64 .rne (fpAdd (decodeFp false .f64 a.toNat) (decodeFp false .f64 b.toNat) .rne)).1
  | 3 => i .min
  | 4 => i .max
  | 5 => i .and
  | 6 => i .or
  | _ => i .maxu

/-- Two contributions, the lower on the left. See log 22. -/
def Contrib.combine (a b : Contrib) : Contrib :=
  if a.err || b.err then { err := true }
  else if a.rop = 0 then b
  else if b.rop = 0 then a
  else if a.rop ≠ b.rop then { err := true }
  else { rop := a.rop, val := ropEval a.rop a.val b.val }

/-- What a context contributes at BAR: nothing without an operator. See log 22. -/
def Ctx.contrib (c : Ctx) : Contrib :=
  match c.await with
  | .bar _ op v _ => if op = 0 then {} else { rop := op, val := v }
  | _ => {}

/-! ### Pennants (R31-R33) -/

/-- The seven words of a rising pennant (R31). -/
def Pennant.words (p : Pennant) : List W64 :=
  [w64 (p.domid.toNat + p.ssn.toNat * 2 ^ 16), p.rval,
   w64 (p.pend.toNat + p.rop * 2 ^ 48 + p.vote * 2 ^ 51 + b2n p.margin * 2 ^ 53 + b2n p.wdnear * 2 ^ 54 + b2n p.operr * 2 ^ 55
     + p.type * 2 ^ 56 + p.acause * 2 ^ 60),
   w64 (p.sgcid + p.stick.toNat * 2 ^ 32),
   w64 (p.nidx + p.nlvl * 2 ^ 25 + p.pseq * 2 ^ 30 + p.att * 2 ^ 46 + p.budget * 2 ^ 54),
   w64 p.narr, p.stepreq.setWidth 64]

/-- A rising pennant of seven words; none when its TYPE is reserved or a zero bit is set (R32). -/
def Pennant.ofWords (l : List W64) : Option Pennant :=
  let w := fun i => l.getD i 0
  if bf (w 2) 56 4 > 3 ∨ bf (w 3) 25 7 ≠ 0 ∨ bf (w 4) 62 2 ≠ 0 ∨ bf (w 5) 26 38 ≠ 0 ∨ bf (w 6) 48 16 ≠ 0 ∨ l.length ≠ 7 then none
  else some
    { domid := BitVec.ofNat 16 (bf (w 0) 0 16), ssn := BitVec.ofNat 48 (bf (w 0) 16 48), rval := w 1, pend := BitVec.ofNat 48 (bf (w 2) 0 48),
      rop := bf (w 2) 48 3, vote := Nat.min 2 (bf (w 2) 51 2), margin := bit (w 2) 53, wdnear := bit (w 2) 54, operr := bit (w 2) 55,
      type := bf (w 2) 56 4, acause := bf (w 2) 60 4, sgcid := bf (w 3) 0 25, stick := BitVec.ofNat 32 (bf (w 3) 32 32), nidx := bf (w 4) 0 25,
      nlvl := bf (w 4) 25 5, pseq := bf (w 4) 30 16, att := bf (w 4) 46 8, budget := bf (w 4) 54 8, narr := bf (w 5) 0 26,
      stepreq := BitVec.ofNat 48 (bf (w 6) 0 48) }

/-- The five words of a falling pennant of a type (R32): 8 DECIDE, 9 POLL, 10 RESUME. -/
def Decision.words (d : Decision) (type domid ssn att : Nat) : List W64 :=
  [w64 (domid + ssn * 2 ^ 16), d.rval,
   w64 (d.dec + b2n d.operr * 4 + b2n d.margin * 8 + b2n d.wdnear * 16 + b2n d.esc * 32 + d.acause * 2 ^ 8 + type * 2 ^ 12 + att * 2 ^ 32),
   w64 (d.sgcid + d.stick.toNat * 2 ^ 32), d.stepinc.setWidth 64]

/-- A falling pennant of five words: its type, SSN, ATT and decision; none when malformed (R32). DESIGN CHOICE: DEC = 3, for
which R32 has no meaning, is read as ABORT. See log 23. -/
def Decision.ofWords (l : List W64) : Option (Nat × Nat × Nat × Decision) :=
  let w := fun i => l.getD i 0
  let ty := bf (w 2) 12 4
  if ty < 8 ∨ 10 < ty ∨ bf (w 2) 6 2 ≠ 0 ∨ bf (w 2) 40 24 ≠ 0 ∨ bf (w 3) 25 7 ≠ 0 ∨ bf (w 4) 48 16 ≠ 0 ∨ l.length ≠ 5 then none
  else some (ty, bf (w 0) 16 48, bf (w 2) 32 8,
    { dec := Nat.min 2 (bf (w 2) 0 2), rval := w 1, operr := bit (w 2) 2, margin := bit (w 2) 3, wdnear := bit (w 2) 4, esc := bit (w 2) 5,
      acause := bf (w 2) 8 4, sgcid := bf (w 3) 0 25, stick := BitVec.ofNat 32 (bf (w 3) 32 32), stepinc := BitVec.ofNat 48 (bf (w 4) 0 48) })

/-- The later of two straggler records: ticks compared modulo 2^32 within a 2^31 window, equal ticks keep the lower core. -/
def laterStraggler (a b : Nat × BitVec 32) : Nat × BitVec 32 :=
  if a.2 = b.2 then (if a.1 ≤ b.1 then a else b)
  else if (b.2 - a.2).toNat < 2 ^ 31 then b else a

/-- Two siblings merged, the lower-indexed on the left (R33). -/
def Pennant.merge (a b : Pennant) : Pennant :=
  let r := (Contrib.mk a.rop a.rval a.operr).combine ⟨b.rop, b.rval, b.operr⟩
  let st := laterStraggler (a.sgcid, a.stick) (b.sgcid, b.stick)
  let c := if a.acause ≠ 15 then a else b
  { a with rop := r.rop, rval := r.val, operr := r.err, vote := Nat.max a.vote b.vote, acause := c.acause,
           budget := if c.acause = 15 then 0 else c.budget, margin := a.margin || b.margin, wdnear := a.wdnear || b.wdnear,
           pend := a.pend + b.pend, narr := a.narr + b.narr, sgcid := st.1, stick := st.2,
           stepreq := if a.stepreq.toNat < b.stepreq.toNat then b.stepreq else a.stepreq, nidx := a.nidx / 2, nlvl := a.nlvl + 1 }

/-- A pennant climbs the fixed tree over n members (R33, R35): it passes a node with one child, merges with a sibling that
has come, and else waits. The nodes that wait, and the root's pennant when it is complete. -/
def climb (n : Nat) (nodes : List Pennant) (p : Pennant) (fuel : Nat) : List Pennant × Option Pennant :=
  match fuel with
  | 0 => (nodes ++ [p], none)
  | k + 1 =>
    if p.nidx = 0 ∧ n ≤ 2 ^ p.nlvl then (nodes, some p)
    else
      let sib := if p.nidx % 2 = 0 then p.nidx + 1 else p.nidx - 1
      if n ≤ sib * 2 ^ p.nlvl then climb n nodes { p with nidx := p.nidx / 2, nlvl := p.nlvl + 1 } k
      else
        match nodes.find? (fun q => q.nidx == sib && q.nlvl == p.nlvl) with
        | none => (nodes ++ [p], none)
        | some q => climb n (nodes.erase q) (if p.nidx % 2 = 0 then p.merge q else q.merge p) k

/-! ### The domain and its devices (23 R398) -/

/-- The homes and member cores of a domain on this device (R37). -/
def Domain.parties (m : Domain) : List Party :=
  m.members.map .core ++ m.clusters.map .cluster ++ (List.range Config.dies).map .die

/-- Member indices over the present devices in increasing number (R23, 23 R401): how many there are, and this device's
first. -/
def State.indexMembers (s : State) (d : Nat) : State :=
  let ps := s.participants d
  s.modDomain d (fun m => { m with size := (ps.map (s.membersOn d)).sum,
                                   base := ((ps.filter (fun v => decide (v < s.plat.devNo.toNat))).map (s.membersOn d)).sum })

/-- A falling pennant sent to the child devices; a DECIDE that commits carries the new SSN (R32). -/
def State.sendDown (s : State) (d type : Nat) (x : Decision) : State :=
  let m := s.domain d
  let ssn := if type = 8 ∧ x.dec ≠ 2 then m.ssn + 1 else m.ssn
  (s.childDevs d).foldl (fun s v => s.sendFlit v 3 m.epoch (x.words type m.id.toNat ssn.toNat m.att)) s

/-! ### The decision (R36, R45) -/

/-- What came early for a domain and belongs to its present epoch is taken up; a pennant of another epoch is discarded and counted
(23 R399). -/
def State.takeKept (s : State) (d : Nat) : State :=
  let m := s.domain d
  let ours := fun (x : KeptFlit) => bf (x.words.getD 0 0) 0 16 == m.id.toNat && (x.cls == 3 || x.epoch == m.epoch)
  let l := s.plat.kept.filter ours
  l.foldl (fun s x =>
    if x.cls = 5 then s.takePost x.src x.epoch x.words
    else if x.epoch ≠ m.epoch then s.pennantLost
    else match Pennant.ofWords x.words with
      | some p => (s.modDomain d (fun m => { m with inbox := m.inbox ++ [p] })).pend [.risingPennant d]
      | none => s) (s.modPlat (fun p => { p with kept := p.kept.filter (fun x => !ours x) }))

/-- What stands before a decision is cleared: pennants, polls, the count of the watchdog (R47). -/
def Domain.decided (m : Domain) (x : Decision) (node : Node) : Domain :=
  { m with decision := some x, done := [], doneDevs := [], inbox := [], nodes := [], root := none, arrivals := [], strag := none, pollAt := none,
           polling := [], wdRun := false, given := 0, ppol := node.ppol, rweight := bf node.pcfg 0 4 }

/-- The membership epoch of a domain and of its job's table advances (23 R399, R401); posts of the new epoch that have come already
are taken up. -/
def State.nextEpoch (s : State) (d : Nat) : State :=
  let m := s.domain d
  let e := (m.epoch + 1) % 16
  ((s.modDomain d (fun m => { m with epoch := e })).modPlat (fun p => { p with members := p.members.map (fun x =>
    if x.job = m.job then { x with epoch := e, absent := m.absent } else x) })).takeKept d

/-- The decision falls: every member and home takes it, on the child devices too. A yielding launch is READY from here on
(20 R361, R362); a membership change advances the epoch before any DONE (23 R401). -/
def State.falls (s : State) (d : Nat) (x : Decision) : State :=
  let m := s.domain d
  let s := s.modDomain d (fun m => m.decided x (s.node m.node))
  let s := if x.dec = 2 then s.modDomain d (fun m => { m with insts := [] }) else s
  let s := if x.dec = 1 then s.modLaunch d (fun r => { r with since := s.hbt }) else s
  let s := s.sendDown d 8 x
  let s := if x.dec = 2 ∧ x.acause = 9 then s.nextEpoch d else s
  s.pend (m.parties.map (fun p => if x.dec = 2 then .decideAbort d p else .decideCommit d p))

/-- The flags of every pennant that has reached this combining point. See log 21. -/
def Domain.flags (m : Domain) (p : Pennant) : Pennant :=
  (m.nodes ++ m.root.toList).foldl (fun (a : Pennant) q =>
    { a with operr := a.operr || q.operr, margin := a.margin || q.margin, wdnear := a.wdnear || q.wdnear }) p

/-- A decision without a complete root pennant carries no reduction: its value is zero (14 R319, example). See log 21. -/
def State.unreduced (s : State) (d : Nat) (p : Pennant) : Pennant := { (s.domain d).flags p with rval := 0 }

/-- The root decides ABORT (R36, R45): at the budget, or by the watchdog, the decision carries ESC; a membership change
never does. -/
def State.decideAbortOf (s : State) (d : Nat) (acause budget : Nat) (strag : Nat × BitVec 32) (root : Pennant) (watchdog : Bool) : State :=
  let m := s.domain d
  s.falls d { dec := 2, rval := root.rval, operr := root.operr, margin := root.margin, wdnear := root.wdnear, acause := acause,
              esc := acause ≠ 9 && (watchdog || m.consec == budget), sgcid := strag.1, stick := strag.2 }

/-- The root decides from its complete pennant (R36); until the balance is zero it waits 4 ticks and polls. -/
def State.rootDecide (s : State) (d : Nat) (root : Pennant) : State :=
  let m := s.domain d
  if 2 ≤ root.vote then
    s.decideAbortOf d (if root.acause = 15 then 8 else root.acause) root.budget (root.sgcid, root.stick) root false
  else if root.pend ≠ BitVec.ofNat 48 m.landed then
    s.modDomain d (fun m => { m with root := some root, pollAt := some (s.hbt + 4) })
  else
    s.falls d { dec := if root.vote = 1 ∨ s.wantsYield d then 1 else 0, rval := root.rval, operr := root.operr, margin := root.margin,
                wdnear := root.wdnear, acause := root.acause, sgcid := root.sgcid, stick := root.stick, stepinc := root.stepreq }

/-! ### Rising pennants of the commit domain (R33, R34, R40) -/

/-- Every local member's pennant is among the nodes. -/
def Domain.allRisen (m : Domain) : Bool := decide (m.members.length ≤ m.arrivals.length) && m.polling.isEmpty

/-- A device that does not hold the root sends what it has merged to its parent, with the negated count of what its homes
have counted since it last did in this pass (R34). -/
def State.forwardNodes (s : State) (d : Nat) (parent : Nat) : State :=
  let m := s.domain d
  if !m.allRisen || m.inbox.any (fun p => p.type != 1) then s
  else
    let l := match m.nodes with
      | p :: r => { p with pend := p.pend - BitVec.ofNat 48 (m.landed - m.given) } :: r
      | [] => []
    l.foldl (fun s p => s.sendFlit parent 3 m.epoch p.words)
      (s.modDomain d (fun m => { m with nodes := [], given := if l.isEmpty then m.given else m.landed }))

/-- A rising pennant of the open attempt reaches this device's combining point. -/
def State.takePennant (s : State) (d : Nat) (p : Pennant) : State :=
  let m := s.domain d
  if m.decision.isSome ∨ p.domid ≠ m.id ∨ p.ssn ≠ m.ssn ∨ p.att ≠ m.att % 256 then s
  else
    let st := match m.strag with | none => (p.sgcid, p.stick) | some x => laterStraggler x (p.sgcid, p.stick)
    let s := s.modDomain d (fun m => { m with strag := some st })
    match s.parentDev d with
    | some up =>
      if p.type = 1 then s.sendFlit up 3 m.epoch p.words
      else
        let r := climb m.size m.nodes p 32
        (s.modDomain d (fun m => { m with nodes := r.1 ++ r.2.toList })).forwardNodes d up
    | none =>
      if p.type = 1 then
        s.decideAbortOf d p.acause p.budget (p.sgcid, p.stick) (s.unreduced d p) false
      else
        let r := climb m.size m.nodes p 32
        let s := s.modDomain d (fun m => { m with nodes := r.1 })
        match r.2 with
        | some root => s.rootDecide d root
        | none => s

/-! ### Phase barriers (R24, R30) -/

/-- The members of an instance: the domain's cores of its unit. -/
def Domain.instMembers (m : Domain) (slot unit : Nat) : List Nat :=
  let level := m.levels.getD (slot - 1) 0
  m.members.filter (fun c => unitOf level c == unit)

/-- A member whose general contexts have all retired and which has drained counts as arrived, with nothing to add (R30). -/
def State.passes (s : State) (c : Nat) : Bool := (s.core c).phase == .arrived && (s.core c).general.isEmpty

/-- The pennant such a member stands for. -/
def State.idlePennant (s : State) (m : Domain) (x : PhaseInst) (c : Nat) : Pennant :=
  { domid := BitVec.ofNat 16 (m.slotId x.slot), ssn := m.ssn, sgcid := s.gcid c, stick := BitVec.ofNat 32 (s.core c).arrived,
    margin := (s.core c).margin, wdnear := (match tfind m.arrivals c with | some p => p.wdnear | none => false),
    nidx := indexOf (m.instMembers x.slot x.unit) c, narr := 1, pseq := x.pseq, att := m.att % 256 }

/-- An instance has something to take up: a pennant, or a member that passes by itself. -/
def State.instReady (s : State) (m : Domain) (x : PhaseInst) : Bool :=
  x.decision.isNone && (!x.inbox.isEmpty || (m.instMembers x.slot x.unit).any (fun c => !x.counted.contains c && s.passes c))

/-- An open instance takes its pennants; with all members counted in, its decision is PROCEED. -/
def State.advance (s : State) (m : Domain) (x : PhaseInst) : PhaseInst :=
  let members := m.instMembers x.slot x.unit
  let idle := (members.filter (fun c => !x.counted.contains c && s.passes c)).map (s.idlePennant m x)
  let r := (x.inbox ++ idle).foldl (fun (a : List Pennant × Option Pennant) p =>
    let q := climb members.length a.1 p 32
    (q.1, match q.2 with | some t => some t | none => a.2)) (x.nodes, none)
  let counted := x.counted ++ (x.inbox ++ idle).filterMap (fun p => members[p.nidx]?)
  let x := { x with inbox := [], nodes := r.1, counted := counted }
  match r.2 with
  | none => x
  | some t =>
    { x with decision := some { rval := t.rval, operr := t.operr, margin := t.margin, wdnear := t.wdnear, sgcid := t.sgcid, stick := t.stick }
             left := counted.filter (fun c => (s.core c).phase == .arrived && (s.core c).slot == x.slot) }

/-- Where the sequence number of a slot and unit is counted. -/
def instKey (slot unit : Nat) : Nat := slot * 2 ^ 14 + unit

/-- The first instance of a domain with something to take up advances. -/
def State.advanceInsts (s : State) (d : Nat) : Option State :=
  let m := s.domain d
  match m.insts.find? (s.instReady m) with
  | none => none
  | some x =>
    let y := s.advance m x
    let s := s.modDomain d (fun m => { m with insts := m.insts.map (fun z => if z == x then y else z) })
    match y.decision with
    | none => some s
    | some _ => some ((s.modDomain d (fun m => { m with pseqs := tmod m.pseqs (instKey x.slot x.unit) 0 (fun n => (n + 1) % 65536) })).pend
        (y.left.map (fun c => .decideProceed c x.slot)))

/-- RISING_PENNANT (R33): a combining point takes one pennant of the commit domain, or those of one phase instance. -/
def State.risingPennant (s : State) (d : Nat) : Option State :=
  let m := s.domain d
  if !m.live then none
  else (match m.inbox with
    | p :: r => some ((s.modDomain d (fun m => { m with inbox := r })).takePennant d p)
    | [] => s.advanceInsts d).map (fun (t : State) =>
      let n := t.domain d
      if !n.inbox.isEmpty || n.insts.any (t.instReady n) then t.pend [.risingPennant d] else t)

/-- RISING_PENNANT (R33). -/
def execRisingPennant (d : Nat) (s : State) : Host.Outcome State Fault Refusal := event "RISING_PENNANT" (s.risingPennant d)

/-! ### Arrival (R27-R30) -/

/-- The budget that an abort vote reports (R26): the smallest of the active general contexts' and of those that retired
with a vote; the record's RETRY when there is none. -/
def State.abortBudget (s : State) (c : Nat) (m : Domain) : Nat :=
  let co := s.core c
  match co.general.map (fun p => bf p.2.retrymax 0 8) ++ co.retired.map (fun r => r.budget) with
  | [] => m.retry
  | b :: r => r.foldl Nat.min b

/-- The pennant of a core that arrives on a slot (R28, R30, R31). -/
def State.arrival (s : State) (c slot : Nat) (m : Domain) : Pennant :=
  let co := s.core c
  let act := co.general.map (fun p => p.2)
  let r := act.foldl (fun (a : Contrib) x => a.combine x.contrib) {}
  let vote := if slot = 0 then (act.map (fun x => x.vote) ++ co.retired.map (fun x => x.vote)).foldl Nat.max 0 else 0
  let p : Pennant :=
    { domid := BitVec.ofNat 16 (m.slotId slot), ssn := m.ssn, rval := r.val, rop := r.rop, operr := r.err, vote := vote, margin := co.margin,
      wdnear := decide (3 * m.wdBudget ≤ 4 * m.wdCount), acause := if vote = 2 then 8 else 15, sgcid := s.gcid c, stick := BitVec.ofNat 32 s.hbt,
      att := m.att % 256, budget := if vote = 2 then s.abortBudget c m else 0, narr := 1 }
  if slot = 0 then { p with pend := co.sent, nidx := m.base + indexOf m.members c, stepreq := co.stepReq }
  else
    let unit := unitOf (m.levels.getD (slot - 1) 0) c
    { p with nidx := indexOf (m.instMembers slot unit) c, pseq := tget m.pseqs (instKey slot unit) 0 }

/-- A phase pennant joins its instance, which opens with its first. -/
def Domain.joinInst (m : Domain) (slot unit : Nat) (p : Pennant) : Domain :=
  if m.insts.any (fun x => x.slot == slot && x.unit == unit && x.decision.isNone) then
    { m with insts := m.insts.map (fun x => if x.slot == slot && x.unit == unit && x.decision.isNone then { x with inbox := x.inbox ++ [p] } else x) }
  else { m with insts := m.insts ++ [{ slot := slot, unit := unit, pseq := p.pseq, inbox := [p] }] }

/-- The core sends ARRIVE. -/
def State.arrive (s : State) (c slot d : Nat) : State :=
  let m := s.domain d
  let p := s.arrival c slot m
  let s := s.modCore c (fun co => { co with phase := .arrived, arrived := s.hbt })
  (s.modDomain d (fun m =>
    if slot = 0 then { m with inbox := m.inbox ++ [p], arrivals := tput m.arrivals c p }
    else m.joinInst slot (unitOf (m.levels.getD (slot - 1) 0) c) p)).pend [.risingPennant d]

/-- Inbound channels emptied; what is discarded is counted (R15). -/
def Core.emptyChannels (c : Core) : Core := { c.diag 3 c.chanCount with chanN := [], chanE := [], chanS := [], chanW := [] }

/-- Channel residue at arrival (R29, 09 R226): the trap of the context whose BAR completed it. Under ignore the entries are
discarded and the arrival goes on; so it does where no context waits at a BAR, since the commit requires every channel to
be empty (R15; see log 23). -/
def State.residueTrap (s : State) (c : Nat) : Taken :=
  let k := (s.core c).lastBar
  let x := s.ctx c k
  let back := (s.modCore c (fun co => { co with phase := .gather })).modCtx c k (fun y => { y with await := .running })
  match x.barSlot with
  | some sl =>
    match back.takeTrap c k (some sl) (halfIn sl.iss.himm sl.instr) sl.iss.first 14 (w64 (s.core c).chanSet) false with
    | .done t => .done t
    | .ignored t =>
      .ignored ((t.modCore c (fun co => { co.emptyChannels with phase := .drain })).modCtx c k (fun y => { y with await := x.await }))
  | none => .ignored (s.modCore c Core.emptyChannels)

/-- An entry that a neighbour has pushed into a core that has arrived at a commit barrier (R15): the residue is contained on the
context whose BAR completed the arrival, whose handler cannot run any more, and the channels are emptied. See log 23. -/
def State.lateResidue (s : State) (c : Nat) : State :=
  let k := (s.core c).lastBar
  let t := match (s.ctx c k).barSlot with
    | some sl =>
      ((s.modCtx c k (fun y => y.report (halfIn sl.iss.himm sl.instr) sl.iss.first 14 (w64 (s.core c).chanSet))).contain 0 c (some k)
        (s.ctx c k).cpol 6 0 3 0).1
    | none => s
  t.modCore c Core.emptyChannels

/-- CORE_ARRIVE (R29, R30): the drain is complete; of a core that has arrived already, its channels are checked again (R15). -/
def State.coreArrive (s : State) (c slot : Nat) : Option State :=
  let co := s.core c
  match co.domain, s.domOf c with
  | some d, some _ =>
    if slot = 0 ∧ co.slot = 0 ∧ co.phase = .arrived ∧ co.chanSet ≠ 0 then some (s.lateResidue c)
    else if co.phase ≠ .drain ∨ co.slot ≠ slot ∨ co.early.isSome ∨ !s.drained c then none
    else if slot = 0 ∧ co.chanSet ≠ 0 then
      match s.residueTrap c with
      | .done t => some t
      | .ignored t => some (t.arrive c slot d)
    else some (s.arrive c slot d)
  | _, _ => none

/-- CORE_ARRIVE (R29). -/
def execCoreArrive (c slot : Nat) (s : State) : Host.Outcome State Fault Refusal := event "CORE_ARRIVE" (s.coreArrive c slot)

/-! ### Polls (R27, R36) -/

/-- POLL_TIMER (R36): four ticks have passed with bytes pending; every member and home is polled. -/
def State.pollTimer (s : State) (d : Nat) : Option State :=
  let m := s.domain d
  match m.root, m.decision with
  | some _, none =>
    if m.pollAt.any (fun t => decide (t ≤ s.hbt)) then
      let s := s.modDomain d (fun m => { m with root := none, nodes := [], pollAt := none, polling := m.parties })
      some ((s.sendDown d 9 {}).pend (m.parties.map (fun p => .poll d p)))
    else none
  | _, _ => none

/-- POLL_TIMER (R36). -/
def execPollTimer (d : Nat) (s : State) : Host.Outcome State Fault Refusal := event "POLL_TIMER" (s.pollTimer d)

/-- POLL (R27, R36): a member answers with the same fields and its current count; a home's count is its landed bytes. -/
def State.poll (s : State) (d : Nat) (who : Party) : Option State :=
  let m := s.domain d
  if !m.polling.contains who then none
  else
    let s := s.modDomain d (fun m => { m with polling := m.polling.erase who })
    match who with
    | .core c =>
      match tfind m.arrivals c with
      | some p =>
        let q := { p with type := 2, pend := (s.core c).sent }
        some ((s.modDomain d (fun m => { m with arrivals := tput m.arrivals c q, inbox := m.inbox ++ [q] })).pend [.risingPennant d])
      | none => some s
    | _ => some s

/-- POLL (R27). -/
def execPoll (d : Nat) (who : Party) (s : State) : Host.Outcome State Fault Refusal := event "POLL" (s.poll d who)

/-! ### Parking and the watchdog (R40, R47) -/

/-- The core is in one of the states in which it parks (R27). -/
def Core.parks (c : Core) : Bool := c.phase == .run || c.phase == .gather || c.phase == .drain

/-- The EARLY-ABORT of a core for a containment group (R31, R40). -/
def State.earlyAbort (s : State) (c g : Nat) (m : Domain) : Pennant :=
  { domid := m.id, ssn := m.ssn, vote := 2, margin := (s.core c).margin, type := 1, acause := g, sgcid := s.gcid c,
    stick := BitVec.ofNat 32 s.hbt, nidx := m.base + indexOf m.members c, att := m.att % 256, budget := s.abortBudget c m }

/-- CORE_PARK (R27, R40): the core, in RUN, GATHER or DRAIN, stops and sends EARLY-ABORT. A core that has arrived sends it and stays
as it is, so that the open superstep aborts (R53); it sends one only. See log 25. -/
def State.corePark (s : State) (c : Nat) : Option State :=
  let co := s.core c
  match co.early, co.domain, s.domOf c with
  | some (g, _), some d, some m =>
    if m.decision.isSome ∨ !(co.parks || (co.phase == .arrived && !co.voted)) then none
    else
      let s1 := s.modCore c (fun co => if co.parks then { co with phase := .park } else { co with voted := true })
      if co.voted then some s1
      else some ((s1.modDomain d (fun m => { m with inbox := m.inbox ++ [s.earlyAbort c g m] })).pend [.risingPennant d])
  | _, _, _ => none

/-- CORE_PARK (R40). -/
def execCorePark (c : Nat) (s : State) : Host.Outcome State Fault Refusal := event "CORE_PARK" (s.corePark c)

/-- WATCHDOG_EXPIRY (R47): at the root; the latest straggler recorded so far goes with the decision. -/
def State.watchdogExpiry (s : State) (d : Nat) : Option State :=
  let m := s.domain d
  if !m.live ∨ m.decision.isSome ∨ !m.wdRun ∨ m.wdCount < m.wdBudget ∨ (s.parentDev d).isSome then none
  else
    some (s.decideAbortOf d 7 0 (m.strag.getD (0, 0)) (s.unreduced d {}) true)

/-- WATCHDOG_EXPIRY (R47). -/
def execWatchdogExpiry (d : Nat) (s : State) : Host.Outcome State Fault Refusal := event "WATCHDOG_EXPIRY" (s.watchdogExpiry d)

/-! ### Passing a barrier (R26, R302) -/

/-- BSTAT after a decision of a slot. -/
def Decision.bstat (x : Decision) (slot : Nat) : W64 :=
  w64 (x.dec + slot * 4 + b2n x.operr * 2 ^ 4 + b2n x.margin * 2 ^ 5 + b2n x.wdnear * 2 ^ 6 + b2n x.esc * 2 ^ 7 + x.acause * 2 ^ 8)
/-- BSTRAG after a decision. -/
def Decision.bstrag (x : Decision) : W64 := w64 (x.sgcid + x.stick.toNat * 2 ^ 32)
/-- The barrier CSRs after a decision. -/
def Ctx.note (c : Ctx) (x : Decision) (slot : Nat) : Ctx := { c with barres := x.rval, bstrag := x.bstrag, bstat := x.bstat slot }

/-- A context that waited on a slot goes on after its BAR: x[D] takes the result, or lq an entry (R302). -/
def Ctx.pass (c : Ctx) (x : Decision) (slot : Nat) : Ctx :=
  match c.await with
  | .bar sl _ _ d =>
    if sl ≠ slot then c
    else
      let c := { (c.note x slot) with await := .running, barSlot := none, vote := if slot = 0 then 0 else c.vote }
      if d = 57 then { c with lq := c.lq ++ [{ data := x.rval.setWidth 128 }] }
      else if d.toNat < 32 then c.setX d.toNat x.rval else c
  | _ => c

/-- The general contexts of a core changed. -/
def Core.modGeneral (c : Core) (f : Ctx → Ctx) : Core := { c with ctxs := c.ctxs.map (fun p => if p.1 < 4 then (p.1, f p.2) else p) }

/-- DECIDE_PROCEED (R24, R27): a member's waiting contexts go on. -/
def State.decideProceed (s : State) (c slot : Nat) : Option State :=
  match (s.core c).domain, s.domOf c with
  | some d, some m =>
    match m.insts.find? (fun x => x.slot == slot && x.decision.isSome && x.left.contains c) with
    | some x =>
      if (s.core c).phase ≠ .arrived ∨ (s.core c).slot ≠ slot then none
      else
        let dec := x.decision.getD {}
        let y := { x with left := x.left.erase c }
        let s := s.modCore c (fun co => { co.modGeneral (fun k => k.pass dec slot) with phase := .run })
        let s := s.modDomain d (fun m => { m with insts := if y.left.isEmpty then m.insts.erase x else m.insts.map (fun z => if z == x then y else z) })
        some (if (s.core c).early.isSome then s.pend [.corePark c] else s)
    | none => none
  | _, _ => none

/-- DECIDE_PROCEED (R24). -/
def execDecideProceed (c slot : Nat) (s : State) : Host.Outcome State Fault Refusal := event "DECIDE_PROCEED" (s.decideProceed c slot)

end Sys2Proof.Machine
end

