-- ==== Sys2Proof/Machine/Messages.lean ====
section
/-!
DEFINITION. Deltas (04 R88-R90) as PUT, MSG and ATOM produce them (11 R297-R299), and their arrival at a home (02 R34,
R41).
-/

namespace Sys2Proof.Machine

open Sys2Proof

/-- Words a core's mailbox holds or has promised (R299). -/
def Core.mailUsed (c : Core) : Nat := c.mail.length + c.mailRes

/-- A target identifier names a device of the core's commit domain (R298). -/
def State.deviceOk (s : State) (c dev : Nat) : Bool :=
  dev == s.plat.devNo.toNat || (match s.domOf c with | some d => d.devices.contains dev && !d.absent.contains dev | none => false)

/-- A target operand that R298 refuses. -/
def State.targetBad (s : State) (c : Nat) (x : W64) : Bool := bf x 25 39 != 0 || !s.deviceOk c (bf x 13 12)
/-- A target lies on this device. -/
def State.here (s : State) (x : W64) : Bool := bf x 13 12 == s.plat.devNo.toNat

/-- A core participates in the launch of core c (03 R57). -/
def State.participates (s : State) (c target : Nat) : Bool :=
  match s.domOf c with | some d => d.members.contains target | none => false

/-- Where a local address of a target core lies (R297); of a core that does not participate, nothing is reached (R298). -/
def putTarget (takes : Bool) (core : Nat) (addr n : Nat) : Target :=
  if !takes then .tcm core 0
  else if addr / 2 ^ 24 % 256 = 0 then .tcm core (alignTo n (addr % 65536)) else .window (clusterOf core) (addr / 2 ^ 24 % 256) (alignTo n (addr % 2 ^ 24))

/-- The line of a target. -/
def Target.line (t : Target) : Target :=
  match t with
  | .tcm c off => .tcm c (alignTo 64 off)
  | .window k w off => .window k w (alignTo 64 off)
  | .page v a => .page v (w64 (alignTo 64 a.toNat))
  | t => t
/-- The byte of the line. -/
def Target.byte (t : Target) : Nat :=
  match t with | .tcm _ off => off % 64 | .window _ _ off => off % 64 | .page _ a => a.toNat % 64 | .mailbox _ => 0

/-- A delta for another device, sent over the fabric: its sequence number and its pending bytes are the sender's. -/
def State.sendAway (s : State) (c : Nat) (dev bytes : Nat) (words : List W64) : State :=
  let r := s.takeSeq c
  let m := s.stamp c
  (r.2.modCore c (fun co => { co with sent := co.sent + BitVec.ofNat 48 bytes })).sendOut
    { dst := dev, cls := 2, lane := reqLane (words.getD 2 0).toNat, epoch := m.2.2,
      words := w64 (s.gcid c) :: w64 r.1 :: w64 (m.1.toNat + m.2.1 % 2 ^ 16 * 2 ^ 48) :: words }

/-- An entry reserved at a home on another device (R86, R298): whether it has room is that device's state, here a free
value; the trap is delta-full with the target's die. See log 58. -/
def foreignEntry (x : W64) : M Bool := do
  let s ← get
  set { s with fresh := s.fresh + 1 }
  if Config.foreignRoom s.fresh then pure true
  else if s.issue.ign.contains 13 then pure false
  else do trapWith 13 (w64 (dieOf (bf x 0 13))); pure false

/-- A version-pool entry of a cluster reserved (R335); the trap is version-pool overflow. False when an ignored cause
discards the delta. -/
def poolEntry (k : Nat) : M Bool := do
  let s ← get
  if (s.cluster k).poolUsed < Config.poolEntries then do
    set (s.modCluster k (fun x => { x with reserved := x.reserved + 1 }))
    pure true
  else if s.issue.ign.contains 12 then pure false
  else do trapWith 12 0; pure false

/-- n words reserved in a core's mailbox (R298); the trap is delta-full with the mailbox's die. -/
def mailEntry (c n : Nat) : M Bool := do
  let s ← get
  if (s.core c).mailUsed + n ≤ Config.mailboxWords then do
    set (s.modCore c (fun x => { x with mailRes := x.mailRes + n }))
    pure true
  else if s.issue.ign.contains 13 then pure false
  else do trapWith 13 (w64 (dieOf c)); pure false

/-- A global target of PUT and ATOM checked and translated (R298, R178): its home die; none when an ignored cause
discards the delta. -/
def globalTarget (a : W64) (n : Nat) : M (Option Nat) := do
  let s ← get
  let c := s.issue.core
  if a.toNat % n ≠ 0 then
    if s.issue.ign.contains 5 then pure none else do trapWith 5 a; pure none
  else match s.xlate (s.tenantOf c) a .write with
    | .fault k => if s.issue.ign.contains k then pure none else do trapWith k a; pure none
    | .wait => stallFor [.pageBringUp (s.tenantOf c) (a.toNat / 2 ^ 16)]
    | .ok phys _ _ => do
      set (s.lookup c (s.tenantOf c) a true)
      pure (some (homeDie phys))

/-- A delta-store entry of a home die reserved; the trap is delta-full with the die. -/
def storeEntry (d : Nat) : M Bool := do
  let s ← get
  if (s.die d).storeUsed < Config.deltaEntries then do
    set (s.modDie d (fun x => x.reserve (s.tenantOf s.issue.core)))
    pure true
  else if s.issue.ign.contains 13 then pure false
  else do trapWith 13 (w64 d); pure false

/-- A delta of the issuing core sent (R89). -/
def sendDelta (bytes : Nat) (kind : DeltaKind) (target : Target) : M Unit :=
  modify (fun s => let r := s.takeSeq s.issue.core; r.2.emit s.issue.core r.1 bytes kind target)

/-- PUT (R297, R298). -/
def execPut (d a b : BitVec 6) (z : BitVec 3) (s : State) : Host.Outcome State Fault Refusal :=
  let n := 2 ^ z.toNat
  let c := s.issue.core
  let x := s.xval d
  run (.put d a b z) false
    (!xOrZero d || !ahSrc a || (if z = 4 then !(b == 57 || b == 63) else !xOrZero b) || (d != 63 && s.targetBad c x)) (do
    passPoint false
    let addr := (← ahPop a).setWidth 64
    let v := (← ahPop b).toNat % 2 ^ (8 * n)
    let line (t : Target) : M Unit :=
      let r := mergeLine 0 0 t.byte n v
      sendDelta n (.line r.1 r.2) t.line
    if d = 63 then do
      match ← globalTarget addr n with
      | none => pure ()
      | some die => if ← storeEntry die then line (.page (s.tenantOf c) addr) else pure ()
    else if s.here x then do
      let t := bf x 0 13
      if ← poolEntry (clusterOf t) then line (putTarget (s.participates c t) t (addr.toNat % 2 ^ 32) n) else pure ()
    else if ← foreignEntry x then modify (fun t => t.sendAway c (bf x 13 12) n [x, 0, addr, w64 v, w64 (v / 2 ^ 64), w64 n])
    else pure ()) s

/-- ATOM (R297, R298): its address and version-pool traps come before a full mailbox (R428). -/
def execAtom (d a b : BitVec 6) (r w : BitVec 1) (p : BitVec 4) (s : State) : Host.Outcome State Fault Refusal :=
  let n := if w = 1 then 8 else 4
  let c := s.issue.core
  let x := s.xval d
  run (.atom d a b r w p) false (!xOrZero d || !ahSrc a || !xOrZero b || (d != 63 && s.targetBad c x)) (do
    passPoint false
    let addr := (← ahPop a).setWidth 64
    let v := (← ahPop b).setWidth 64
    let kind : DeltaKind := .atom p.toNat n v (r == 1)
    let mail : M Bool := if r = 1 then mailEntry c 1 else pure true
    if d = 63 then do
      match ← globalTarget addr n with
      | none => pure ()
      | some die => if ← storeEntry die then (if ← mail then sendDelta n kind (.page (s.tenantOf c) addr) else pure ()) else pure ()
    else if s.here x then do
      let t := bf x 0 13
      if ← poolEntry (clusterOf t) then
        (if ← mail then sendDelta n kind (putTarget (s.participates c t) t (addr.toNat % 2 ^ 32) n) else pure ())
      else pure ()
    else if ← foreignEntry x then
      (if ← mail then modify (fun t => t.sendAway c (bf x 13 12) n [x, 1, addr, v, w64 (p.toNat + 16 * w.toNat + 32 * r.toNat)]) else pure ())
    else pure ()) s

/-- MSG (R297, R298): one or two words for a mailbox; a core that does not participate promises no room. -/
def execMsg (d a b : BitVec 6) (f : BitVec 1) (s : State) : Host.Outcome State Fault Refusal :=
  let c := s.issue.core
  let x := s.xval d
  run (.msg d a b f) false (!xOnly d || !ahSrc a || (f == 1 && !ahSrc b) || s.targetBad c x) (do
    passPoint false
    let u := (← ahPop a).setWidth 64
    let v ← if f = 1 then (do return [u, (← ahPop b).setWidth 64]) else pure [u]
    let t := bf x 0 13
    if s.here x then do
      let room ← if s.participates c t then mailEntry t v.length else pure true
      if room then sendDelta (8 * v.length) (.msg v) (.mailbox t) else pure ()
    else if ← foreignEntry x then modify (fun t => t.sendAway c (bf x 13 12) (8 * v.length) (x :: 2 :: v))
    else pure ()) s

/-! ### Arrival (R34, R41, R88, R89) -/

/-- The core of this device with a delta's originator number; originators on other devices are numbered from Config.cores
up. -/
def Delta.own (d : Delta) : Bool := decide (d.core < Config.cores)

/-- The domain whose launch runs where a target lies. -/
def State.homeDomain (s : State) (t : Target) : Option Nat :=
  match t with
  | .tcm c _ => (s.core c).domain
  | .mailbox c => (s.core c).domain
  | .window k _ _ => (List.range 128).findSome? (fun i => (s.core (128 * k + i)).domain)
  | .page v _ => (s.domains.find? (fun p => p.2.live && p.2.vf == v && !p.2.members.isEmpty)).map (fun p => p.1)

/-- The domain that a delta belongs to. -/
def State.deltaDomain (s : State) (d : Delta) : Option Nat := if d.own then (s.core d.core).domain else s.homeDomain d.target

/-- The delta belongs to the open attempt of its domain (R41, 23 R399). -/
def State.deltaLive (s : State) (d : Delta) : Bool :=
  match s.deltaDomain d with
  | some k => let m := s.domain k; m.live && d.ssn == m.ssn && d.att == m.att && d.epoch == m.epoch
  | none => false

/-- A core participates in the launch that a delta belongs to (R298). -/
def State.takes (s : State) (d : Delta) (c : Nat) : Bool :=
  match s.deltaDomain d with | some k => (s.domain k).members.contains c | none => false

/-- The cluster whose version pool holds a delta for a target; none for the others. -/
def Target.cluster (t : Target) : Option Nat :=
  match t with | .tcm c _ => some (clusterOf c) | .window k _ _ => some k | _ => none

/-- The global core identifier of a delta's originator. -/
def State.origin (s : State) (d : Delta) : Nat := if d.own then s.gcid d.core else d.core - Config.cores

/-- The local address that a target stands for, or its global one. -/
def Target.address (t : Target) : Nat :=
  match t with | .tcm _ off => off | .window _ w off => w * 2 ^ 24 + off | .page _ a => a.toNat | .mailbox _ => 0

/-- A word for the mailbox of the core that asked for it (R90, R299); discarded tells that its delta was discarded, which
its sender counts. A core of another device is answered over the fabric, in the lane of the delta's address (23 R395), with the
epoch of the delta's domain in the payload. See log 43. -/
def State.answer (s : State) (d : Delta) (word : Option W64) (discarded : Bool) : State :=
  if d.own then s.modCore d.core (fun co =>
    { (if discarded then co.diag 2 1 else co) with
      letters := co.letters ++ (word.map (fun w => ({ gcid := s.origin d, seq := d.seq, word := w } : Letter))).toList })
  else s.sendOut
    { dst := s.origin d / 8192, cls := 1, lane := reqLane d.target.address,
      words := [w64 (s.origin d), w64 d.seq, word.getD 0, w64 (b2n word.isSome + 2 * b2n discarded + 4 * d.epoch)] }

/-- A delta discarded at its home (R90, R298): counted for its sender; an ATOM that returns gets a zero word. -/
def State.discardDelta (s : State) (d : Delta) : State :=
  s.answer d (match d.kind with | .atom _ _ _ true => some 0 | _ => none) true

/-- A delta as its home keeps it among others: a shared one beside another line delta of its sender to that line. -/
def Delta.keptIn (d : Delta) (l : List Delta) : Delta :=
  { d with shared := d.shared && l.any (fun x => x.core == d.core && x.epoch == d.epoch && decide (x.target = d.target) && x.sameLine x.seq d.target) }

/-- A landed delta in its home's store, in the entry reserved for it. -/
def State.store (s : State) (d : Delta) : State :=
  match d.target with
  | .tcm c _ =>
    let s := s.modCluster (clusterOf c) (fun x => { x with reserved := x.reserved - 1 })
    if s.takes d c then s.modCluster (clusterOf c) (fun x => { x with deltas := x.deltas ++ [d] })
    else s.discardDelta d
  | .mailbox c =>
    if !s.takes d c then s.discardDelta d
    else match d.kind with
    | .msg ws => s.modCore c (fun co =>
        { co with letters := co.letters ++ ws.zipIdx.map (fun p => { gcid := s.origin d, seq := d.seq, sub := p.2, word := p.1 }) })
    | _ => s
  | .page v a =>
    match s.xlate v a .write with
    | .ok phys _ _ => s.modDie (homeDie phys) (fun x =>
      let d := d.keptIn x.deltas
      { (if d.shared then x else x.unreserve v) with deltas := x.deltas ++ [d] })
    | _ => s
  | t =>
    match t.cluster with
    | some k => s.modCluster k (fun x =>
      let d := d.keptIn x.deltas
      { x with reserved := if d.shared then x.reserved else x.reserved - 1, deltas := x.deltas ++ [d] })
    | none => s

/-- The die that a delta travels to. -/
def State.deltaDie (s : State) (d : Delta) : Nat :=
  match d.target with
  | .tcm c _ => dieOf c
  | .window k _ _ => k / 16
  | .mailbox c => dieOf c
  | .page v a => s.pageDie v (a.toNat / 2 ^ 16)

/-- A delta of this device crosses the edges to its die (23 R390); none while it must wait. -/
def State.crossDelta (s : State) (d : Delta) : Option State := s.cross (dieOf d.core) (s.deltaDie d)

/-- A delta reaches its home. See log 54. -/
def State.landDelta (s : State) (d : Delta) : State :=
  if !s.deltaLive d then s
  else
    let t := s.store d
    match t.deltaDomain d with
    | some k => t.modDomain k (fun m => { m with landed := m.landed + d.bytes })
    | none => t

/-- DELTA_ARRIVE (R34, R41): the lines that one operation sent under one sequence number reach their homes, once all of them
have crossed. -/
def State.deltaArrive (s : State) (c seq : Nat) : Option State :=
  let l := (s.core c).flight.filter (fun d => d.seq == seq)
  if l.isEmpty then none
  else
    (l.foldlM State.crossDelta (s.modCore c (fun co => { co with flight := co.flight.filter (fun x => x.seq != seq) }))).map (fun t =>
      let t := l.foldl State.landDelta t
      (t.nudge c).pend ((t.core c).copies.map (fun x => .copyVisible c x.id)))

/-- DELTA_ARRIVE (R34). -/
def execDeltaArrive (c seq : Nat) (s : State) : Host.Outcome State Fault Refusal := event "DELTA_ARRIVE" (s.deltaArrive c seq)

end Sys2Proof.Machine
end

