-- ==== Sys2Proof/Machine/PageFetch.lean ====
section
/-!
DEFINITION. Page-fetch lists: PFLIST (08 R201) and the steps of the copy unit that run their elements (04 R99-R103, 18
R337).
-/

namespace Sys2Proof.Machine

open Sys2Proof

/-- A window of a cluster in another STATE. -/
def State.winState (s : State) (k win v : Nat) : State := s.modCluster k (fun x => { x with wins := tmod x.wins win {} (fun e => e.setState v) })

/-- The first PFLIST of an attempt cancels the unfinished elements of chains that an abort left (R101). -/
def State.cancelChains (s : State) (c : Nat) : State :=
  if (s.core c).pflisted then s
  else (s.modTeam (teamOf c) (fun t => { t with chains := t.chains.filter (fun h => !(h.core == c && h.aborted)) })).modCore c
    (fun co => { co with pflisted := true })

/-- A chain put behind a team's others, its elements numbered; one that a core hands over joins the chain that the core has
handed over in the same attempt (R100). -/
def Team.addChain (t : Team) (h : Chain) : Team :=
  let elems := h.elems.zipIdx.map (fun p => { p.1 with id := t.elemNext + p.2 })
  let own := fun (x : Chain) => h.fresh && x.core == h.core && x.fresh && !x.aborted
  { t with chains := if t.chains.any own then t.chains.map (fun x => if own x then { x with elems := x.elems ++ elems } else x)
             else t.chains ++ [{ h with elems := elems }]
           elemNext := t.elemNext + h.elems.length }

/-- A chain handed over (R100): every window its elements name becomes absent. -/
def State.handOver (s : State) (c : Nat) (elems : List Elem) : State :=
  let s := elems.foldl (fun s e => if e.words.isEmpty || e.dwin == 0 then s else s.winState (clusterOf c) e.dwin 1) s
  (s.modTeam (teamOf c) (fun t => t.addChain { core := c, vf := s.tenantOf c, elems := elems })).pend [.pfeRun (teamOf c)]

/-- PFLIST (R201). See log 18. -/
def execPflist (a : BitVec 6) (s : State) : Host.Outcome State Fault Refusal :=
  run (.pflist a) false (!xOnly a) (do
    let p := s.xval a
    if bf p 0 5 ≠ 0 ∧ !s.issue.ign.contains 5 then trapWith 5 p
    else if bf p 0 5 ≠ 0 then pure ()
    else if bf p 55 9 ≠ 0 then (if s.issue.ign.contains 6 then pure () else trapWith 6 p)
    else do
    passPoint true
    if p = 0 then set (s.cancelChains s.issue.core)
    else
      match s.walkChain s.issue.core (s.tenantOf s.issue.core) p.toNat 65536 with
      | .error l => stallFor l
      | .ok [] => set ((s.cancelChains s.issue.core).handOver s.issue.core [{ addr := p }])
      | .ok l => set (((s.lookups s.issue.core (s.tenantOf s.issue.core) (l.map (fun e => e.addr.toNat))).cancelChains s.issue.core).handOver
          s.issue.core l)) s

/-- An element of a team's chains, by its number, changed; a chain whose elements have all landed is finished. -/
def Team.modElem (t : Team) (id : Nat) (f : Elem → Elem) : Team :=
  let l := t.chains.map (fun h => { h with elems := h.elems.map (fun e => if e.id == id then f e else e) })
  { t with chains := l.filter (fun h => h.dead || h.elems.any (fun e => !e.landed)) }

/-- Where a stage byte of a window lies in the scratchpad. -/
def Win.padOff (w : Win) (off : Nat) : Nat := (64 * w.base + off % 2 ^ w.lsize) % Config.padBytes

/-- The rows of an element written, from committed memory or, with zero set, as zeros. -/
def State.fillRows (s : State) (ch : Chain) (e : Elem) (zero : Bool) : State :=
  let k := clusterOf ch.core
  let w := tget (s.cluster k).wins e.dwin {}
  if w.lsize = 0 ∨ e.dwin = 0 then s
  else (List.range e.rows).foldl (fun s j => (List.range (e.rowLen / 8)).foldl (fun s i =>
    let r : Nat × State := if zero then (0, s) else
      let a := w64 (e.src + j * e.stride + 8 * i)
      match s.xlate ch.vf a .read with
      | .ok phys _ _ => let t := (s.lookup ch.core ch.vf a false).scrubLine phys; (t.greadAt phys 8, t)
      | _ => (0, s)
    r.2.modCluster k (fun x => x.putPads (w.padOff (e.doff + j * e.rowLen + 8 * i)) 8 r.1)) s) s

/-- Every element of the pending chains of a cluster that names a window has landed (R100). -/
def State.allLanded (s : State) (k win : Nat) : Bool :=
  (List.range 16).all (fun i => (s.team (k * 16 + i)).chains.all (fun h => h.elems.all (fun e => e.landed || e.dwin != win)))

/-- An element lands (R100): the device keeps which lines it read (R102), and its window may become present. -/
def State.landElem (s : State) (t : Nat) (ch : Chain) (e : Elem) : State :=
  let k := clusterOf ch.core
  let s := s.modTeam t (fun x => x.modElem e.id (fun y => { y with started := true, landed := true }))
  let s := s.modCluster k (fun x => { x with staged := x.staged ++ [{ core := ch.core, vf := ch.vf, elem := e }] })
  if e.dwin ≠ 0 ∧ s.allLanded k e.dwin then s.winState k e.dwin 0 else s

/-- The containment group of a page-fetch fault (R103): format 0, translation 1, poison 3. -/
def elemGroup (cause : Nat) : Nat := if cause = 1 then 0 else groupOf cause true

/-- A chain that a fault stops: the windows of its elements that have not landed stay, or become again, absent (R103). -/
def State.killChain (s : State) (t : Nat) (ch : Chain) (e : Elem) : State :=
  let s := s.modTeam t (fun x => { x with chains := x.chains.map (fun h => if h.elems.any (fun y => y.id == e.id) then { h with dead := true } else h) })
  (ch.elems.filter (fun y => !y.landed && y.dwin != 0 && !y.words.isEmpty)).foldl (fun s y =>
    let w := tget (s.cluster (clusterOf ch.core)).wins y.dwin {}
    if w.state = 2 then s.winState (clusterOf ch.core) y.dwin 1 else s) s

/-- PFE_FAULT (R103): containment at core level of the core that handed the chain over; under ignore the rows are zeros
and the element counts as landed, else the chain runs no further. -/
def State.pfeFault (s : State) (t : Nat) (ch : Chain) (e : Elem) (cause : Nat) (addr : W64) : State :=
  let r := s.contain 1 ch.core none 0 (elemGroup cause) (sourceOf cause addr) (logKind cause) (logAddr cause addr)
  let s := r.1.modTeam t (fun x => { x with promoted := if x.promoted = some e.id then none else x.promoted })
  if r.2 then ((s.fillRows ch e true).landElem t ch e).pend [.pfeRun t] else s.killChain t ch e

/-- PFE_RUN (R100, R337): the copy unit starts its next element. -/
def State.pfeRun (s : State) (t : Nat) : Option State :=
  match (s.team t).nextElem with
  | none => none
  | some (ch, e) =>
    if (s.team t).lastWasElem && (s.team t).promoted != some e.id && s.copyReady t then none
    else match s.elemCheck ch e with
      | .wait _ => none
      | .fault k a => some (((s.elemLooks ch e k).modTeam t (fun x => { x with lastWasElem := true })).pfeFault t ch e k a)
      | _ =>
        let s := (s.elemLooks ch e 0).modTeam t (fun x =>
          { x.modElem e.id (fun y => { y with started := true }) with lastWasElem := true, promoted := if x.promoted = some e.id then none else x.promoted })
        some ((s.winState (clusterOf ch.core) e.dwin 2).pend [.pfeLand t, .pfeRun t])

/-- PFE_RUN (R100). -/
def execPfeRun (t : Nat) (s : State) : Host.Outcome State Fault Refusal := event "PFE_RUN" (s.pfeRun t)

/-- The element that a team has started and not landed. -/
def Team.running (t : Team) : Option (Chain × Elem) :=
  ((t.chains.filter (fun c => !c.dead)).flatMap (fun c => (c.elems.filter (fun e => e.started && !e.landed)).map (fun e => (c, e)))).head?

/-- PFE_LAND (R100, R74): the rows are written and the element lands; the 65,536th element of a chain that goes on is a
fault of its own after it has run (R100, R103). -/
def State.pfeLand (s : State) (t : Nat) : Option State :=
  match (s.team t).running with
  | none => none
  | some (ch, e) =>
    match s.elemCheck ch e with
    | .wait _ => none
    | .fault k a => some ((s.elemLooks ch e k).pfeFault t ch e k a)
    | r =>
      let s := s.elemLooks ch e 0
      let s := if r = .skipped then s else s.fillRows ch e false
      let s := s.landElem t ch { e with skipped := decide (r = .skipped) }
      let s := if e.last ∧ e.next ≠ 0 then
          (let x := s.contain 1 ch.core none 0 0 0 3 0
           if x.2 then x.1 else x.1.killChain t ch e)
        else s
      some (s.pend [.pfeRun t])

/-- PFE_LAND (R100). -/
def execPfeLand (t : Nat) (s : State) : Host.Outcome State Fault Refusal := event "PFE_LAND" (s.pfeLand t)

/-- A first touch of an absent window chooses its team's next element (R74). -/
def State.pfePromote (s : State) (t id : Nat) : State :=
  if (s.team t).chains.any (fun h => h.elems.any (fun e => e.id == id && !e.started)) then
    (s.modTeam t (fun x => { x with promoted := some id })).pend [.pfeRun t]
  else s

end Sys2Proof.Machine
end

