-- ==== Sys2Proof/Machine/Decide.lean ====
section
/-!
DEFINITION. What a decision brings (02 R37-R46): the commit steps of cores, clusters and dies, the restore steps, DONE,
RESUME, and the end of a launch.
-/

namespace Sys2Proof.Machine

open Sys2Proof

/-! ### The retained image (R43) -/

/-- A walker as the retained image has it: no element fetched ahead or held (08 R193). -/
def Walker.kept (w : Walker) : Walker := { w with fetched := 0, held := [] }
/-- A context as the retained image has it: queues empty (07 R161), nothing delivered, no row. So the result that a BAR of slot 0 has
pushed to lq is not in it, and is lost at an abort: a DESIGN CHOICE of the model, since R43 does not say. See log 24. -/
def Ctx.kept (c : Ctx) : Ctx :=
  { c with await := .running, ah := [], eh := [], lq := [], sq := [], xq := [], bq := [], hfirst := none, himm := [], hmod := [], shadow := none,
           row := none, rowEnded := false, barSlot := none, skip := 0, stores := [], point := {}, lent := 0, loaded := [], sc := none, scPass := none, walkers := c.walkers.map (fun p => (p.1, p.2.kept)) }
/-- The image of a core. -/
def Core.image (c : Core) : Keep :=
  { ctxs := c.ctxs.map (fun p => (p.1, p.2.kept)), rings := c.rings, views := c.views, dealt := c.dealt, started := c.started, mail := c.mail }
/-- The image renewed with the core's present state. -/
def Core.retain (c : Core) : Core := { c with keep := c.image }

/-- What restarts with each attempt: sequence numbers, identifiers, requests and pending bytes (R89, R92, 11 R267). -/
def Core.newAttempt (c : Core) : Core :=
  { c with seq := 0, sent := 0, stepReq := 0, copyNext := 0, jobNext := 0, bankNext := 0, copies := [], ranges := [], banks := [], recs := [], group := none,
           flight := [], gstores := [], retired := [], pflisted := false, voted := false, mailRes := 0, letters := [], undo := [], undoRes := [], badLog := [], markedLog := [] }

/-- The records of commands outstanding at an abort: cancelled (R265, R267). -/
def JobRec.cancel (r : JobRec) : JobRec := if r.state = 3 then r else { r with state := 3, status := 10 }
def Bank.cancel (b : Bank) : Bank := if b.state = 3 then { b with out := [] } else { b with state := 3, status := 10 }

/-! ### Commit steps of a core (R39 steps 1, 4 and 5) -/

/-- A member core commits: the undo log empties, scratch bytes become unknown, its contexts pass their BAR, its channels are empty
(R15), and the retained image is renewed. -/
def State.commitCore (s : State) (x : Decision) (c : Nat) : State :=
  s.modCore c (fun co =>
    let co := { (co.emptyChannels.modGeneral (fun k => k.pass x 0)) with undo := [], undoRes := [], badLog := [], markedLog := [], scratch := [], gen := co.gen + 1, phase := .commit }
    co.retain)

/-! ### Deltas applied at a home (R90) -/

/-- A delta comes before another: by originator and sequence number. -/
def State.deltaLe (s : State) (a b : Delta) : Bool := decide (s.origin a < s.origin b) || (s.origin a == s.origin b && decide (a.seq ≤ b.seq))
/-- A delta put in its place among sorted ones. -/
def insertDelta (le : Delta → Delta → Bool) (d : Delta) (l : List Delta) : List Delta :=
  match l with
  | [] => [d]
  | x :: r => if le x d then x :: insertDelta le d r else d :: x :: r
/-- Deltas in application order; equal keys keep their order. -/
def sortDeltas (le : Delta → Delta → Bool) (l : List Delta) : List Delta := l.foldl (fun a d => insertDelta le d a) []

/-- The old value of an ATOM delivered to its requester's mailbox (R90, R299). -/
def State.deliverOld (s : State) (d : Delta) (n old : Nat) : State :=
  s.answer d (some (sext (8 * n) old)) false

/-- The bytes of a line delta written through a byte writer from the line's address. -/
def lineBytes (data : BitVec 512) (mask : BitVec 64) (put : State → Nat → Byte → State) (s : State) : State :=
  (List.range 64).foldl (fun s i => if bit mask i then put s i (byteOf data.toNat i) else s) s

/-- A delta applied to n-byte memory read and written by offset from the target's address. -/
def State.applyTo (s : State) (d : Delta) (get : State → Nat → Byte) (put : State → Nat → Byte → State) : State :=
  match d.kind with
  | .line data mask => lineBytes data mask put s
  | .atom op n v ret =>
    let old := gather (get s) 0 n
    let s := match atomOp op (8 * n) old v.toNat 0 with
      | some new => (List.range n).foldl (fun s i => put s i (byteOf new i)) s
      | none => s
    if ret then s.deliverOld d n old else s
  | .msg _ => s

/-- The 8-byte words that a line delta to an offset writes in full, as the words they leave with an error (25 R413). -/
def Delta.heals (d : Delta) (bad : List Nat) (off : Nat) : List Nat :=
  match d.kind with
  | .line _ mask => bad.filter (fun w => !(List.range 8).any (fun j => off + 8 * j == 8 * w && bf mask (8 * j) 8 == 255))
  | _ => bad
/-- The marked bytes that a delta to an offset leaves. -/
def Delta.unmarks (d : Delta) (marked : List Nat) (off : Nat) : List Nat :=
  match d.kind with
  | .line _ mask => marked.filter (fun a => !(decide (off ≤ a) && decide (a < off + 64) && bit mask (a - off)))
  | _ => marked

/-- A byte of a cluster's scratchpad written. -/
def Cluster.putPad (k : Cluster) (a : Nat) (b : Byte) : Cluster := { k with pad := tput k.pad (a % Config.padBytes) b }

/-- A delta of a version pool applied: TCM bytes, or window bytes resolved now (R90). -/
def State.applyLocal (s : State) (d : Delta) : State :=
  match d.target with
  | .tcm c off =>
    if inScratch (s.core c).tcmcfg off then s.discardDelta d
    else (s.modCore c (fun co => { co with bad := d.heals co.bad off, marked := d.unmarks co.marked off })).applyTo d (fun s i => (s.core c).tcmByte c ((off + i) % 65536)) (fun s i b => s.modCore c (fun co => { co with tcm := tset co.tcm ((off + i) % 65536) b 0 }))
  | .window k win off =>
    let e := tget (s.cluster k).wins win {}
    if e.lsize = 0 ∨ e.cls ≠ 1 then s.discardDelta d
    else
      let at_ := fun i => 64 * e.base + (off + i) % 2 ^ e.lsize
      (s.modCluster k (fun x => { x with bad := d.heals x.bad (at_ 0), marked := d.unmarks x.marked (at_ 0) })).applyTo d (fun s i => (s.cluster k).padByte k (at_ i % Config.padBytes)) (fun s i b => s.modCluster k (fun x => x.putPad (at_ i) b))
  | _ => s

/-- A delta of a delta store applied to its page (R88, R90); its line counts as changed (R102). -/
def State.applyPage (s : State) (dom : Nat) (d : Delta) : State :=
  match d.target with
  | .page v a =>
    match s.xlate v a .write with
    | .ok phys _ _ =>
      let s := s.scrubLine phys
      let s := s.applyTo d (fun s i => s.hbyte (phys + i)) (fun s i b => (s.hputb (phys + i) b).notePoison (phys + i) 1 1)
      s.modDomain dom (fun m => { m with changed := a.toNat / 64 :: m.changed })
    | _ => s.discardDelta d
  | _ => s

/-! ### Commit steps of a cluster (R39 steps 1 to 3 and 6) -/

/-- A pending WINSET comes before another: by core, then in issue order (R79). -/
def insertWinSet (x : WinSet) (l : List WinSet) : List WinSet :=
  match l with
  | [] => [x]
  | y :: r => if y.core < x.core ∨ (y.core = x.core ∧ y.order ≤ x.order) then y :: insertWinSet x r else x :: y :: r

/-- The bytes of the configured windows of some classes, each as a start and a length. -/
def Cluster.windowRanges (k : Cluster) (p : Nat → Bool) : List (Nat × Nat) :=
  (k.wins.filter (fun x => x.2.lsize != 0 && p x.2.cls)).map (fun x => (64 * x.2.base % Config.padBytes, 2 ^ x.2.lsize))

/-- The scratch bytes of a cluster become unknown at a boundary (R81); bytes that a versioned or stage window names too
keep what they hold (R78). -/
def Cluster.dropScratch (k : Cluster) : Cluster :=
  let r : Lost := { gen := k.gen + 1, ranges := k.windowRanges (fun c => c == 0), kept := k.windowRanges (fun c => c != 0) }
  { k with pad := k.pad.filter (fun b => !(inRanges r.ranges b.1 && !inRanges r.kept b.1)), gen := k.gen + 1,
           lost := if r.ranges.isEmpty then k.lost else r :: k.lost }

/-- An engine without the jobs of some cores; a class that this empties has no deficit (R276). -/
def Team.without (mine : Nat → Bool) (t : Team) : Team :=
  let queue := t.queue.filter (fun j => !mine j.core)
  { t with queue := queue, jobs := t.jobs.filter (fun j => !mine j.core), deficit := t.deficit.filter (fun p => queue.any (fun j => j.cls == p.1)) }

/-- A team at a commit: buffers zero, groups closed, streams and subscriptions ended; its tile's source is retained
(R39, R271, R281); jobs of other domains' cores stay. -/
def Team.commit (mine : Nat → Bool) (t : Team) : Team :=
  { t.without mine with
      buf0 := {}, buf1 := {}, subs := [], chainRows := [], keepSource := t.source,
      chains := t.chains.map (fun h => { h with fresh := false, aborted := false }) }

/-- A core belongs to the domain that runs on a cluster, or to none. -/
def State.sharesDomain (s : State) (k c : Nat) : Bool :=
  let on := (List.range 128).findSome? (fun i => (s.core (128 * k + i)).domain)
  (s.core c).domain.isNone || (s.core c).domain == on

/-- The teams of a cluster changed. -/
def State.modTeams (s : State) (k : Nat) (f : Team → Team) : State := (List.range 16).foldl (fun s i => s.modTeam (16 * k + i) f) s

/-- A cluster's version pool commits: logged lines are released, deltas applied, pending WINSETs take effect, scratch
becomes unknown, the window table is retained. -/
def State.commitCluster (s : State) (k : Nat) : State :=
  let deltas := sortDeltas s.deltaLe (s.cluster k).deltas
  let s := s.modCluster k (fun x => { x with logged := [], badLog := [], markedLog := [], deltas := [] })
  let s := deltas.foldl State.applyLocal s
  let s := s.modCluster k (fun x =>
    let sets := x.pending.foldl (fun l w => insertWinSet w l) []
    let x := x.dropScratch
    let wins := sets.foldl (fun t w => tput t w.win w.entry) x.wins
    { x with wins := wins, keepWins := wins, pending := [], pendCount := 0, instant := [], reserved := 0, streams := [], chain := 1, chainNext := none })
  s.modTeams k (Team.commit (s.sharesDomain k))

/-! ### Commit steps of a die (R39 steps 1 and 2, R87) -/

/-- A line of HBM copied with its poison mark. -/
def State.copyLine (s : State) (src dst : Nat) : State :=
  ((s.scrubLine src).hwrite dst 64 ((s.scrubLine src).hread src 64)).copyPoison (src / 64) (dst / 64)

/-- The commit merge of one SHADOW or BANKMAT page (R87). -/
def State.mergeShadow (s : State) (dom : Nat) (sh : ShadowPage) : State :=
  let e := tget (s.vf sh.vf).pages sh.page 0
  let orig := pteFrame e % 2 ^ 24 * 65536
  let base := sh.frame * 65536
  let s := s.modDomain dom (fun m => { m with changed := sh.lines.map (fun i => sh.page * 1024 + i) ++ m.changed })
  if 512 ≤ sh.lines.length then
    let s := (List.range 1024).foldl (fun s i => if sh.lines.contains i then s else s.copyLine (orig + 64 * i) (base + 64 * i)) s
    let s := s.modVf sh.vf (fun t => { t with pages := tput t.pages sh.page (bput e 34 30 sh.frame) })
    let s := s.modPlat (fun p => { p with frames := tput p.frames sh.frame { vf := sh.vf, page := sh.page } })
    (s.dropFrame (orig / 65536)).dropCaches (fun y => y.vf == sh.vf && y.page == sh.page)
  else
    let s := sh.lines.foldl (fun s i => (s.scrubLine (orig + 64 * i)).copyLine (base + 64 * i) (orig + 64 * i)) s
    s.dropFrame sh.frame

/-- A tenant's shadow pages whose original has its home on a die. -/
def State.shadowsOf (s : State) (v d : Nat) : List ShadowPage := s.plat.shadows.filter (fun x => x.vf == v && s.pageDie v x.page == d)

/-- A die's homes commit: SHADOW pages merge, then the delta store's deltas are applied. -/
def State.commitDie (s : State) (dom d : Nat) : State :=
  let v := (s.domain dom).vf
  let mine := s.shadowsOf v d
  let s := mine.foldl (fun s x => s.mergeShadow dom x) s
  let s := s.modPlat (fun p => { p with shadows := p.shadows.filter (fun x => !mine.contains x) })
  let here := fun (x : Delta) => match x.target with | .page w _ => w == v | _ => false
  let deltas := sortDeltas s.deltaLe ((s.die d).deltas.filter here)
  let s := s.modDie d (fun x => { x with deltas := x.deltas.filter (fun y => !here y), reserved := tdel x.reserved v })
  deltas.foldl (fun s x => s.applyPage dom x) s

/-- Pages that deltas of a die's store go to and that are not at tier 0. -/
def State.deltaWaits (s : State) (d v : Nat) : List Chore :=
  (s.die d).deltas.filterMap (fun x => match x.target with
    | .page w a => if w = v ∧ s.xlate w a .write = .wait then some (.pageBringUp w (a.toNat / 65536)) else none
    | _ => none)

/-- A party has done its steps; the last of them lets the root see DONE. -/
def State.reportDone (s : State) (d : Nat) (who : Party) : State :=
  let s := s.modDomain d (fun m => { m with done := m.done ++ [who] })
  let m := s.domain d
  if m.parties.all (fun p => m.done.contains p) then s.pend [.donePennant d] else s

/-- DECIDE_COMMIT (R39): a member or home performs its steps and sends DONE. -/
def State.decideCommit (s : State) (d : Nat) (who : Party) : Option State :=
  let m := s.domain d
  match m.decision with
  | none => none
  | some x =>
    if x.dec = 2 ∨ m.done.contains who ∨ !m.parties.contains who then none
    else match who with
      | .core c => if (s.core c).phase ≠ .arrived then none else some ((s.commitCore x c).reportDone d who)
      | .cluster k => some ((s.commitCluster k).reportDone d who)
      | .die k => if (s.deltaWaits k m.vf).isEmpty then some ((s.commitDie d k).reportDone d who) else none

/-- DECIDE_COMMIT (R39). -/
def execDecideCommit (d : Nat) (who : Party) (s : State) : Host.Outcome State Fault Refusal := event "DECIDE_COMMIT" (s.decideCommit d who)

/-! ### Restore steps (R42) -/

/-- The stores that a core has issued and that are not performed are performed (05 R116): its local ones but for deltas, which
the attempt loses, and its global ones. -/
def State.settleStores (s : State) (c : Nat) : State :=
  let local_ := (s.core c).ctxs.flatMap (fun p => p.2.unwritten)
  let s := local_.foldl (fun s h => if h.loc.isDelta c then s else s.writeHeld c h) s
  (s.core c).gstores.foldl (fun s g => if g.load then s else s.performGlobal (s.tenantOf c) g.addr g.size (g.data.toNat % 2 ^ (8 * g.size)) (2 ^ g.size - 1)) s

/-- The result words that finished near-bank commands of a core have left are written. -/
def State.settleResults (s : State) (c : Nat) : State :=
  (s.core c).banks.foldl (fun s b =>
    b.out.zipIdx.foldl (fun s p =>
      match s.writeResults { core := c, cluster := clusterOf c } b [(p.1, b.nvec * b.m / 2 - b.out.length + p.2)] with
      | .ok t => t
      | .error _ => s) s) s

/-- Commands outstanding at an abort are cancelled, or have run to completion: a free value says which. Stores already
issued are performed. See log 20. -/
def State.settleCommands (s : State) (c : Nat) : State :=
  let s := ((s.settleStores c).modCore c (fun co =>
    { co with banks := co.banks.map (fun b => if b.state = 3 ∧ b.out.isEmpty then b else { b with status := 10 }) })).settleResults c
  let s := (s.core c).copies.foldl (fun s x =>
    if Config.abortedCompletes s.fresh then
      match s.runCopy c x.id with
      | some (_, .done t) => { t with fresh := t.fresh + 1 }
      | _ => { s with fresh := s.fresh + 1 }
    else { s with fresh := s.fresh + 1 }) s
  (s.core c).banks.foldl (fun s b =>
    if b.state = 3 then s
    else if Config.abortedCompletes s.fresh then
      match s.bankRun c b.id with
      | .ok t => { (t.settleResults c).modCore c (fun co => { co with banks := co.banks.map (fun y => if y.id = b.id then { y with status := 10 } else y) }) with fresh := t.fresh + 1 }
      | .error _ => { s with fresh := s.fresh + 1 }
    else { s with fresh := s.fresh + 1 }) s

/-- A context restored: the image, with what an abort keeps and, where there is a decision, what it updates (R44).
See log 24. -/
def Ctx.restored (now image : Ctx) (x : Option Decision) : Ctx :=
  let c := { image with attached := now.attached, errinj := now.errinj, upset := now.upset, bstrag := now.bstrag, bstat := now.bstat, barres := now.barres }
  match x with
  | some x => c.note x 0
  | none => c

/-- The words with an error once logged lines have been put back: those of the logged image in them, and those outside (25 R413). -/
def badBack (bad badLog : List Nat) (lines : List (Nat × BitVec 512)) : List Nat := bad.filter (fun w => !inLines lines w) ++ badLog
/-- The marked bytes then: an abort takes the marks of working images away (R52). -/
def markBack (marked markedLog : List Nat) (lines : List (Nat × BitVec 512)) : List Nat :=
  marked.filter (fun a => !lines.any (fun l => l.1 == a / 64)) ++ markedLog

/-- TCM lines put back from the undo log, in reverse order of logging. -/
def Core.undoAll (c : Core) : Core :=
  { c with bad := badBack c.bad c.badLog c.undo, marked := markBack c.marked c.markedLog c.undo } |> fun c => c.undo.foldl (fun c l => (List.range 64).foldl (fun c i => { c with tcm := tset c.tcm (64 * l.1 + i) (byteOf l.2.toNat i) 0 }) c) c

/-- A core restored from its image; the records of its commands stay until RESUME begins the next attempt. -/
def Core.restore (c : Core) (x : Option Decision) : Core :=
  let k := c.keep
  let now := c.ctxs
  { c.undoAll.emptyChannels.newAttempt with
    recs := c.recs.map (fun p => (p.1, p.2.cancel)), banks := c.banks.map Bank.cancel, early := none
    ctxs := (List.range 5).filterMap (fun i =>
      if (tfind k.ctxs i).isNone && (tfind now i).isNone then none
      else some (i, Ctx.restored (tget now i {}) (tget k.ctxs i {}) x))
    rings := k.rings, views := k.views, dealt := k.dealt, started := k.started, mail := k.mail, phase := .restore }

/-- A member core's part of an abort; its jobs leave the engines. See log 20. -/
def State.abortCore (s : State) (x : Option Decision) (c : Nat) : State :=
  let s := (s.settleCommands c).modCore c (fun co => co.restore x)
  { s with teams := s.teams.map (fun p => (p.1, p.2.without (fun q => q == c))) }

/-- A chain at an abort: it stays pending (R101), and one that a fault had stopped is tried again (R103). See log 18. -/
def Chain.abort (h : Chain) : Chain :=
  { h with aborted := h.aborted || h.fresh, dead := false, elems := if h.dead then h.elems.map (fun e => { e with started := e.landed }) else h.elems }

/-- A team at an abort: accumulators zero, the tile invalid, its recorded source as retained (R42, R271); chains stay pending (R101). -/
def Team.abort (mine : Nat → Bool) (t : Team) : Team :=
  { t.without mine with
      buf0 := {}, buf1 := {}, subs := [], chainRows := [], tile := none, source := t.keepSource,
      chains := t.chains.map Chain.abort }

/-- The window table as retained, with STATE as it is now (R79). -/
def Cluster.restoreWins (k : Cluster) : Cluster :=
  let keys := k.keepWins.map (fun p => p.1) ++ k.wins.map (fun p => p.1)
  { k with wins := keys.foldl (fun t i => tput t i ((tget k.keepWins i {}).setState (tget k.wins i {}).state)) [] }

/-- A cluster's part of an abort: logged lines are copied back, deltas and pending WINSETs discarded. -/
def State.abortCluster (s : State) (k : Nat) : State :=
  let s := s.modCluster k (fun x =>
    let x := x.logged.foldl (fun x l => (List.range 64).foldl (fun x i => x.putPad (64 * l.1 + i) (byteOf l.2.toNat i)) x) x
    { x.restoreWins with logged := [], bad := badBack x.bad x.badLog x.logged, badLog := [], marked := markBack x.marked x.markedLog x.logged, markedLog := [], deltas := [], pending := [], pendCount := 0, instant := [], reserved := 0, streams := [], chain := 1, chainNext := none })
  (s.modTeams k (Team.abort (s.sharesDomain k))).pend ((List.range 16).map (fun i => .pfeRun (k * 16 + i)))

/-- A die's part of an abort: the tenant's shadow pages and deltas are discarded. -/
def State.abortDie (s : State) (dom d : Nat) : State :=
  let v := (s.domain dom).vf
  let mine := s.shadowsOf v d
  let s := mine.foldl (fun s x => s.dropFrame x.frame) s
  let s := s.modPlat (fun p => { p with shadows := p.shadows.filter (fun x => !mine.contains x) })
  s.modDie d (fun x => { x with deltas := x.deltas.filter (fun y => match y.target with | .page w _ => w != v | _ => true), reserved := tdel x.reserved v })

/-- The states in which a core takes a falling ABORT (R27). -/
def Core.takesAbort (c : Core) : Bool := c.phase == .run || c.phase == .gather || c.phase == .drain || c.phase == .arrived || c.phase == .park

/-- DECIDE_ABORT (R42): a member or home restores and sends DONE; homes follow the cores whose writes they discard. -/
def State.decideAbort (s : State) (d : Nat) (who : Party) : Option State :=
  let m := s.domain d
  match m.decision with
  | none => none
  | some x =>
    if x.dec ≠ 2 ∨ m.done.contains who ∨ !m.parties.contains who then none
    else match who with
      | .core c => if (s.core c).takesAbort then some ((s.abortCore (some x) c).reportDone d who) else none
      | .cluster k => if m.members.all (fun c => m.done.contains (.core c)) then some ((s.abortCluster k).reportDone d who) else none
      | .die k => if m.members.all (fun c => m.done.contains (.core c)) then some ((s.abortDie d k).reportDone d who) else none

/-- DECIDE_ABORT (R42). -/
def execDecideAbort (d : Nat) (who : Party) (s : State) : Host.Outcome State Fault Refusal := event "DECIDE_ABORT" (s.decideAbort d who)

/-! ### DONE: the rest of a commit (R37-R39) -/

/-- Letters in delivery order (R299). -/
def insertLetter (x : Letter) (l : List Letter) : List Letter :=
  match l with
  | [] => [x]
  | y :: r => if y.gcid < x.gcid ∨ (y.gcid = x.gcid ∧ (y.seq < x.seq ∨ (y.seq = x.seq ∧ y.sub ≤ x.sub))) then y :: insertLetter x r else x :: y :: r

/-- A core's mailbox takes what was delivered (R299); the retained image too. -/
def Core.deliverMail (c : Core) : Core :=
  let mail := c.mail ++ (c.letters.foldl (fun l x => insertLetter x l) []).map (fun x => x.word)
  { c with mail := mail, keep := { c.keep with mail := mail } }

/-- The free member cores (R66). DESIGN CHOICE: a gang holds a core until that core's own general contexts are all inactive. See
log 5. -/
def State.freeMembers (s : State) (m : Domain) : List Nat := m.members.filter (fun c => (s.core c).general.isEmpty)

/-- A gang's groups start, each on context 0 of its cores, in the retained image too (R62, R66). -/
def State.startGang (s : State) (l : List (GangGroup × List Nat)) : State :=
  l.foldl (fun s g => g.2.foldl (fun s c => (s.startLaunched c g.1.pc g.1.arg).modCore c Core.retain) s) s

/-- Gangs that wait, then those submitted in the superstep, are placed in order; those that do not fit wait (R66). DESIGN CHOICE:
those of one commit are taken in the order they were submitted. See log 5. -/
def State.placeGangs (s : State) (d : Nat) : State :=
  let m := s.domain d
  let s := s.modDomain d (fun m => { m with gangs := [], waitingGangs := [] })
  (m.waitingGangs ++ m.gangs).foldl (fun s g =>
    match placeGroups (s.freeMembers m) g.groups with
    | some l => s.startGang l
    | none => s.modDomain d (fun m => { m with waitingGangs := m.waitingGangs ++ [g] })) s

/-- The lines that an element has read, which the device records (R102): its predicate word's when it has one and, unless the
predicate made it copy nothing, its source lines. -/
def Elem.recorded (e : Elem) : List Nat :=
  ((if e.skipped then [] else e.lines) ++ (if e.skip then [e.pred] else [])).map (fun a => a / 64)

/-- Stage windows whose source lines the commit has changed are stale, and their elements run again (R102). -/
def State.markStale (s : State) (d k : Nat) : State :=
  let m := s.domain d
  let stale := (s.cluster k).staged.filter (fun x => x.vf == m.vf && x.elem.recorded.any (fun l => m.changed.contains l))
  let s := stale.foldl (fun s x => if x.elem.dwin = 0 then s else s.winState k x.elem.dwin 3) s
  let s := stale.foldl (fun s x => (s.modTeam (teamOf x.core) (fun t => t.addChain
    { core := x.core, vf := x.vf, fresh := false, elems := [{ x.elem with started := false, landed := false, skipped := false, last := false }] })).pend
      [.pfeRun (teamOf x.core)]) s
  s.modCluster k (fun x => { x with staged := [] })

/-- No member has an active general context, on this device or on another: the commit is the closing one (R30). See log 5. -/
def State.closing (s : State) (m : Domain) : Bool :=
  m.members.all (fun c => (s.core c).general.isEmpty) && (decide (m.devices.length ≤ 1) || Config.farRetired m.id m.ssn)

/-- The DONE of another device is still out (R37): the root waits for every present device's. -/
def State.awaitsDevices (s : State) (d : Nat) : Bool :=
  (s.parentDev d).isNone && (s.participants d).any (fun v => v != s.plat.devNo.toNat && !(s.domain d).doneDevs.contains v)

/-- The commit's steps that need every home's: STEP and SSN, mail, gangs, pushed records, stale stage windows. DESIGN CHOICE:
records pushed from several cores are posted in the order of their pushes (R67). See log 5. -/
def State.finishCommit (s : State) (d : Nat) (x : Decision) : State :=
  let m := s.domain d
  let s := s.modDomain d (fun m =>
    { m with step := m.step + x.stepinc, ssn := m.ssn + 1, consec := 0, att := 0, pseqs := [], landed := 0, given := 0, insts := [] })
  let s := m.members.foldl (fun s c => s.modCore c (fun co => co.deliverMail.newAttempt)) s
  let s := s.placeGangs d
  let s := m.pushes.foldl (fun s p => s.postPushed m.vf p.2) s
  let s := m.clusters.foldl (fun s k => s.markStale d k) s
  s.modDomain d (fun m => { m with pushes := [], changed := [], decision := none, done := [], yieldReq := if x.dec = 1 then false else m.yieldReq })

/-! ### DONE: the rest of an abort (R42, R45) -/

/-- What an escalated abort does: go on, or end the launch with a status; none warm-resets the device (R45). -/
def escalation (ppol : BitVec 48) (sysPol : BitVec 16) (g : Nat) : Option (Option Nat) :=
  match bf ppol (32 + 2 * g) 2 with
  | 0 => some none
  | 3 =>
    match bf sysPol (2 * g) 2 with
    | 0 => some none
    | 1 => some (some 1)
    | 2 => some (some 7)
    | _ => none
  | _ => some (some 1)

/-- The group shrink of a membership change (23 R401, R402): the tree and the indices over the present devices, and the
operations that restart, whose posts go out again with the new epoch; the epoch has advanced with the decision. See log 44. -/
def State.shrink (s : State) (d : Nat) : State :=
  let s := s.indexMembers d
  let s := (List.range Config.dies).foldl (fun s k => s.modDie k (fun x =>
    { x with colls := x.colls.map (fun o => if o.2.dom = d then (o.1, { o.2 with ticks := 0 }) else o),
             ceRestart := satAdd x.ceRestart ((x.colls.filter (fun o => o.2.dom == d && o.2.started)).length) })) s
  let ours := s.dies.flatMap (fun p => (p.2.colls.filter (fun o => o.2.dom == d)).map (fun o => o.2))
  let s := ours.foldl (fun s o => s.sendPosts o (if o.started then o.own else [])) s
  s.pend (s.collChores d)

/-- The abort's counters, of 8 bits each but for TOTAL (R26, R42), and what R45 or containment makes of the launch. That the PSEQ
counters return to 0 at an abort too, as R39 has them at a commit, is a DESIGN CHOICE of the model. See logs 24 and 59. -/
def State.finishAbort (s : State) (d : Nat) (x : Decision) : State :=
  let m := s.domain d
  let s := s.modDomain d (fun m =>
    { m with total := m.total + 1, consec := if x.acause = 9 then m.consec else (m.consec + 1) % 256,
             att := if x.acause = 9 then m.att else (m.att + 1) % 256, landed := 0, given := 0, insts := [], pseqs := [], gangs := [], pushes := [], changed := [], decision := none, done := [] })
  let s := if x.acause = 9 then s.shrink d else s
  let ends := fun (st : Nat) => s.modDomain d (fun m => { m with ending := some (Nat.max (m.ending.getD 0) st) })
  if x.acause = 8 ∧ x.esc then ends 1
  else if x.acause < 8 ∧ x.esc then
    match escalation m.ppol s.plat.sysPol x.acause with
    | some none => s.modDomain d (fun m => { m with consec := 0 })
    | some (some st) => ends st
    | none => s.triggerReset 1 (match m.members with | c :: _ => s.failedOf c | [] => 0)
  else s

/-! ### RESUME and the end of a launch (R37, R46) -/

/-- The launch ends with a status, and with ACAUSE of the ending decision as its CAUSE (20 R365). -/
def State.endAs (s : State) (d status acause : Nat) : State :=
  if status = 7 then s.holdNode (s.domain d).node acause else s.endLaunch d status acause

/-- RESUME falls after a decision: the launch ends, its cores save themselves, or they run on. A kill self that came too late for
the decision ends the launch at the next abort, or now when no superstep is left to abort (R53). See log 26. -/
def State.goOn (s : State) (d : Nat) (x : Decision) : State :=
  let m := s.domain d
  let resume := m.members.map Chore.resume
  let closes := x.dec ≠ 2 && s.closing m
  match m.ending.filter (fun _ => x.dec ≠ 0 || closes) with
  | some st => s.endAs d st x.acause
  | none =>
    if m.cancel then s.endLaunch d 4 0
    else if closes then s.endLaunch d 0 0
    else if x.dec = 1 then
      (s.modVf m.vf (fun t => { t with records := t.records.map (fun r => if r.domain = some d then { r with state := .saving } else r) })).pend resume
    else (s.modDomain d (fun m => { m with wdCount := 0, wdRun := true })).pend (resume ++ m.shrinks.map (fun v => .deviceFailed d v))

/-- The DONE of this device for the decision that it has carried out (R31): SGCID names the device. See log 44. -/
def State.donePennantOf (s : State) (d : Nat) : Pennant :=
  let m := s.domain d
  { domid := m.id, ssn := m.last.ssn, type := 3, att := m.last.att, sgcid := s.gcid 0 }
/-- It goes to the parent. -/
def State.sendDone (s : State) (d up : Nat) : State := s.sendFlit up 3 (s.domain d).epoch (s.donePennantOf d).words

/-- RESUME falls, STEPINC being 0 in it (R32), here and on the child devices. -/
def State.resumes (s : State) (d : Nat) (x : Decision) : State :=
  ((s.modDomain d (fun m => { m with held := false, doneDevs := [] })).sendDown d 10 { x with stepinc := 0 }).goOn d x

/-- DONE_PENNANT (R37): every DONE has come; the rest of the decision is carried out, and RESUME falls; a device that does
not hold the root reports DONE towards it, and holds its members until RESUME comes (R38). A device that has become the root while
it held them lets RESUME fall when it has every DONE. -/
def State.donePennant (s : State) (d : Nat) : Option State :=
  let m := s.domain d
  match m.decision with
  | none => if m.held && (s.parentDev d).isNone && !s.awaitsDevices d then some (s.resumes d m.last.decision) else none
  | some x =>
    if !m.parties.all (fun p => m.done.contains p) ∨ s.awaitsDevices d then none
    else
      let up := s.parentDev d
      let s := (if x.dec = 2 then s.finishAbort d x else s.finishCommit d x).modDomain d (fun n =>
        { n with last := { decision := x, ssn := m.ssn, att := m.att % 256 }, held := up.isSome })
      match up with
      | some up => some (s.sendDone d up)
      | none => some (s.resumes d x)

/-- DONE_PENNANT (R37). -/
def execDonePennant (d : Nat) (s : State) : Host.Outcome State Fault Refusal := event "DONE_PENNANT" (s.donePennant d)

/-- The replay counts and margin marks restart at a RESUME (25 R409). -/
def State.clearMargin (s : State) (c : Nat) : State :=
  (s.modCore c (fun co => { co with margin := false, marginCount := 0 })).modTeam (teamOf c) (fun t => { t with marginCount := 0 })

/-- RESUME (R27): once RESUME has fallen on its device (R38), a member's contexts run on, or the core takes the yield interrupt: its save stub writes the retained
image and signals its cluster controller (22 R378). -/
def State.resume (s : State) (c : Nat) : Option State :=
  match (s.core c).domain, s.domOf c with
  | some _, some m =>
    if m.decision.isSome ∨ m.held ∨ ((s.core c).phase ≠ .commit ∧ (s.core c).phase ≠ .restore) then none
    else
      let s := (s.clearMargin c).modCore c (fun co => { co with recs := [], banks := [] })
      if (s.vf m.vf).records.any (fun r => r.domain == (s.core c).domain && r.state == .saving) then
        some ((s.modCore c (fun co => { co with phase := .yielded })).pend [.saveSignal c])
      else if (s.core c).early.isSome then some ((s.modCore c (fun co => { co with phase := .run })).pend [.corePark c])
      else some ((s.modCore c (fun co => { co with phase := .run })).checkArrive c)
  | _, _ => none

/-- RESUME (R27). -/
def execResume (c : Nat) (s : State) : Host.Outcome State Fault Refusal := event "RESUME" (s.resume c)

end Sys2Proof.Machine
end

