-- ==== Sys2Proof/Machine/Frames.lean ====
section
/-!
DEFINITION. The tier engine (21 R366-R376): walks, page bring-up, the background scrubber, eviction, and its commands
SETPTE, FETCH, EVICT, HWRITE, HREAD and SHRES.
-/

namespace Sys2Proof.Machine

open Sys2Proof

/-! ### Walks (R369) -/

/-- TRANSLATION_WALK (R369): a walk completes for a core's tenant and installs the page's translation. -/
def State.translationWalk (s : State) (c page : Nat) (write : Bool) : Option State :=
  let va := w64 (page * 65536)
  match s.xlate (s.tenantOf c) va (if write then .write else .read), s.xlate (s.tenantOf c) va .fetch with
  | .ok _ _ _, _ => some (s.walk c (s.tenantOf c) va write)
  | _, .ok _ _ _ => if write then none else some (s.walk c (s.tenantOf c) va false)
  | _, _ => none

/-- TRANSLATION_WALK (R369). -/
def execTranslationWalk (c page : Nat) (write : Bool) (s : State) : Host.Outcome State Fault Refusal :=
  event "TRANSLATION_WALK" (s.translationWalk c page write)

/-! ### Frames of a paddock (R359, R372) -/

/-- A tenant has a running launch: running, being saved, or being restored. -/
def Vf.runs (t : Vf) : Bool := t.records.any (fun r => r.state == .running || r.state == .saving || r.state == .copying || r.state == .restoring)
/-- Frames that a tenant's pages hold at tier 0. -/
def Vf.resident (t : Vf) : Nat := (t.pages.filter (fun p => pteV p.2 && pteTier p.2 == 0)).length + 8192 * (t.bigs.filter (fun p => pteV p.2)).length
/-- Free frames of a paddock: its quota less resident pages, the shadow reserve counted as resident (R359, R376). -/
def State.freeOf (s : State) (n : Nat) : Nat :=
  let x := s.node n
  bf x.pmem 0 15 * 1024 - x.shres - ((s.plat.vfs.filter (fun p => p.2.node == n)).map (fun p => p.2.resident)).sum

/-- A tenant's page in other tables. -/
def State.setPage (s : State) (v page : Nat) (e : W64) : State := s.modVf v (fun t => { t with pages := tput t.pages page e })
/-- The translation caches drop a page (R371). -/
def State.dropCached (s : State) (v page : Nat) : State := s.dropCaches (fun y => y.vf == v && y.page == page)
/-- The translation caches drop the pages below a level 1 entry (R371). -/
def State.dropBig (s : State) (v big : Nat) : State := s.dropCaches (fun y => y.vf == v && y.page / 8192 == big)
/-- The key in a slot, as a tenant's pages name it (R375): slot 0 holds the module key. -/
def State.slotKey (s : State) (v keyid : Nat) : BitVec 512 := if keyid = 0 then s.plat.moduleKey else (s.vf v).key
/-- What is left of the request of this number is performed. -/
def State.performPart (s : State) (c id : Nat) : State :=
  match (s.core c).gstores.find? (fun h => h.id == id) with
  | some h => (s.performReq c h).getD s
  | none => s
/-- The requests of a tenant that are on their way are performed, both halves of one of 16 bytes, under the entries that they
translated by (R371). One that waits for its page has used no entry yet. -/
def State.performIssued (s : State) (v : Nat) : State :=
  s.cores.foldl (fun t p => if t.tenantOf p.1 ≠ v then t else p.2.gstores.foldl (fun t g => (t.performPart p.1 g.id).performPart p.1 g.id) t) s
/-- Every line of a frame zeroed that was still to be (R374). -/
def State.scrubFrame (s : State) (f : Nat) : State := (List.range 1024).foldl (fun s i => s.scrubLine (f * 65536 + 64 * i)) s

/-! ### Eviction (R372) -/

/-- No up port leads to the lending peer, by a cable to it or through other devices. -/
def State.peerGone (s : State) : Bool := (s.reaching (bf (s.pf 0x108030) 0 12)).isEmpty

/-- Room for one more page in a backing tier of a tenant: the grant of a peer that is on the fabric, or the host region. -/
def State.room (s : State) (v tier : Nat) : Bool :=
  if tier = 1 then
    bit (s.pf 0x108030) 12 && !s.peerGone && decide ((s.plat.vfs.map (fun p => (p.2.backing.filter (fun b => b.2.tier == 1)).length)).sum < bf (s.pf 0x108030) 16 32)
  else decide (((s.vf v).backing.filter (fun b => b.2.tier == 2)).length < bf (s.vf v).tblen 0 32)

/-- The tier a dirty page goes to: the one asked for, or the peer while it has room, else the host; none without room. -/
def State.evictTier (s : State) (v : Nat) (target : Option Nat) : Option Nat :=
  match target with
  | some k => if s.room v k then some k else none
  | none => if s.room v 1 then some 1 else if s.room v 2 then some 2 else none

/-- The lowest unused index of a tenant's backing table in a tier. -/
def Vf.freeIndex (t : Vf) (tier : Nat) : Nat :=
  let used := (t.backing.filter (fun b => b.2.tier == tier)).map (fun b => b.2.index)
  ((List.range (used.length + 1)).find? (fun i => !used.contains i)).getD 0

/-- Where the host keeps a page of a tenant's tier 2 region (R377). -/
def Vf.hostPage (t : Vf) (index : Nat) : Nat := alignTo 65536 t.tback.toNat + 65536 * index
/-- A line of given page bytes. -/
def lineOf (l : Bytes) (i : Nat) : BitVec 512 := BitVec.ofNat 512 (gather (fun a => tget l a 0) (64 * i) 64)
/-- A line of a backing copy as ciphertext (R375): its tweak is the line's virtual address. -/
def Backed.cipher (b : Backed) (page i : Nat) : Nat := (cipherLine b.key (page * 1024 + i) (lineOf b.bytes i)).toNat
/-- The keyed check of a page brought up (R375): the key of its slot is the one it was written under, and the ciphertext is
unchanged. See log 35. -/
def State.checkPasses (s : State) (v page : Nat) (e : W64) (b : Backed) : Bool :=
  decide (s.slotKey v (pteKey e) = b.key) &&
  (if b.tier = 1 then !Config.peerAltered v page b.index
   else (List.range 1024).all (fun i => s.hostRead ((s.vf v).hostPage b.index + 64 * i) 64 == b.cipher page i))
/-- A backing copy written: to the host's region as ciphertext. -/
def State.putBacked (s : State) (v page : Nat) (b : Backed) : State :=
  let t := s.modVf v (fun t => { t with backing := tput t.backing page b })
  if b.tier = 1 then t
  else (List.range 1024).foldl (fun t i => t.hostWrite ((s.vf v).hostPage b.index + 64 * i) 64 (b.cipher page i)) t
/-- The poison marks of a frame's lines. -/
def State.marksOf (s : State) (f : Nat) : Tab (BitVec 64) :=
  (s.plat.poisoned.filter (fun p => p.1 / 1024 == f)).map (fun p => (p.1 % 1024, p.2))
/-- The poison marks of a frame's lines replaced. -/
def State.setMarks (s : State) (f : Nat) (l : Tab (BitVec 64)) : State :=
  s.modPlat (fun p => { p with poisoned := l.foldl (fun t x => tput t (f * 1024 + x.1) x.2) (p.poisoned.filter (fun x => x.1 / 1024 != f)) })

/-- The bytes of a frame that are not zero. -/
def State.frameBytes (s : State) (f : Nat) : Bytes :=
  (s.hbm.filter (fun c => c.1 / 65536 == f)).map (fun c => (c.1 % 65536, c.2))

/-- The backing copy of a page cannot be reached: the peer has left the fabric, or the backing tier has no room for it (R370). -/
def State.backingGone (s : State) (v : Nat) (e : W64) : Bool :=
  (pteTier e == 1 && (s.peerGone || decide (bf (s.pf 0x108030) 16 32 ≤ pteFrame e))) ||
  (pteTier e == 2 && decide (bf (s.vf v).tblen 0 32 ≤ pteFrame e))

/-- A clean page has a backing copy that is still valid: its tier keeps it (R372). -/
def State.validCopy (s : State) (v page : Nat) (e : W64) : Option Backed :=
  if pteD e then none
  else (tfind (s.vf v).backing page).filter (fun b => !s.backingGone v (bput (bput e 5 2 b.tier) 34 30 b.index) && s.checkPasses v page e b)

/-- A page freed to a lower tier: a clean page with a valid copy is dropped, another one is written; none when it has
nowhere to go. -/
def State.evictPage (s : State) (v page : Nat) (target : Option Nat) : Option State :=
  let t := s.vf v
  match tfind t.pages page with
  | none => none
  | some e =>
    if !pteV e ∨ pteTier e ≠ 0 then none
    else
      let frame := pteFrame e % 2 ^ 24
      let free := fun (s : State) (b : Backed) =>
        ((s.setPage v page (bput (bput (bput (bput e 5 2 b.tier) 34 30 b.index) 17 1 0) 15 1 0)).dropCached v page).dropFrame frame
      match s.validCopy v page e with
      | some b => some (free s b)
      | none =>
        let s0 := s.modVf v (fun t => { t with backing := tdel t.backing page })
        match s0.evictTier v target with
        | none => none
        | some k =>
          let s := s0.scrubFrame frame
          let b : Backed := { tier := k, index := (s0.vf v).freeIndex k, bytes := s.frameBytes frame,
                              key := s.slotKey v (pteKey e), marks := s.marksOf frame }
          some ((free s b).putBacked v page b)

/-- The pages of a paddock that may be freed, in the order of R372. -/
def State.victims (s : State) (n : Nat) : List (Nat × Nat) :=
  let idle := s.plat.vfs.filter (fun p => p.2.node == n && !p.2.runs)
  let pages := fun (p : Nat × Vf) (inSet : Bool) => (p.2.pages.filter (fun q => pteV q.2 && pteTier q.2 == 0 && p.2.wset.contains q.1 == inSet)).map (fun q => (p.1, q.1))
  let out := (s.node n).outgoing
  idle.flatMap (fun p => pages p false) ++ (idle.filter (fun p => p.1 == out)).flatMap (fun p => pages p true)
    ++ (idle.filter (fun p => p.1 != out)).flatMap (fun p => pages p true)

/-- The first page of a list that can be freed is (R372). -/
def State.evictFirst (s : State) (l : List (Nat × Nat)) : Option State :=
  match l with
  | [] => none
  | p :: r => match s.evictPage p.1 p.2 none with | some t => some t | none => s.evictFirst r

/-- Frames freed while fewer than need are free, or until no page can be freed (R376 step 1). -/
def State.makeRoom (s : State) (n need fuel : Nat) : State :=
  match fuel with
  | 0 => s
  | k + 1 =>
    if need ≤ s.freeOf n then s
    else match s.evictFirst (s.victims n) with
      | some t => t.makeRoom n need k
      | none => s

/-! ### Bring-up (R370) -/

/-- The pages whose frames a population needs: those of the pseudo-channel of a BANKMAT page when it has no free frame, else all
that may be freed (R372). -/
def State.victimsFor (s : State) (n : Nat) (pch : Option Nat) : List (Nat × Nat) :=
  match pch.filter (fun _ => (s.freeFrame none pch).isNone) with
  | none => s.victims n
  | some u => (s.victims n).filter (fun p => pteFrame (tget (s.vf p.1).pages p.2 0) / 2 ^ 14 == u)
/-- A frame for a page of a paddock, after evictions while none is free that it can take (R370, R372). -/
def State.frameIn (s : State) (n : Nat) (pch : Option Nat) (fuel : Nat) : Option (Nat × State) :=
  match (if 0 < s.freeOf n then s.freeFrame none pch else none), fuel with
  | some f, _ => some (f, s)
  | none, 0 => none
  | none, k + 1 => (s.evictFirst (s.victimsFor n pch)).bind (fun t => t.frameIn n pch k)
/-- The same, with as many evictions as there are pages to free. -/
def State.frameFor (s : State) (n : Nat) (pch : Option Nat) : Option (Nat × State) := s.frameIn n pch (s.victims n).length

/-- A frame holding given bytes, and zeros elsewhere. -/
def State.fillFrame (s : State) (f : Nat) (l : Bytes) : State := l.foldl (fun s c => s.hputb (f * 65536 + c.1) c.2) (s.scrubFrame f)

/-- The bytes of a page's backing copy, and its poison marks; every line is marked when the keyed check fails (R375). -/
def State.backed (s : State) (v page : Nat) (e : W64) : Bytes × Tab (BitVec 64) :=
  match tfind (s.vf v).backing page with
  | none => ([], [])
  | some b => (b.bytes, if s.checkPasses v page e b then b.marks else (List.range 1024).map (fun i => (i, 0)))

/-- A page comes to tier 0: unpopulated pages hold zeros, others their backing copy. The page of a peer that has left is
poison when its data are lost, and not mapped otherwise. -/
def State.bringUp (s : State) (v page : Nat) : Option State :=
  let t := s.vf v
  match tfind t.pages page with
  | none => none
  | some e =>
    if !pteV e ∨ pteTier e = 0 then none
    else
      let gone := s.backingGone v e
      if gone ∧ !Config.pageLost v page then some ((s.setPage v page (bput e 0 1 0)).modVf v (fun t => { t with backing := tdel t.backing page }))
      else match s.frameFor t.node (if pteClass e = 3 then some (ptePch e) else none) with
        | none => none
        | some (f, s) =>
          let s := s.takeFrame f v page
          let copy := if gone then ([], (List.range 1024).map (fun i => (i, 0)))
            else if pteTier e = 3 then ([], []) else s.backed v page e
          let s := (if gone ∨ pteTier e = 3 then s else s.fillFrame f copy.1).setMarks f copy.2
          let scrub := b2n (!(tget s.plat.frames f {}).dirtyLines.isEmpty)
          some (s.setPage v page (bput (bput (bput (bput e 5 2 0) 34 30 f) 17 1 0) 15 1 scrub))

/-- PAGE_BRING_UP (R370): the stalled access goes on in a later turn; a launch that waits on residency may start. -/
def State.pageBringUp (s : State) (v page : Nat) : Option State := (s.bringUp v page).map (fun t => t.pend [.gatePass (t.vf v).node])

/-- PAGE_BRING_UP (R370). -/
def execPageBringUp (v page : Nat) (s : State) : Host.Outcome State Fault Refusal := event "PAGE_BRING_UP" (s.pageBringUp v page)

/-! ### The background scrubber (R374) -/

/-- A node and the nodes above it. -/
def ancestors (n : Nat) : List Nat := (List.range 7).map (fun i => n / 2 ^ i)

/-- Nodes none of whose unbound tenants' frames remain unscrubbed (R358, R374). -/
def State.clearScrub (s : State) : State :=
  let left := (s.plat.frames.filter (fun p => !p.2.dirtyLines.isEmpty && p.2.orphan != 0)).map (fun p => p.2.orphan)
  s.modPlat (fun p => { p with nodes := p.nodes.map (fun x =>
    if (ancestors x.1).any (fun a => left.contains a) || left.any (fun l => (ancestors l).contains x.1) then x else (x.1, { x.2 with scrub := false })) })

/-- SCRUB of the page that a frame holds clears: of a 512 MiB page once no line of its 8,192 frames remains. -/
def State.scrubbed (s : State) (f : Nat) (fr : Frame) : State :=
  let t := s.vf fr.vf
  match tfind t.bigs (fr.page / 8192), tfind t.pages fr.page with
  | some e, _ =>
    if fr.used ∧ pteV e ∧ pteFrame e ≤ f ∧ f < pteFrame e + 8192 ∧ (s.plat.frames.all (fun p => p.2.dirtyLines.isEmpty || decide (p.1 < pteFrame e) || decide (pteFrame e + 8192 ≤ p.1))) then
      s.modVf fr.vf (fun t => { t with bigs := tput t.bigs (fr.page / 8192) (bput e 15 1 0) })
    else s
  | none, some e => if fr.used ∧ pteV e ∧ pteTier e = 0 ∧ pteFrame e = f then s.setPage fr.vf fr.page (bput e 15 1 0) else s
  | none, none => s

/-- BACKGROUND_SCRUB (R374): the remaining lines of a frame are zeroed, and SCRUB of its page clears. -/
def State.backgroundScrub (s : State) (f : Nat) : Option State :=
  match tfind s.plat.frames f with
  | none => none
  | some fr =>
    let s := fr.dirtyLines.foldl (fun s i => s.scrubLine (f * 65536 + 64 * i)) s
    let s := s.modPlat (fun p => { p with frames := tmod p.frames f {} (fun x => { x with orphan := 0 }) })
    some (s.scrubbed f fr).clearScrub

/-- BACKGROUND_SCRUB (R374). -/
def execBackgroundScrub (f : Nat) (s : State) : Host.Outcome State Fault Refusal := event "BACKGROUND_SCRUB" (s.backgroundScrub f)

/-! ### Commands (R373, R377) -/

/-- The command registers' fields. -/
def State.teOp (s : State) : Nat := bf (s.pf 0x108000) 0 4
def State.teVf (s : State) : Nat := bf (s.pf 0x108000) 8 8
def State.teLevel (s : State) : Nat := bf (s.pf 0x108000) 16 2
def State.teNode (s : State) : Nat := bf (s.pf 0x108000) 18 7
def State.teReserved (s : State) : Bool := bf (s.pf 0x108000) 4 4 != 0 || bf (s.pf 0x108000) 25 39 != 0
def State.teAddr (s : State) : Nat := bf (s.pf 0x108008) 0 55
def State.teVal (s : State) : W64 := s.pf 0x108010
def State.teLen (s : State) : Nat := bf (s.pf 0x108018) 0 48

/-- A command completes with a RESULT; DONECNT counts it. -/
def State.teDone (s : State) (result : Nat) : State :=
  let r := s.pf 0x108028
  s.setPf 0x108028 (w64 (16 * result + ((bf r 32 32 + 1) % 2 ^ 32) * 2 ^ 32))

/-- A started command: it must be the one in TECMD. -/
def State.teRun (s : State) (op : Nat) (f : State → State × Nat) : Option State :=
  if s.teOp ≠ op ∨ s.plat.warm then none
  else if s.teReserved ∨ (op ≠ 6 ∧ (s.teVf = 0 ∨ Config.vfs < s.teVf)) then some (s.teDone 1)
  else let r := f s; some (r.1.teDone r.2)

/-- The tenant is locked under TDISP (R427). -/
def Vf.locked (t : Vf) : Bool := t.tdisp == .locked || t.tdisp == .run

/-- An entry that SETPTE refuses as a field (R367, R368). See log 36. -/
def pteBad (level : Nat) (e : W64) : Bool :=
  level == 0 || level == 3 ||
  (pteV e && (decide (4 < pteClass e) || !bit e 4 || pteTier e != 0 || pteScrub e || pteA e || pteD e || decide (1 < bf e 21 3)
    || (pteClass e != 3 && ptePch e != 0) || pteFrame e != 0 || (level == 1 && pteClass e != 2 && pteClass e != 4)))

/-- The lowest run of n free frames within one stack (R368). -/
def State.frameRun (s : State) (n : Nat) : Option Nat :=
  let used := (s.plat.frames.filter (fun p => p.2.used)).map (fun p => p.1)
  (List.range 16).findSome? (fun k =>
    if s.stackDown k then none
    else
      let starts := k * 2 ^ 20 :: (used.filter (fun f => f / 2 ^ 20 == k)).map (fun f => f + 1)
      starts.find? (fun a => decide (a + n ≤ (k + 1) * 2 ^ 20) && !used.any (fun f => decide (a ≤ f) && decide (f < a + n))))

/-- A page unmapped: its frame returns unscrubbed, its copy below is dropped. -/
def State.unmap (s : State) (v page : Nat) : State :=
  match tfind (s.vf v).pages page with
  | none => s
  | some e =>
    let s := if pteV e ∧ pteTier e = 0 then s.dropFrame (pteFrame e) else s
    (s.modVf v (fun t => { t with pages := tdel t.pages page, backing := tdel t.backing page })).dropCached v page

/-- Whether valid 64 KiB pages stand below a level 1 entry (R366). -/
def Vf.below (t : Vf) (big : Nat) : Bool := t.pages.any (fun p => p.1 / 8192 == big && pteV p.2)

/-- A table of a tenant (R366, R367): a frame of its paddock, zeroed; an existing one stays. See log 60. -/
def State.addTable (s : State) (v key : Nat) : Option State :=
  if (tfind (s.vf v).tables key).isSome then some s
  else match s.freeFrame none none with
    | none => none
    | some f => some (((s.takeFrame f v 0).scrubFrame f).modVf v (fun t => { t with tables := tput t.tables key f }))

/-- The tables above an entry of a level, created where they are missing (R373); none without a frame for them. -/
def State.addTables (s : State) (v level va : Nat) : Option State := do
  let s ← s.addTable v rootKey
  let s ← s.addTable v (midKey va)
  if level = 2 then s.addTable v (lowKey va) else some s

/-- A level 1 table without valid entries gives way to a 512 MiB page; its frame returns. -/
def State.dropTable (s : State) (v va : Nat) : State :=
  match tfind (s.vf v).tables (lowKey va) with
  | none => s
  | some f => (s.dropFrame f).modVf v (fun t => { t with tables := tdel t.tables (lowKey va), pages := t.pages.filter (fun p => p.1 / 8192 != va / 2 ^ 29) })

/-- The lines of a page at tier 0 as another key decrypts them (R375): the ciphertext stays as it is. -/
def State.rekey (s : State) (v page f : Nat) (old new : Nat) : State :=
  if old = new then s
  else (List.range 1024).foldl (fun s i =>
    let t := page * 1024 + i
    let a := f * 65536 + 64 * i
    if ((tget s.plat.frames f {}).dirtyLines).contains i then s
    else s.hwrite a 64 (plainLine (s.slotKey v new) t (cipherLine (s.slotKey v old) t (BitVec.ofNat 512 (s.hread a 64)))).toNat) s

/-- A resident page that becomes a BANKMAT page of a pseudo-channel moves to a frame in it (R367). -/
def State.rehome (s : State) (v page : Nat) (e : W64) : Option (W64 × State) :=
  let f := pteFrame e % 2 ^ 24
  if pteTier e ≠ 0 ∨ pteClass e ≠ 3 ∨ f / 2 ^ 14 = ptePch e then some (e, s)
  else match s.freeFrame none (some (ptePch e)) with
    | none => none
    | some g =>
      let s := s.scrubFrame f
      let l := s.frameBytes f
      let m := s.marksOf f
      some (bput (bput e 34 30 g) 15 1 0, (((s.takeFrame g v page).fillFrame g l).setMarks g m).dropFrame f)

/-- A 512 MiB page unmapped. -/
def State.unmapBig (s : State) (v i : Nat) : State :=
  match tfind (s.vf v).bigs i with
  | none => s
  | some e =>
    let s := (List.range 8192).foldl (fun s k => s.dropFrame (pteFrame e + k)) s
    (s.modVf v (fun t => { t with bigs := tdel t.bigs i })).dropBig v i

/-- The fields of an entry that the engine maintains, and the permissions (R367). -/
def pteRo : W64 := 0xFFFFFFFC00038060#64
def ptePerm : W64 := 0x1C0000#64

/-- SETPTE on a tenant with a running launch: mapping a new page, unmapping or changing the permissions of a LIVE or
READ-ONLY page (R372). -/
def setpteAllowed (old : Option W64) (e : W64) : Bool :=
  match old with
  | none => true
  | some o =>
    if !pteV o then true
    else (pteClass o == 2 || pteClass o == 4) && (!pteV e || (e &&& ~~~ptePerm) == (o &&& ~~~ptePerm &&& ~~~pteRo))

/-- The table that a level 1 leaf replaces. -/
def State.dropTableOf (s : State) (level v va : Nat) : State := if level = 1 then s.dropTable v va else s

/-- SETPTE (R373). A level 2 entry below a 512 MiB page, and a level 1 entry over valid pages, is a field error. See
logs 36 and 60. -/
def State.setpteCmd (s : State) : State × Nat :=
  let v := s.teVf
  let t := s.vf v
  let e := s.teVal
  let level := s.teLevel
  let va := s.teAddr
  let page := va / 2 ^ 16
  let big := va / 2 ^ 29
  let old := if level = 1 then tfind t.bigs big else tfind t.pages page
  let fresh := match old with | some o => !pteV o | none => true
  let taken := if level = 1 then t.below big else (tfind t.bigs big).any pteV
  if pteBad level e then (s, 1)
  else if t.locked ∧ !(fresh && pteV e && !taken) then (s, 6)
  else if taken then (s, 1)
  else if t.runs ∧ !setpteAllowed old e then (s, 2)
  else if pteV e ∧ pteKey e ≠ t.keyid ∧ pteKey e ≠ 0 then (s, 4)
  else if pteV e ∧ pteKey e = 0 ∧ pteClass e ≠ 2 ∧ pteClass e ≠ 4 then (s, 4)
  else
    let s := s.performIssued v
    if !pteV e then (if level = 1 then (s.unmapBig v big, 0) else (s.unmap v page, 0))
    else match (s.dropTableOf level v va).addTables v level va with
    | none => (s, 3)
    | some s =>
      let kept := old.getD 0 &&& pteRo
      if level = 2 then
        if fresh then ((s.setPage v page (bput e 5 2 3)).dropCached v page, 0)
        else match s.rehome v page (e ||| kept) with
          | none => (s, 3)
          | some (e, s) =>
            let s := if pteTier e = 0 then s.rekey v page (pteFrame e % 2 ^ 24) (pteKey (old.getD 0)) (pteKey e) else s
            ((s.setPage v page e).dropCached v page, 0)
      else if !fresh then
        let s := (List.range 8192).foldl (fun s k => s.rekey v (big * 8192 + k) (pteFrame kept + k) (pteKey (old.getD 0)) (pteKey e)) s
        ((s.modVf v (fun t => { t with bigs := tput t.bigs big (e ||| kept) })).dropBig v big, 0)
      else if s.freeOf t.node < 8192 then (s, 3)
      else match s.frameRun 8192 with
        | none => (s, 3)
        | some f =>
          let s := (List.range 8192).foldl (fun s k => ((s.takeFrame (f + k) v (big * 8192 + k))).setMarks (f + k) []) s
          let e := bput (bput e 34 30 f) 15 1 (b2n ((List.range 8192).any (fun k => !(tget s.plat.frames (f + k) {}).dirtyLines.isEmpty)))
          ((s.modVf v (fun t => { t with bigs := tput t.bigs big e })).dropBig v big, 0)

/-- SETPTE (R373). -/
def execSetpte (s : State) : Host.Outcome State Fault Refusal := event "SETPTE" (s.teRun 1 State.setpteCmd)

/-- The pages of the command's range, in increasing address. -/
def State.tePages (s : State) : List Nat :=
  if s.teLen = 0 then [] else
    let a := s.teAddr / 65536
    (List.range ((s.teAddr + s.teLen - 1) / 65536 - a + 1)).map (fun i => a + i)

/-- FETCH (R373): pages of the range come to tier 0; without a frame it ends with RESULT 3. -/
def State.fetchCmd (s : State) : State × Nat :=
  if (s.vf s.teVf).runs then (s, 2)
  else s.tePages.foldl (fun (a : State × Nat) p =>
    if a.2 ≠ 0 then a
    else match tfind (a.1.vf s.teVf).pages p with
      | some e => if pteV e ∧ pteTier e ≠ 0 then (match a.1.bringUp s.teVf p with | some t => (t, 0) | none => (a.1, 3)) else a
      | none => a) (s, 0)

/-- FETCH (R373). -/
def execFetch (s : State) : Host.Outcome State Fault Refusal := event "FETCH" (s.teRun 2 State.fetchCmd)

/-- EVICT (R373): pages of the range are freed to the target tier; a page with nowhere to go is not. -/
def State.evictCmd (s : State) : State × Nat :=
  if s.teLevel ≠ 1 ∧ s.teLevel ≠ 2 then (s, 1)
  else if (s.vf s.teVf).runs then (s, 2)
  else (s.tePages.foldl (fun s p => (s.evictPage s.teVf p (some s.teLevel)).getD s) s, 0)

/-- EVICT (R373). -/
def execEvict (s : State) : Host.Outcome State Fault Refusal := event "EVICT" (s.teRun 3 State.evictCmd)

/-- A word of a tenant for the host: its committed image, its page brought up first; what stops the copy is a RESULT: 5 for
a fault of R370, a poisoned word read among them. -/
def State.hostWord (s : State) (k : Acc) (v a : Nat) : State × Nat × Nat :=
  let r : Option State := match s.xlate v (w64 a) k with
    | .wait => s.bringUp v (a / 65536)
    | _ => some s
  match r with
  | none => (s, 0, 3)
  | some s =>
    match s.xlate v (w64 a) k with
    | .ok phys _ _ => if k = .read ∧ s.poisonAt phys then (s, 0, 5) else (s.scrubLine phys, phys, 0)
    | _ => (s, 0, 5)

/-- The classes of the range's pages are all among those given (R373), for a tenant that runs. -/
def State.teClasses (s : State) (ok : Nat → Bool) : Bool :=
  s.tePages.all (fun p => match s.pte s.teVf (w64 (p * 65536)) with | some (e, _) => ok (pteClass e) | none => true)

/-- HWRITE and HREAD share their checks and their walk over words. -/
def State.hostCopy (s : State) (k : Acc) (classes : Nat → Bool) (move : State → Nat → Nat → State) : State × Nat :=
  let t := s.vf s.teVf
  if s.teAddr % 8 ≠ 0 ∨ s.teLen % 8 ≠ 0 then (s, 1)
  else if t.locked then (s, 6)
  else if t.runs ∧ !s.teClasses classes then (s, 2)
  else (List.range (s.teLen / 8)).foldl (fun (a : State × Nat) i =>
    if a.2 ≠ 0 then a
    else
      let w := a.1.hostWord k s.teVf (s.teAddr + 8 * i)
      if w.2.2 ≠ 0 then (w.1, w.2.2) else (move w.1 w.2.1 i, 0)) (s, 0)

/-- HWRITE (R373): host words into the tenant's pages. -/
def State.hwriteCmd (s : State) : State × Nat :=
  s.hostCopy .write (fun c => c == 2) (fun t phys i =>
    ((t.hwrite phys 8 (t.hostRead (s.teVal.toNat + 8 * i) 8)).notePoison phys 8 255).modPte s.teVf (w64 (s.teAddr + 8 * i)) (fun e => e ||| 0x20000#64))

/-- HWRITE (R373). -/
def execHwrite (s : State) : Host.Outcome State Fault Refusal := event "HWRITE" (s.teRun 4 State.hwriteCmd)

/-- HREAD (R373): the tenant's words to host memory. -/
def State.hreadCmd (s : State) : State × Nat :=
  s.hostCopy .read (fun c => c == 2 || c == 4) (fun t phys i => t.hostWrite (s.teVal.toNat + 8 * i) 8 (t.hread phys 8))

/-- HREAD (R373). -/
def execHread (s : State) : Host.Outcome State Fault Refusal := event "HREAD" (s.teRun 5 State.hreadCmd)

/-- SHRES (R373, R377). -/
def State.shresCmd (s : State) : State × Nat :=
  let n := s.teNode
  if n = 0 then (s, 1)
  else if s.freeOf n < s.teVal.toNat then (s, 3)
  else (s.modNode n (fun x => { x with shres := s.teVal.toNat }), 0)

/-- SHRES (R373). -/
def execShres (s : State) : Host.Outcome State Fault Refusal := event "SHRES" (s.teRun 6 State.shresCmd)

end Sys2Proof.Machine
end

