-- ==== Sys2Proof/Machine/Launch.lean ====
section
/-!
DEFINITION. Paddocks, bindings and the launch controller (20 R353-R365): posts, cancels, the completion queue's head,
selection, the residency gate and admission (03 R56-R65), recompute edges, and the paddock tree.
-/

namespace Sys2Proof.Machine

open Sys2Proof

/-! ### The launch window (R353, R354, R361, R365) -/

/-- A post is processed with its RESULT. -/
def State.posted (s : State) (v result : Nat) : State := s.modVf v (fun t => { t with posted := t.posted + 1, result := result })

/-- LWPOST (R354, R356): a slot's record is copied, checked and stored. -/
def State.lwpost (s : State) (v : Nat) (x : W64) : State :=
  if (s.vf v).node = 0 then s
  else
    let t := s.vf v
    let r := recOf v ((List.range 16).map (fun i => w64 (gather (fun a => tget t.slots a 0) (128 * bf x 0 8 + 8 * i) 8))) false
    let code := if bf x 8 56 ≠ 0 then 7 else s.recCheck v r
    if code = 0 then (s.storeRecord v r).posted v 0 else s.posted v code

/-- LWPOST (R354). -/
def execLwpost (v : Nat) (x : W64) (s : State) : Host.Outcome State Fault Refusal := .next (s.lwpost v x).quiet

/-- LWCANCEL (R361): a record that does not run ends CANCELLED; a running launch ends at its next decision, one being
saved when its saving ends (22 R380). -/
def State.lwcancel (s : State) (v : Nat) (x : W64) : State :=
  let t := s.vf v
  if t.node = 0 ∨ t.exported.isSome then s
  else match t.unretired (bf x 0 16) with
    | none => s
    | some r =>
      match r.state, r.domain with
      | .ended, _ => s
      | .running, some d => s.modDomain d (fun m => { m with cancel := true })
      | .saving, some d => s.modDomain d (fun m => { m with cancel := true })
      | .copying, some d => s.modDomain d (fun m => { m with cancel := true })
      | .restoring, some d => s.modDomain d (fun m => { m with cancel := true })
      | _, some d => s.endLaunch d 4 0
      | _, none => (s.endRecord v r.order 4 0 0 0).pend [.launchSelect t.node]

/-- LWCANCEL (R361). -/
def execLwcancel (v : Nat) (x : W64) (s : State) : Host.Outcome State Fault Refusal := .next (s.lwcancel v x).quiet

/-- Whether queue position k lies from old up to new, modulo the size. -/
def passed (old new size k : Nat) : Bool := decide ((k + size - old % size) % size < (new + size - old % size) % size)

/-- LWCQHEAD (R361, R365): records whose own completion entries HEAD passes retire; waiting entries are written. -/
def State.lwcqhead (s : State) (v : Nat) (x : W64) : State :=
  let t := s.vf v
  if t.node = 0 then s
  else
    let h := bf x 0 16
    let gone := t.written.filter (fun e => passed t.cqHead.toNat h t.cqSize e.1)
    let s := s.modVf v (fun t =>
      { t with cqHead := BitVec.ofNat 16 h, written := t.written.filter (fun e => !gone.contains e),
               records := t.records.map (fun r => if (r.state == .ended || r.replay) && gone.any (fun e => e.2.2 && e.2.1 == r.lid) then { r with retired := true } else r) })
    (s.modVf v Vf.prune).flushCompletions v

/-- LWCQHEAD (R361). -/
def execLwcqhead (v : Nat) (x : W64) (s : State) : Host.Outcome State Fault Refusal := .next (s.lwcqhead v x).quiet

/-! ### Selection (R361-R363) -/

/-- A record of a tenant is on its way or running on its node. -/
def Rec.busy (r : Rec) : Bool := r.state == .gating || r.state == .running || r.state == .saving || r.state == .copying || r.state == .restoring
/-- A node has such a record. -/
def State.nodeBusy (s : State) (n : Nat) : Bool := s.plat.vfs.any (fun p => p.2.node == n && p.2.records.any Rec.busy)

/-- A candidate comes before another: effective priority, then earlier READY, lower tenant, earlier acceptance (R362). -/
def State.before (s : State) (a b : Nat × Rec) : Bool :=
  let ea := s.effective a.2
  let eb := s.effective b.2
  if ea ≠ eb then decide (eb < ea)
  else if a.2.since ≠ b.2.since then decide (a.2.since < b.2.since)
  else if a.1 ≠ b.1 then decide (a.1 < b.1)
  else decide (a.2.order < b.2.order)

/-- The candidate that selection takes. -/
def State.bestOf (s : State) (l : List (Nat × Rec)) : Option (Nat × Rec) :=
  match l with
  | [] => none
  | x :: r => some (r.foldl (fun a b => if s.before b a then b else a) x)

/-- Bring-up of the recorded working set, in increasing address (R376). -/
def State.wsetChores (s : State) (v : Nat) : List Chore :=
  ((s.vf v).wset.filter (fun p => match tfind (s.vf v).pages p with | some e => pteV e && pteTier e != 0 | none => false)).map (fun p => .pageBringUp v p)

/-- LAUNCH_SELECT (R362): the best READY record, or a producer that must run again before it, is selected and gated; a saved
launch of which a core has been marked absent ends (22 R379). -/
def State.launchSelect (s : State) (n : Nat) : Option State :=
  if (s.node n).state ≠ .active ∨ (s.node n).running.isSome ∨ s.nodeBusy n ∨ s.plat.warm then none
  else match s.bestOf (s.candidates n) with
    | none => none
    | some (v, r) =>
      let t := s.vf v
      let p := (t.replayFor r t.records.length).getD r
      match p.domain.filter (fun d => (s.domain d).members.any s.coreAbsent) with
      | some d => some (s.endLaunch d 2 15)
      | none =>
        let sel := s.effective r
        let s := s.modRec v p.order (fun q => { q with state := .gating, replay := q.replay || p.order != r.order, sel := sel })
        let need := (s.wsetChores v).length
        some ((s.makeRoom n need need).pend (s.wsetChores v ++ [.gatePass n]))

/-- LAUNCH_SELECT (R362). -/
def execLaunchSelect (n : Nat) (s : State) : Host.Outcome State Fault Refusal := event "LAUNCH_SELECT" (s.launchSelect n)

/-- Records whose recompute buffers may be dropped (R363). A buffer in a 512 MiB page is kept: its page is never freed in
part. See log 37. -/
def State.droppable (s : State) (n : Nat) : List (Nat × Rec) :=
  s.plat.vfs.flatMap (fun p => if p.2.node ≠ n then [] else
    (p.2.records.filter (fun r => r.rprod != 0xFFFF && !r.dropped && (r.state == .waiting || r.state == .ready)
      && (match p.2.unretired r.rprod with | some q => q.state == .ended && q.status == 0 | none => false)
      && !p.2.bigs.any (fun b => pteV b.2 && decide (b.1 * 2 ^ 29 < r.rbase + r.rlen) && decide (r.rbase < (b.1 + 1) * 2 ^ 29)))).map (fun r => (p.1, r)))

/-- A buffer's pages freed and their contents discarded: its mappings stay, unpopulated. -/
def State.dropBuffer (s : State) (v : Nat) (r : Rec) : State :=
  let pages := (List.range (r.rlen / 65536)).map (fun i => r.rbase / 65536 + i)
  let s := pages.foldl (fun s p =>
    match tfind (s.vf v).pages p with
    | some e =>
      if !pteV e then s
      else
        let s := if pteTier e = 0 then s.dropFrame (pteFrame e) else s
        ((s.setPage v p (bput (bput (bput (bput e 5 2 3) 34 30 0) 17 1 0) 15 1 0)).modVf v (fun t => { t with backing := tdel t.backing p })).dropCached v p
    | none => s) s
  s.modRec v r.order (fun q => { q with dropped := true })

/-- Whether one edge is dropped before another. -/
def State.dropBefore (s : State) (a b : Nat × Rec) : Bool :=
  if s.effective a.2 ≠ s.effective b.2 then decide (s.effective a.2 < s.effective b.2) else decide (b.2.order < a.2.order)

/-- Edges dropped in order until enough is free. -/
def State.dropUntil (s : State) (n fuel : Nat) : State :=
  match fuel with
  | 0 => s
  | k + 1 =>
    if bf (s.node n).pmem 32 15 * 1024 ≤ s.freeOf n then s
    else match s.droppable n with
      | [] => s
      | x :: r => let y := r.foldl (fun a b => if s.dropBefore b a then b else a) x
                  (s.dropBuffer y.1 y.2).dropUntil n k

/-- RECOMPUTE_DROP (R363): with FREE below LOWWM and no launch running, buffers are dropped until FREE reaches HIGHWM. -/
def State.recomputeDrop (s : State) (n : Nat) : Option State :=
  if (s.node n).running.isSome ∨ bf (s.node n).pmem 16 15 * 1024 ≤ s.freeOf n ∨ (s.droppable n).isEmpty then none
  else some (s.dropUntil n (s.droppable n).length)

/-- RECOMPUTE_DROP (R363). -/
def execRecomputeDrop (n : Nat) (s : State) : Host.Outcome State Fault Refusal := event "RECOMPUTE_DROP" (s.recomputeDrop n)

/-! ### Apportionment (03 R60) -/

/-- The number of tasks of each core: floors of the exact shares, and one more for the largest remainders, equal ones to
the lower index. -/
def shares (speeds : List Nat) (tasks : Nat) : List Nat :=
  let total := speeds.sum
  let base := speeds.map (fun f => tasks * f / total)
  let rems := speeds.map (fun f => tasks * f % total)
  let left := tasks - base.sum
  let rank := fun i => (rems.zipIdx.filter (fun p => decide (rems.getD i 0 < p.1) || (p.1 == rems.getD i 0 && decide (p.2 < i)))).length
  base.zipIdx.map (fun p => p.1 + (if rank p.2 < left then 1 else 0))

/-- First task and number of tasks of each core, in order. -/
def deals (speeds : List Nat) (tasks : Nat) : List (Nat × Nat) :=
  ((shares speeds tasks).foldl (fun (a : List (Nat × Nat) × Nat) n => (a.1 ++ [(a.2, n)], a.2 + n)) ([], 0)).1

/-! ### Admission (R57, R58, R64, R361, R429) -/

/-- Identifiers in use on the device (R429). -/
def State.idsInUse (s : State) : List Nat :=
  s.domains.flatMap (fun p => if p.2.live then p.2.id.toNat :: p.2.phaseIds.map (fun i => i.toNat) else [])

/-- A drawn identifier: the drawing's value, moved on past 0xFFFF and those in use. -/
def pickId (used : List Nat) (k : Nat) : Nat :=
  let d := (Config.domainId k).toNat
  (((List.range (used.length + 2)).map (fun i => (d + i) % 65536)).find? (fun x => x != 0xFFFF && !used.contains x)).getD 0

/-- n identifiers different from each other and from those in use. -/
def pickIds (used : List Nat) (k n : Nat) : List Nat :=
  (List.range n).foldl (fun l i => l ++ [pickId (used ++ l) (k + i)]) []

/-- What the DCP table gives (R145, R355), read through core c: its sixteen images, a refusal, or a page to wait for. See
log 37. -/
def State.readDcp (s : State) (c v : Nat) (a : W64) : Except (List Chore) (Option (Tab W64) × State) :=
  if a = 0 then .ok (some [], s)
  else
    (List.range 16).foldlM (fun (p : Option (Tab W64) × State) i =>
      let b := a + w64 (8 * i)
      match p.2.xlate v b .read, p.1 with
      | .wait, _ => .error [.pageBringUp v (b.toNat / 65536)]
      | .ok phys _ _, some t =>
        let u := (p.2.lookup c v b false).scrubLine phys
        let x := w64 (u.hread phys 8)
        .ok (if csrBad 0x50 x then none else some (if x = 0 then t else tput t i x), u)
      | _, _ => .ok (none, p.2)) (some [], s)

/-- The residency gate (R361, R376). -/
def State.gateOpen (s : State) (v : Nat) (r : Rec) : Bool :=
  decide (r.resid * (s.vf v).setPages ≤ 100 * (s.vf v).setResident)

/-- A member core at the start of a launch: contexts, tile views (11 R269) and counters of the attempt as at reset, the
handler context as R62 starts one (11 R286), TCMCFG from the record. TCM, mailbox and rings stay: no rule clears them
(DEDUCED). See log 32. -/
def Core.launch (c : Core) (d : Nat) (tcm : W64) (retry : W64) (dcs : Tab W64) : Core :=
  let ctxs := [(4, { startedCtx 0 0 0xF5DF#64 retry dcs 8 0x448#64 with active := false })]
  let c := { c.newAttempt with
    ctxs := ctxs, phase := .run, slot := 0, domain := some d, scratch := [], gen := c.gen + 1, chanN := [], chanE := [], chanS := [], chanW := [],
    views := [], dealt := 0, started := false, margin := false, marginCount := 0, tcmcfg := tcm }
  c.retain

/-- A cluster at the start of a launch: its window table stays (DEDUCED: no rule clears it), scratch unknown. See log 32. -/
def Cluster.launch (k : Cluster) : Cluster :=
  { k.dropScratch with keepWins := k.wins, pending := [], pendCount := 0, instant := [], logged := [], badLog := [], markedLog := [], deltas := [], reserved := 0,
                       streams := [], chain := 1, chainNext := none, staged := [] }
/-- A team at the start of a launch. -/
def Team.launch (t : Team) : Team := { replays := t.replays }

/-- The membership of a job (23 R397). -/
def State.membership (s : State) (job : Nat) : Option Membership := if job = 0 then none else s.plat.members.find? (fun m => m.job == job)

/-- The other member devices of a job with the numbers of cores that take part there (R23): those devices' own state, free
values here. See log 5. -/
def farCounts (devices : List Nat) (own draw : Nat) : Tab Nat :=
  (devices.filter (fun v => v != own)).map (fun v => (v, Config.farCores draw v))

/-- The identifier of a domain that spans devices (R429): the device that holds member 0, the lowest numbered, assigned it;
on another device its value is free within the bounds of the rule. See log 5. -/
def spanId (used devices : List Nat) (own job draw : Nat) : Nat :=
  match devices with
  | first :: _ => if first = own then pickId used draw else
    (((List.range (used.length + 2)).map (fun i => (Config.farDomainId first job (draw + i)).toNat)).find? (fun x => x != 0xFFFF && !used.contains x)).getD
      (pickId used draw)
  | [] => pickId used draw

/-- The domain of a launch: a live one of the same job goes on, else one is created (R23, R357, R429). The membership table
gives its devices, those that have failed, and its epoch (23 R397, R399). -/
def State.domainFor (s : State) (v n : Nat) (r : Rec) (members : List Nat) (dcs : Tab W64) : Nat × State :=
  let speed := members.map (fun c => (c, (tget s.plat.coreSpeed c {}).mhz))
  let teams := (List.range Config.teams).filter (fun t => members.any (fun c => teamOf c == t))
  let own := s.plat.devNo.toNat
  let key := (s.jobDomain v r.job).getD s.plat.domIds
  let old := s.domain key
  let table := (s.membership r.job).getD {}
  let id := spanId s.idsInUse table.devices own r.job s.plat.draws
  let ids := pickIds (id :: s.idsInUse) (s.plat.draws + 1) 3
  let base : Domain := if old.live then { old with collDone := [], collCount := [] } else
    { id := BitVec.ofNat 16 id, vf := v, job := r.job, step := BitVec.ofNat 48 r.step }
  let m : Domain :=
    { base with phaseIds := ids.map (BitVec.ofNat 16), levels := r.levels, node := n, record := r.order, members := members,
                devices := table.devices, absent := table.absent, epoch := table.epoch, counts := farCounts table.devices own s.plat.draws,
                deal := members.zip (deals (speed.map (fun p => p.2)) (r.rows * r.cols)), speed := speed,
                espeed := teams.map (fun t => (t, (tget s.plat.teamSpeed t {}).mhz)), retry := r.retry, dcs := dcs, total := 0, consec := 0, att := 0,
                paused := false, began := s.hbt, psTicks := [], coreReplays := members.map (fun c => (c, (s.core c).replays.toNat)),
                teamReplays := teams.map (fun t => (t, (s.team t).replays.toNat)),
                wdCount := 0, wdBudget := r.wdog, wdRaise := none, wdRun := true, runSince := s.hbt, prio := r.sel, cancel := false, ending := none,
                ppol := (s.node n).ppol, rweight := bf (s.node n).pcfg 0 4, live := true }
  let s := s.modPlat (fun p => { p with draws := p.draws + 4, domIds := if old.live then p.domIds else p.domIds + 1 })
  (key, s.modDomain key (fun _ => m))


/-- A launch begins (R64, R65): its members are prepared and context 0 of the root core starts; what other devices have sent for it
already is taken up. -/
def State.begin (s : State) (v n : Nat) (r : Rec) (members : List Nat) (dcs : Tab W64) : State :=
  let x := s.domainFor v n r members dcs
  let d := x.1
  let s := x.2.indexMembers d
  let s := members.foldl (fun s c => s.modCore c (fun co => co.launch d r.tcm (w64 r.retry) dcs)) s
  let m := s.domain d
  let s := m.clusters.foldl (fun s k => (s.modCluster k Cluster.launch).modTeams k Team.launch) s
  let s := match members with
    | root :: _ => (s.startLaunched root r.entry r.argp).modCore root Core.retain
    | [] => s
  ((s.modRec v r.order (fun q => { q with state := .running, domain := some d })).modNode n (fun x => { x with running := some d })).takeKept d

/-- The record that a node's gate holds. -/
def State.gating (s : State) (n : Nat) : Option (Nat × Rec) :=
  (s.plat.vfs.flatMap (fun p => if p.2.node = n then (p.2.records.filter (fun r => r.state == .gating)).map (fun r => (p.1, r)) else [])).head?

/-- The launch of a gated record admitted or ended (R57, R365, 23 R397); a saved one goes on from its area (22 R378), unless
one of its cores has been marked absent (22 R379). See log 37. -/
def State.admission (s : State) (n v : Nat) (r : Rec) : Except (List Chore) State :=
  match r.domain with
  | some d =>
    if (s.domain d).members.any s.coreAbsent then .ok (s.endLaunch d 2 15)
    else .ok ((s.modRec v r.order (fun q => { q with state := .restoring })).pend [.restoreDone d])
  | none =>
    match (nodeCores n).filter (fun c => !s.coreAbsent c) with
    | [] => .ok (s.endRecord v r.order 2 15 0 0)
    | first :: rest =>
      match s.readDcp first v r.dcp with
      | .error l => .error l
      | .ok (none, s) => .ok (s.endRecord v r.order 6 2 0 0)
      | .ok (some dcs, s) =>
        let spans := match s.membership r.job with | some m => decide (1 < m.devices.length) | none => false
        if spans && !Config.digestsAgree s.fresh then .ok ({ s with fresh := s.fresh + 1 }.endRecord v r.order 6 8 0 0)
        else .ok ({ s with fresh := s.fresh + 1 }.begin v n r (first :: rest) dcs)

/-- GATE_PASS (R361, R376): the gate is open; the launch is admitted with its speed snapshot. What it waits for is told. -/
def State.passGate (s : State) (n : Nat) : Except (List Chore) State :=
  match s.gating n with
  | none => .error []
  | some (v, r) =>
    if s.plat.warm then .error []
    else if !s.gateOpen v r then .error (s.wsetChores v)
    else (s.admission n v r).map (fun t => t.pend [.launchSelect n])

/-- GATE_PASS (R361). -/
def State.gatePass (s : State) (n : Nat) : Option State := (s.passGate n).toOption
/-- GATE_PASS (R361). -/
def execGatePass (n : Nat) (s : State) : Host.Outcome State Fault Refusal := event "GATE_PASS" (s.gatePass n)

/-! ### The paddock tree (R358) -/

/-- A command's RESULT. -/
def State.nodeResult (s : State) (n k : Nat) : State := s.modNode n (fun x => { x with result := k })
/-- VFs bound to a node, and whether one of them is locked (26 R427). -/
def State.bound (s : State) (n : Nat) : List Nat := (s.plat.vfs.filter (fun p => p.2.node == n)).map (fun p => p.1)
def State.nodeLocked (s : State) (n : Nat) : Bool := (s.bound n).any (fun v => (s.vf v).locked)

/-- SPLIT (R358). -/
def State.split (s : State) (n : Nat) : State :=
  if n = 0 ∨ 63 < n then s.nodeResult n 4
  else if (s.node n).state ≠ .idle then s.nodeResult n 1
  else
    let scrub := (s.node n).scrub
    let child := fun (x : Node) => { x with state := .idle, scrub := scrub }
    (((s.modNode (2 * n) child).modNode (2 * n + 1) child).modNode n (fun x => { x with state := .split })).nodeResult n 0

/-- SPLIT (R358). -/
def execSplit (n : Nat) (s : State) : Host.Outcome State Fault Refusal := .next (s.split n).quiet

/-- MERGE (R358). -/
def State.merge (s : State) (n : Nat) : State :=
  let a := s.node (2 * n)
  let b := s.node (2 * n + 1)
  if n = 0 then s.nodeResult n 4
  else if (s.node n).state ≠ .split ∨ a.state ≠ .idle ∨ b.state ≠ .idle then s.nodeResult n 1
  else if a.scrub ∨ b.scrub then s.nodeResult n 2
  else
    let child := fun (x : Node) => { x with state := .covered }
    (((s.modNode (2 * n) child).modNode (2 * n + 1) child).modNode n (fun x => { x with state := .idle, scrub := false })).nodeResult n 0

/-- MERGE (R358). -/
def execMerge (n : Nat) (s : State) : Host.Outcome State Fault Refusal := .next (s.merge n).quiet

/-- A VF's binding dropped: its job's domain ends (R357), its pages' frames return unscrubbed (R374), its function returns
to reset. -/
def State.unbind (s : State) (v : Nat) : State :=
  let t := s.vf v
  let s := s.domains.foldl (fun s p => if p.2.vf = v then s.modDomain p.1 (fun m => { m with live := false }) else s) s
  let orphan := fun (s : State) (f : Nat) => (s.dropFrame f).modPlat (fun p => { p with frames := tmod p.frames f {} (fun x => { x with orphan := t.node }) })
  let s := t.pages.foldl (fun s p => if pteV p.2 ∧ pteTier p.2 = 0 then (orphan s (pteFrame p.2)).pend [.backgroundScrub (pteFrame p.2)] else s) s
  let s := t.bigs.foldl (fun s p => (List.range 8192).foldl (fun s k => (orphan s (pteFrame p.2 + k)).pend [.backgroundScrub (pteFrame p.2 + k)]) s) s
  let s := t.tables.foldl (fun s p => (orphan s p.2).pend [.backgroundScrub p.2]) s
  (s.dropCaches (fun y => y.vf == v)).modPlat (fun p => { p with vfs := tput p.vfs v { bindResult := t.bindResult } })

/-- A node that loses its last VF is IDLE again, its pages to be scrubbed. -/
def State.afterUnbind (s : State) (n : Nat) : State :=
  if n ≠ 0 ∧ (s.bound n).isEmpty ∧ (s.node n).state = .active then (s.modNode n (fun x => { x with state := .idle, scrub := true })).clearScrub else s

/-- RELEASE (R358, 26 R427). -/
def State.release (s : State) (n : Nat) : State :=
  if n = 0 then s.nodeResult n 4
  else if s.nodeLocked n then s.nodeResult n 7
  else if (s.node n).state ≠ .held then s.nodeResult n 1
  else
    let s := (s.bound n).foldl State.unbind s
    ((s.modNode n (fun x => { x with state := .idle, scrub := true })).clearScrub).nodeResult n 0

/-- RELEASE (R358). -/
def execRelease (n : Nat) (s : State) : Host.Outcome State Fault Refusal := .next (s.release n).quiet

/-- PADDOCK_CONFIG_WRITE (R359, 26 R427): PPOL, PCFG, PMEM or PPOOL with its checks; other offsets ignore writes (R352). -/
def State.paddockConfigWrite (s : State) (n off : Nat) (x : W64) : State :=
  if off = 0x10 then
    if bf x 48 16 ≠ 0 then s.nodeResult n 6
    else if s.nodeLocked n then s.nodeResult n 7
    else (s.modNode n (fun y => { y with ppol := x.setWidth 48 })).nodeResult n 0
  else if off = 0x18 then
    if bf x 5 3 ≠ 0 ∨ bf x 40 24 ≠ 0 ∨ bf x 0 4 = 0 then s.nodeResult n 6
    else if s.nodeLocked n ∧ bit x 4 then s.nodeResult n 7
    else (s.modNode n (fun y => { y with pcfg := x })).nodeResult n 0
  else if off = 0x20 then
    if bit x 15 ∨ bit x 31 ∨ bf x 47 17 ≠ 0 ∨ bf x 32 15 < bf x 16 15 ∨ bf x 0 15 < bf x 32 15 then s.nodeResult n 6
    else (s.modNode n (fun y => { y with pmem := x })).nodeResult n 0
  else if off = 0x30 then
    if (s.node n).state = .active then s.nodeResult n 3
    else (s.modNode n (fun y => { y with ppool := BitVec.ofNat 16 (bf x 0 16) })).nodeResult n 0
  else s

/-- PADDOCK_CONFIG_WRITE (R359). -/
def execPaddockConfigWrite (n off : Nat) (x : W64) (s : State) : Host.Outcome State Fault Refusal := .next (s.paddockConfigWrite n off x).quiet

/-! ### Bindings (R360) -/

/-- The lowest free key slot of 1 to 255 (21 R375). -/
def State.freeKeySlot (s : State) : Nat :=
  let used := (s.plat.vfs.filter (fun p => p.2.node != 0)).map (fun p => p.2.keyid)
  ((List.range 256).find? (fun k => k != 0 && !used.contains k)).getD 0

/-- A fresh 512-bit key of eight drawings (21 R375). -/
def freshKey512 (k : Nat) : BitVec 512 := BitVec.ofNat 512 (((List.range 8).map (fun i => (Config.freshKey (k + i)).toNat * 2 ^ (64 * i))).sum)

/-- A VF bound to a node (R358, R360): a fresh paddock key, a key slot with a fresh key, the launch window at reset; the
node's first binding clears its engine gate (25 R419). -/
def State.bind (s : State) (v n : Nat) : State :=
  let k := s.plat.draws
  let slot := s.freeKeySlot
  let s := s.modPlat (fun p => { p with draws := k + 9, vfs := tput p.vfs v { node := n, keyid := slot, key := freshKey512 (k + 1) } })
  s.modNode n (fun x => { x with state := .active, key := Config.freshKey k, egate := if x.state = .idle then false else x.egate })

/-- VF_BIND (R360): its RESULT goes to the binding entry. -/
def State.vfBind (s : State) (v : Nat) (x : W64) : State :=
  let done := fun (s : State) (k : Nat) => s.modVf v (fun t => { t with bindResult := k })
  let t := s.vf v
  let n := bf x 0 7
  if v = 0 ∨ Config.vfs < v then s
  else if bit x 7 ∨ bf x 11 53 ≠ 0 then done s 4
  else if n = t.node then done s 0
  else if t.locked then done s 5
  else if !t.records.isEmpty then done s 2
  else if n ≠ 0 ∧ (s.node n).state ≠ .idle ∧ (s.node n).state ≠ .active then done s 1
  else
    let s := if t.node = 0 then s else (s.unbind v).afterUnbind t.node
    done (if n = 0 then s else s.bind v n) 0

/-- VF_BIND (R360). -/
def execVfBind (v : Nat) (x : W64) (s : State) : Host.Outcome State Fault Refusal := .next (s.vfBind v x).quiet

end Sys2Proof.Machine
end

