-- ==== Sys2Proof/Machine/Yield.lean ====
section
/-!
DEFINITION. Yield (22 R378-R380), migration (22 R381, R382), the warm reset (22 R383-R386), and start (22 R387-R389).
-/

namespace Sys2Proof.Machine

open Sys2Proof

/-! ### Saving (R378, R380) -/

/-- SAVE_SIGNAL (R378): a member's save stub has written its image; the last signal starts the copy. -/
def State.saveSignal (s : State) (c : Nat) : Option State :=
  match (s.core c).domain with
  | none => none
  | some d =>
    let m := s.domain d
    if (s.core c).phase ≠ .yielded ∨ m.saved.contains c ∨ !s.recIs d .saving then none
    else
      let s := s.modDomain d (fun m => { m with saved := c :: m.saved, away := true })
      if m.members.all (fun k => k == c || m.saved.contains k) then some ((s.modLaunch d (fun r => { r with state := .copying })).pend [.copySaveDone d])
      else some s

/-- SAVE_SIGNAL (R378). -/
def execSaveSignal (c : Nat) (s : State) : Host.Outcome State Fault Refusal := event "SAVE_SIGNAL" (s.saveSignal c)

/-- The committed images of a cluster's versioned windows, every byte of them. -/
def Cluster.versioned (k : Cluster) (num : Nat) : Bytes :=
  ((k.windowRanges (fun c => c == 1)).flatMap (fun r => (List.range r.2).map (fun i => (r.1 + i) % Config.padBytes))).foldl
    (fun t a => tput t a (k.committedByte num a)) []

/-- The context area of a domain (R378): images, TCM outside scratch, window tables, versioned windows, pending chains that
no fault has ended, and the tiles' recorded sources (R379). See log 38. -/
def State.areaOf (s : State) (d : Nat) : Area :=
  let m := s.domain d
  let teams := (List.range Config.teams).filter (fun t => m.members.any (fun c => teamOf c == t))
  { record := m.record, domain := d
    keeps := m.members.map (fun c => (c, (s.core c).keep))
    tcms := m.members.map (fun c => (c, (s.core c).tcm.filter (fun b => !inScratch (s.core c).tcmcfg b.1)))
    wins := m.clusters.map (fun k => (k, (s.cluster k).wins))
    pads := m.clusters.map (fun k => (k, (s.cluster k).versioned k))
    chains := teams.flatMap (fun t => (s.team t).chains.filter (fun h => !h.dead))
    sources := teams.filterMap (fun t => (s.team t).keepSource.map (fun x => (t, x))) }

/-- The copy ends: the area is kept, the cores are free, the launch is YIELDED (R361, R378), or ends if it was cancelled
meanwhile (R380). See log 38. -/
def State.saveArea (s : State) (d : Nat) : State :=
  let m := s.domain d
  let a := s.areaOf d
  let s := s.flipTrend d
  let s := s.modVf m.vf (fun t => { t with areas := a :: t.areas.filter (fun x => x.domain != d) })
  let s := m.members.foldl (fun s c => s.modCore c Core.idle) s
  let s := m.clusters.foldl (fun s k => s.modTeams k (fun t => { t with chains := [], tile := none, source := none })) s
  let s := (s.modLaunch d (fun r => { r with state := .yielded })).modDomain d (fun m => { m with away := true, saved := [], wdRun := false })
  let s := (s.recordSet m.vf).modNode m.node (fun n => { n with running := none, outgoing := m.vf })
  (if m.cancel then s.endLaunch d 4 0 else s).pend [.recomputeDrop m.node, .launchSelect m.node]

/-- COPY_SAVE_DONE (R378). -/
def State.copySaveDone (s : State) (d : Nat) : Option State := if s.recIs d .copying then some (s.saveArea d) else none
/-- COPY_SAVE_DONE (R378). -/
def execCopySaveDone (d : Nat) (s : State) : Host.Outcome State Fault Refusal := event "COPY_SAVE_DONE" (s.copySaveDone d)

/-! ### Restoring (R378, R379) -/

/-- A core reloaded from the area: its image, its TCM, scratch unknown, the launch's TCMCFG. What 02 R44 leaves unrestored is
not saved (R379): BARRES, BSTRAG, BSTAT and the debug state are the core's own. See log 24. -/
def Core.reload (c : Core) (d : Nat) (tcm : W64) (k : Keep) (b : Bytes) : Core :=
  let now := c.ctxs
  { c.newAttempt with
    ctxs := (List.range 5).filterMap (fun i =>
      if (tfind k.ctxs i).isNone && (tfind now i).isNone then none
      else some (i, Ctx.restored (tget now i {}) (tget k.ctxs i {}) none)),
    rings := k.rings, views := k.views, dealt := k.dealt, started := k.started, mail := k.mail, keep := k, tcm := b, bad := [], badLog := [], marked := [], markedLog := [], scratch := [], gen := c.gen + 1,
    chanN := [], chanE := [], chanS := [], chanW := [], phase := .run, slot := 0, domain := some d, margin := false, marginCount := 0, tcmcfg := tcm }

/-- A cluster reloaded: its window table with stage windows absent, the bytes of its versioned windows, every other byte
unknown. -/
def Cluster.reload (k : Cluster) (wins : Tab Win) (b : Bytes) : Cluster :=
  let wins := wins.map (fun p => (p.1, if p.2.cls = 2 then p.2.setState 1 else p.2))
  let k := k.launch
  { k with wins := wins, keepWins := wins, pad := b, bad := [], badLog := [], marked := [], markedLog := [], gen := k.gen + 1, lost := [{ gen := k.gen + 1, ranges := [(0, Config.padBytes)] }] }

/-- A page-fetch chain that runs again from its head. -/
def Chain.again (h : Chain) : Chain := { h with elems := h.elems.map (fun e => { e with started := false, landed := false, skipped := false }) }

/-- A launch is back on its cores. -/
def State.restoreArea (s : State) (d : Nat) (a : Area) (r : Rec) : State :=
  let m := s.domain d
  let s := s.flipTrend d
  let s := m.members.foldl (fun s c => s.modCore c (fun co => co.reload d r.tcm (tget a.keeps c {}) (tget a.tcms c []))) s
  let s := m.clusters.foldl (fun s k => (s.modCluster k (fun x => x.reload (tget a.wins k []) (tget a.pads k []))).modTeams k Team.launch) s
  let s := a.sources.foldl (fun s p => s.modTeam p.1 (fun t => { t with source := some p.2, keepSource := some p.2 })) s
  let s := a.chains.foldl (fun s h => (s.modTeam (teamOf h.core) (fun t => t.addChain h.again)).pend [.pfeRun (teamOf h.core)]) s
  let s := s.modDomain d (fun m => { m with away := false, saved := [], wdCount := 0, wdRun := true, runSince := s.hbt, prio := r.sel })
  let s := s.modVf m.vf (fun t => { t with areas := t.areas.filter (fun x => x.domain != d) })
  let s := (s.modLaunch d (fun q => { q with state := .running, preserved := false })).modNode m.node (fun n => { n with running := some d })
  (m.members.foldl State.checkArrive s).pend (m.shrinks.map (fun v => .deviceFailed d v) ++ s.collChores d)

/-- RESTORE_DONE (R378): every core has reloaded its image, and the launch runs; one cancelled meanwhile ends. -/
def State.restoreDone (s : State) (d : Nat) : Option State :=
  let m := s.domain d
  match (s.vf m.vf).areas.find? (fun a => a.domain == d), (s.vf m.vf).records.find? (fun r => r.domain == some d && r.state == .restoring) with
  | some a, some r => some (if m.cancel then s.endLaunch d 4 0 else s.restoreArea d a r)
  | _, _ => none

/-- RESTORE_DONE (R378). -/
def execRestoreDone (d : Nat) (s : State) : Host.Outcome State Fault Refusal := event "RESTORE_DONE" (s.restoreDone d)

/-! ### Migration (R381, R382) -/

/-- MGARG's fields, and the ticket of MGTICKET. -/
def State.mgVf (s : State) : Nat := bf (s.pf 0x200008) 0 8
def State.mgDev (s : State) : Nat := bf (s.pf 0x200008) 8 12
def State.mgTicket (s : State) : List W64 := (List.range 4).map (fun i => s.pf (0x200020 + 8 * i))

/-- A migration command ends with its RESULT. -/
def State.mgDone (s : State) (k : Nat) : State := s.modPlat (fun p => { p with migResult := k })

/-- EXPORT (R381, R385, 26 R427): the ticket is four fresh words; the VF's records are no longer selected. See log 39. -/
def State.exportTenant (s : State) : State :=
  let v := s.mgVf
  let t := s.vf v
  if v = 0 ∨ Config.vfs < v ∨ t.node = 0 then s.mgDone 1
  else if t.locked then s.mgDone 9
  else if t.records.any Rec.busy then s.mgDone 2
  else if t.exported.isSome then s.mgDone 6
  else
    let ticket := (List.range 4).map (fun i => Config.freshKey (s.plat.draws + i))
    let s := s.modPlat (fun p => { p with draws := p.draws + 4 })
    let s := s.modVf v (fun t => { t with exported := some { dev := s.mgDev, ticket := ticket } })
    ((List.range 4).foldl (fun s i => s.setPf (0x200020 + 8 * i) (ticket.getD i 0)) s).mgDone 0

/-- EXPORT (R381). -/
def execExportTenant (s : State) : Host.Outcome State Fault Refusal := .next s.exportTenant.quiet

/-- The live domains of a tenant's jobs that no launch uses now (20 R357). -/
def State.jobsBetween (s : State) (v : Nat) : List Domain :=
  (s.domains.filter (fun p => p.2.live && p.2.vf == v && !(s.vf v).areas.any (fun a => a.domain == p.1))).map (fun p => p.2)

/-- The tenant that MGTICKET names: one of this device exported to itself, or one that another device exports to it.
See log 8. -/
def State.ticketed (s : State) : Option Emigrant :=
  let dev := s.plat.devNo.toNat
  match s.plat.vfs.find? (fun p => match p.2.exported with | some e => e.dev == dev && e.ticket == s.mgTicket && !e.used | none => false) with
  | some p =>
    some { ticket := s.mgTicket, src := dev, tenant := p.2,
           frames := (p.2.pages.filter (fun q => pteV q.2 && pteTier q.2 == 0)).map (fun q => (q.1, s.frameBytes (pteFrame q.2 % 2 ^ 24)))
                     ++ p.2.bigs.flatMap (fun q => (List.range 8192).map (fun k => (q.1 * 8192 + k, s.frameBytes ((pteFrame q.2 + k) % 2 ^ 24)))),
           marks := (p.2.pages.filter (fun q => pteV q.2 && pteTier q.2 == 0)).map (fun q => (q.1, s.marksOf (pteFrame q.2 % 2 ^ 24)))
                    ++ p.2.bigs.flatMap (fun q => (List.range 8192).map (fun k => (q.1 * 8192 + k, s.marksOf ((pteFrame q.2 + k) % 2 ^ 24)))),
           domains := p.2.areas.map (fun a => s.domain a.domain), jobs := s.jobsBetween p.1,
           colls := s.dies.flatMap (fun x => (x.2.colls.filter (fun o => o.2.vf == p.1)).map (fun o => o.2)),
           tables := s.plat.members.filter (fun m => p.2.stored.any (fun r => r.job == m.job && m.job != 0)) }
  | none => s.plat.foreign.find? (fun x => x.ticket == s.mgTicket)

/-- The bytes of a page of the moved tenant, and its poison marks. -/
def Emigrant.bytes (x : Emigrant) (page : Nat) : Bytes × Tab (BitVec 64) :=
  match tfind x.frames page with
  | some b => (b, tget x.marks page [])
  | none => match tfind x.tenant.backing page with | some b => (b.bytes, b.marks) | none => ([], [])

/-- A page landed in the target VF's table: at tier 0 while frames last, else in its backing region, still as ciphertext
(R381); unpopulated pages move nothing. -/
def State.landPage (s : State) (v page : Nat) (e : W64) (x : Emigrant) : Option State :=
  let key := if pteKey e = 0 then s.plat.moduleKey else x.tenant.key
  let e := bput e 7 8 (if pteKey e = 0 then 0 else (s.vf v).keyid)
  let b := x.bytes page
  match s.addTables v 2 (page * 65536) with
  | none => none
  | some s =>
    if pteTier e = 3 ∨ !pteV e then some (s.setPage v page e)
    else
      match (if 0 < s.freeOf (s.vf v).node then s.freeFrame none (if pteClass e = 3 then some (ptePch e) else none) else none) with
      | some f => some ((((s.takeFrame f v page).fillFrame f b.1).setMarks f b.2).setPage v page (bput (bput (bput (bput e 5 2 0) 34 30 f) 15 1 0) 17 1 1))
      | none =>
        if !s.room v 2 then none
        else
          let c : Backed := { tier := 2, index := (s.vf v).freeIndex 2, bytes := b.1, key := key, marks := b.2 }
          some ((s.setPage v page (bput (bput (bput (bput e 5 2 2) 34 30 c.index) 15 1 0) 17 1 0)).putBacked v page c)

/-- A 512 MiB page landed in a run of frames. -/
def State.landBig (s : State) (v i : Nat) (e : W64) (x : Emigrant) : Option State :=
  if s.freeOf (s.vf v).node < 8192 then none
  else (s.addTables v 1 (i * 2 ^ 29)).bind (fun s => (s.frameRun 8192).map (fun f =>
    let s := (List.range 8192).foldl (fun s k =>
      let b := x.bytes (i * 8192 + k)
      (((s.takeFrame (f + k) v (i * 8192 + k)).fillFrame (f + k) b.1)).setMarks (f + k) b.2) s
    let e := bput (bput (bput e 7 8 (if pteKey e = 0 then 0 else (s.vf v).keyid)) 34 30 f) 15 1 0
    s.modVf v (fun t => { t with bigs := tput t.bigs i e })))

/-- The populated pages of a tenant: those whose bytes a migration moves. -/
def Vf.populated (t : Vf) : Tab W64 := t.pages.filter (fun p => pteV p.2 && pteTier p.2 != 3)

/-- The target holds the recorded working set and the 512 MiB pages at tier 0 and every other page in tier 2 (R382). -/
def State.fits (s : State) (v : Nat) (x : Emigrant) : Bool :=
  let set := x.tenant.populated.filter (fun p => x.tenant.wset.contains p.1)
  let rest := x.tenant.populated.filter (fun p => !x.tenant.wset.contains p.1)
  decide (set.length + 8192 * x.tenant.bigs.length ≤ s.freeOf (s.vf v).node) &&
  decide (rest.length + ((s.vf v).backing.filter (fun b => b.2.tier == 2)).length ≤ bf (s.vf v).tblen 0 32)

/-- The page tables and pages pulled: 512 MiB pages and the working set first, so that they lie at tier 0 (R382). -/
def State.pullPages (s : State) (v : Nat) (x : Emigrant) : Option State :=
  if !s.fits v x then none
  else
    let s := x.tenant.bigs.foldlM (fun (s : State) p => s.landBig v p.1 p.2 x) s
    let set := x.tenant.pages.filter (fun p => x.tenant.wset.contains p.1)
    let rest := x.tenant.pages.filter (fun p => !x.tenant.wset.contains p.1)
    let s := s.bind (fun s => set.foldlM (fun (s : State) p => s.landPage v p.1 p.2 x) s)
    let s := s.bind (fun t => if set.all (fun p => match tfind (t.vf v).pages p.1 with | some e => pteTier e != 2 | none => true) then some t else none)
    s.bind (fun s => rest.foldlM (fun (s : State) p => s.landPage v p.1 p.2 x) s)

/-- MiB moved (R385). -/
def Emigrant.mib (x : Emigrant) : Nat := x.tenant.populated.length / 16 + 512 * x.tenant.bigs.length

/-- A saved launch's area, its cores renumbered from the source paddock's clusters to the target's. -/
def Area.shift (a : Area) (d fromC toC : Nat) : Area :=
  let core := fun c => c + 128 * toC - 128 * fromC
  let team := fun t => t + 16 * toC - 16 * fromC
  let clu := fun k => k + toC - fromC
  { a with domain := d, keeps := a.keeps.map (fun p => (core p.1, p.2)), tcms := a.tcms.map (fun p => (core p.1, p.2)),
           wins := a.wins.map (fun p => (clu p.1, p.2)), pads := a.pads.map (fun p => (clu p.1, p.2)),
           chains := a.chains.map (fun h => { h with core := core h.core }),
           sources := a.sources.map (fun p => (team p.1, { p.2 with core := core p.2.core })) }

/-- A device number put in its place in an increasing list. -/
def insertDev (l : List Nat) (v : Nat) : List Nat := l.filter (fun x => decide (x < v)) ++ v :: l.filter (fun x => decide (v < x))
/-- A membership list in which the target device stands for the source (R382), in increasing order (23 R397). -/
def movedDevices (l : List Nat) (src own : Nat) : List Nat := if l.contains src then insertDev (l.filter (fun x => x != src)) own else l

/-- The membership table of a job that moves: the source's entry is rewritten (R382). -/
def State.moveMembership (s : State) (m : Membership) (src : Nat) : State :=
  if m.devices.isEmpty then s
  else
    let old := (s.membership m.job).getD m
    let new := { old with devices := movedDevices old.devices src s.plat.devNo.toNat }
    s.modPlat (fun p => { p with members := new :: p.members.filter (fun e => e.job != m.job) })

/-- A domain as it comes to a VF of this device, its lists of devices rewritten. -/
def Domain.moved (m : Domain) (v src own : Nat) : Domain :=
  { m with vf := v, devices := movedDevices m.devices src own, counts := m.counts.filter (fun p => p.1 != own), live := true }
/-- A domain between launches moved to a VF. -/
def State.landJob (s : State) (v : Nat) (src : Nat) (m : Domain) : State :=
  let d := s.plat.domIds
  (s.modPlat (fun p => { p with domIds := d + 1 })).modDomain d (fun _ => { m.moved v src s.plat.devNo.toNat with node := (s.vf v).node })
/-- A collective operation moved to the die that its core has now: in the lowest slot that is free. See log 39. -/
def State.landColl (s : State) (v d c : Nat) (o : Coll) : State :=
  s.modDie (dieOf c) (fun x =>
    let slot := ((List.range (x.colls.length + 1)).find? (fun i => (tfind x.colls i).isNone)).getD 0
    { x with colls := tput x.colls slot { o with vf := v, dom := d, core := c } })

/-- One saved launch with its domain moved to a VF; its record's place counts from base. The tree of 23 R398 and the member
indices follow the rewritten list. -/
def State.landLaunch (s : State) (v base : Nat) (x : Emigrant) (a : Area) (m : Domain) : State :=
  let d := s.plat.domIds
  let n := (s.vf v).node
  let f := (nodeRange m.node).1
  let t := (nodeRange n).1
  let core := fun c => c + 128 * t - 128 * f
  let own := s.plat.devNo.toNat
  let s := (s.moveMembership { job := m.job, devices := m.devices, absent := m.absent, epoch := m.epoch } x.src).modPlat
    (fun p => { p with domIds := d + 1 })
  let s := s.modDomain d (fun _ =>
    { m.moved v x.src own with
             node := n, record := base + m.record, members := m.members.map core, deal := m.deal.map (fun p => (core p.1, p.2)),
             speed := m.speed.map (fun p => (core p.1, p.2)), espeed := m.espeed.map (fun p => (p.1 + 16 * t - 16 * f, p.2)),
             coreReplays := m.coreReplays.map (fun p => (core p.1, p.2)), teamReplays := m.teamReplays.map (fun p => (p.1 + 16 * t - 16 * f, p.2)) })
  let s := (x.colls.filter (fun o => o.dom == a.domain)).foldl (fun s o => s.landColl v d (core o.core) o) s
  let chains := (a.shift d f t).chains.map (fun h => { h with vf := v })
  let s := s.modVf v (fun y => { y with areas := y.areas ++ [{ a.shift d f t with chains := chains, record := base + a.record }] })
  (s.modRec v (base + a.record) (fun r => { r with domain := some d })).indexMembers d

/-- The unretired records pulled (R361), ended ones with the entries that still wait; their TENANT is rewritten, and they
take places after the target's in their own order. -/
def State.pullRecords (s : State) (v : Nat) (x : Emigrant) : State :=
  let base := s.plat.order
  let r := x.tenant.records.map (fun q => { q with words := q.words.set 3 (bput (q.w 3) 40 8 v), order := base + q.order, domain := none, preserved := false })
  let s := s.modVf v (fun t => { t with key := x.tenant.key, keySet := x.tenant.keySet, wset := x.tenant.wset, wbigs := x.tenant.wbigs, records := r,
                                        waitingEntries := x.tenant.waitingEntries.map (fun e => { e with tenant := v }) })
  let s := s.modPlat (fun p => { p with order := r.foldl (fun n q => Nat.max n (q.order + 1)) base })
  let s := x.tables.foldl (fun s m => s.moveMembership m x.src) s
  let s := x.jobs.foldl (fun s m => s.landJob v x.src m) s
  ((x.tenant.areas.zip x.domains).foldl (fun s p => s.landLaunch v base x p.1 p.2) s).flushCompletions v

/-- A job of the tenant spans devices and is not yielded as a whole (R382): one of its domains, or a record that has not ended
and belongs to no yielded launch of its job. -/
def Emigrant.spansOpen (x : Emigrant) : Bool :=
  (x.domains ++ x.jobs).any (fun m => decide (1 < m.devices.length) && !m.away)
    || x.tables.any (fun t => decide (1 < t.devices.length) && !x.domains.any (fun m => m.job == t.job && m.away)
         && x.tenant.stored.any (fun r => r.job == t.job && r.state != .ended))

/-- The checks of IMPORT in order, with what they let through. A commit domain that spans devices must be yielded as a whole,
and no domain may bring an identifier in use here (02 R429). See log 39. -/
def State.importCheck (s : State) (v : Nat) : Except Nat (Emigrant × State) :=
  let t := s.vf v
  match s.ticketed with
  | none => .error 6
  | some x =>
    let recs := x.tenant.stored
    if t.node = 0 ∨ !t.records.isEmpty ∨ t.exported.isSome then .error 8
    else if recs.any (fun r => r.feat &&& (Config.fset.toNat ^^^ (2 ^ 32 - 1)) != 0) then .error 3
    else if recs.any (fun r => r.psize != nodeLog t.node) then .error 4
    else if x.spansOpen then .error 2
    else if x.src ≠ s.plat.devNo.toNat ∧ (x.domains ++ x.jobs).any (fun m => s.idsInUse.contains m.id.toNat || m.phaseIds.any (fun i => s.idsInUse.contains i.toNat)) then .error 5
    else match s.pullPages v x with
      | none => .error 5
      | some s => .ok (x, s)

/-- IMPORT (R381, R382): the tenant named by MGTICKET is pulled into the VF of MGARG; a fabric failure leaves nothing. -/
def State.importTenant (s : State) (fabricOk : Bool) : State :=
  let v := s.mgVf
  let s := s.modPlat (fun p => { p with imported := 0 })
  if v = 0 ∨ Config.vfs < v then s.mgDone 1
  else if (s.vf v).locked then s.mgDone 9
  else match s.importCheck v with
    | .error k => s.mgDone k
    | .ok (x, t) =>
      if !fabricOk then s.mgDone 7
      else
        let t := (t.pullRecords v x).modPlat (fun p =>
          { p with foreign := p.foreign.filter (fun y => y.ticket != x.ticket), imported := BitVec.ofNat 32 x.mib,
                   vfs := p.vfs.map (fun y => (y.1, { y.2 with exported := y.2.exported.map (fun e => if e.ticket = x.ticket then { e with used := true } else e) })) })
        (t.pend [.launchSelect (t.vf v).node]).mgDone 0

/-- IMPORT (R382). -/
def execImportTenant (fabricOk : Bool) (s : State) : Host.Outcome State Fault Refusal := .next (s.importTenant fabricOk).quiet

/-- IMPORT_CONFIRM (R381): the source drops the tenant's records, pages, saved launches, domains and collective operations,
without completion entries. A
ticket for this device itself is confirmed only when it has been used. -/
def State.importConfirm (s : State) (v : Nat) : Option State :=
  let t := s.vf v
  match t.exported with
  | none => none
  | some e =>
    if e.dev = s.plat.devNo.toNat ∧ !e.used then none
    else
      let s :=
        { s with
          domains := s.domains.map (fun (p : Nat × Domain) => if p.2.vf = v then (p.1, { p.2 with live := false }) else p)
          dies := s.dies.map (fun (p : Nat × Die) => (p.1, { p.2 with colls := p.2.colls.filter (fun o => o.2.vf != v) })) }
      let s := t.bigs.foldl (fun s p => s.unmapBig v p.1) s
      let s := t.pages.foldl (fun s p => s.unmap v p.1) s
      let s := t.tables.foldl (fun s p => s.dropFrame p.2) s
      some (s.modVf v (fun t => { t with records := [], waitingEntries := [], areas := [], pages := [], tables := [], backing := [], wset := [], wbigs := [],
                                         written := [], exported := none }))

/-- IMPORT_CONFIRM (R381). -/
def execImportConfirm (v : Nat) (s : State) : Host.Outcome State Fault Refusal := event "IMPORT_CONFIRM" (s.importConfirm v)

/-- ABANDON (R381): the records are selectable again and the ticket is void. -/
def State.abandon (s : State) : State :=
  let v := s.mgVf
  match (s.vf v).exported with
  | some e =>
    if e.used then s.mgDone 6
    else ((s.modVf v (fun t => { t with exported := none })).pend [.launchSelect (s.vf v).node]).mgDone 0
  | none => s.mgDone 6

/-- ABANDON (R381). -/
def execAbandon (s : State) : Host.Outcome State Fault Refusal := .next s.abandon.quiet

/-! ### The warm reset (R383, R384) -/

/-- A paddock lies in the failed set. -/
def inFailed (failed : W64) (n : Nat) : Bool :=
  let r := nodeRange n
  (List.range (r.2 - r.1)).any (fun i => bit failed (r.1 + i))

/-- A commit of the domain lies between DECIDE and RESUME: one is decided, or members that have committed await RESUME. -/
def State.committing (s : State) (m : Domain) : Bool :=
  (match m.decision with | some x => x.dec != 2 | none => false) || m.members.any (fun c => (s.core c).phase == .commit)
/-- Its members have committed or restored, and none has resumed yet: no superstep is open. -/
def State.awaitsResume (s : State) (m : Domain) : Bool := m.members.all (fun c => (s.core c).phase == .commit || (s.core c).phase == .restore)

/-- A die's homes commit at once: the pages that deltas go to are brought up first (R39, 21 R370). -/
def State.commitDieNow (s : State) (d k : Nat) : State :=
  ((s.deltaWaits k (s.domain d).vf).foldl (fun (s : State) c => match c with | .pageBringUp v p => (s.bringUp v p).getD s | _ => s) s).commitDie d k

/-- QUIESCE outside the failed set: a commit runs to its end, an abort or an open superstep is restored locally; so is the one that
some members have begun while others still await RESUME. -/
def State.quiesce (s : State) (d : Nat) : State :=
  let m := s.domain d
  let todo := m.parties.filter (fun p => !m.done.contains p)
  match m.decision with
  | some x =>
    if x.dec = 2 then
      let s := todo.foldl (fun (s : State) p => match p with | .core c => s.abortCore (some x) c | .cluster k => s.abortCluster k | .die k => s.abortDie d k) s
      s.finishAbort d x
    else
      let s := todo.foldl (fun (s : State) p => match p with | .core c => s.commitCore x c | .cluster k => s.commitCluster k | .die k => s.commitDieNow d k) s
      s.finishCommit d x
  | none =>
    if s.recIs d .saving ∨ s.recIs d .copying ∨ s.awaitsResume m then s
    else
      let s := m.members.foldl (fun s c => s.abortCore none c) s
      let s := m.clusters.foldl (fun s k => s.abortCluster k) s
      let s := (List.range Config.dies).foldl (fun s k => s.abortDie d k) s
      s.modDomain d (fun m => { m with total := m.total + 1, consec := (m.consec + 1) % 256, att := (m.att + 1) % 256, landed := 0, given := 0, insts := [], pseqs := [], gangs := [], pushes := [], changed := [], inbox := [], nodes := [],
                                       root := none, arrivals := [], polling := [], pollAt := none, strag := none })

/-- A running launch at the reset (R384): saved at its last commit, or ended with FAULT in the failed set. -/
def State.resetLaunch (s : State) (failed : W64) (n d : Nat) : State :=
  let m := s.domain d
  if inFailed failed n then
    let s := if s.committing m then s.modPlat (fun p => { p with wrMixed := true }) else s
    let s := (List.range Config.dies).foldl (fun s k => s.abortDie d k) s
    s.endLaunch d 3 15
  else
    let s := s.quiesce d
    match (s.domain d).ending with
    | some st => s.endLaunch d st (match m.decision with | some x => x.acause | none => 15)
    | none =>
      if s.closing (s.domain d) then s.endLaunch d 0 0
      else (s.modLaunch d (fun r => if r.state = .running then { r with since := s.hbt } else r)).saveArea d

/-- The launches that run on a paddock. -/
def State.launchesOn (s : State) (n : Nat) : List Nat :=
  s.plat.vfs.flatMap (fun p => if p.2.node = n then
    p.2.records.filterMap (fun r => if r.state == .running || r.state == .saving || r.state == .copying then r.domain else none) else [])

/-- Every record that has not ended is preserved: those on their way go back to where they were selected. -/
def Rec.preserve (r : Rec) : Rec :=
  if r.state = .ended then r
  else { r with preserved := true, state := if r.state = .gating then (if r.domain.isSome then .yielded else .ready)
                                            else if r.state = .restoring then .yielded else r.state }

/-- Core, engine and network logic after its reset: memories keep their bytes, scratch is unknown, caches are empty; DONE counts since
the last start (23 R403). -/
def Core.reset (c : Core) : Core := { tcm := c.tcm, bad := c.bad, marked := c.marked, gen := c.gen + 1, phase := .ended }
def Cluster.reset (k : Cluster) : Cluster := { pad := k.dropScratch.pad, bad := k.bad, marked := k.marked, gen := k.dropScratch.gen, lost := k.dropScratch.lost }
def Die.reset (d : Die) (keep : Nat → Bool) : Die := { colls := d.colls.filter (fun o => keep o.2.dom), ceDone := d.ceDone, temp := d.temp, tempMax := d.tempMax }
/-- Links after the relink phase: sequence numbers start again; repair and narrowing end (23 R392); ports stay up or down as
they were. -/
def Edge.relink (e : Edge) : Edge :=
  { e with dir0 := { crc := e.dir0.crc, rpl := e.dir0.rpl }, dir1 := { crc := e.dir1.crc, rpl := e.dir1.rpl }, modules := [], down := false }
def Port.relink (p : Port) (now : Nat) : Port := { p with txNext := 0, rxNext := 0, buffer := [], fails := 0, failedRetrains := 0, skipping := false, lastBeat := now }

/-- The paddocks: nodes that are IDLE, ACTIVE or HELD (R358). -/
def Node.paddock (n : Node) : Bool := n.state == .idle || n.state == .active || n.state == .held

/-- The phases of a warm reset in one step (R383, R384, 26 R427). A trigger that comes in them escalates it: the device starts in
full. See log 40. -/
def State.runReset (s : State) (cause : Nat) (failed : W64) : State :=
  let s := s.modPlat (fun p => { p with wrMixed := false, wrCause := cause, wrFail := failed, warm := true })
  let running := (s.plat.nodes.map (fun p => p.1)).flatMap (fun n => (s.launchesOn n).map (fun d => (n, d)))
  let s := running.foldl (fun s x => s.resetLaunch failed x.1 x.2) s
  let dead := fun n => inFailed failed n
  let overrun := s.sched.pending.contains .warmResetOverrun
  { s with
    cores := s.cores.map (fun p => (p.1, p.2.reset))
    teams := []
    clusters := s.clusters.map (fun p => (p.1, p.2.reset))
    dies := s.dies.map (fun p => (p.1, p.2.reset (fun d => (s.domain d).away)))
    plat := { s.plat with
      vfs := s.plat.vfs.map (fun p => (p.1, { p.2 with
        records := p.2.records.map Rec.preserve
        held := if dead p.2.node ∧ p.2.node ≠ 0 ∧ (s.node p.2.node).state = .active then p.2.held + 1 else p.2.held
        tdisp := if p.2.tdisp = .locked ∨ p.2.tdisp = .run then .error else p.2.tdisp }))
      nodes := s.plat.nodes.map (fun p => (p.1, { p.2 with
        state := if p.2.paddock && dead p.1 then .held else p.2.state
        running := none, selectable := false }))
      edges := s.plat.edges.map (fun p => (p.1, p.2.relink))
      ports := s.plat.ports.map (fun p => (p.1, p.2.relink s.hbt))
      cycleBase := s.tick
      wrCount := satAdd s.plat.wrCount 1
      wrTime := Config.elapsed s.fresh
      warm := overrun }
    issue := {}
    fresh := s.fresh + 1
    sched := { turns := s.sched.turns, pending := s.sched.pending.filter (fun c => match c with | .backgroundScrub _ => true | .flashWrite => true | .warmResetOverrun => true | _ => false) } }

/-- The derates that firmware still holds (25 R410): a warm reset leaves no launch in their way. -/
def State.heldDerates (s : State) : List Chore :=
  (s.plat.coreSpeed.filter (fun p => p.2.pending)).map (fun p => .derate false p.1)
    ++ (s.plat.teamSpeed.filter (fun p => p.2.pending)).map (fun p => .derate true p.1)

/-- WARM_RESET (R383): the reset that is under way, or one that a trigger outside the module starts. See log 40. -/
def State.warmReset (s : State) (cause : Nat) (failed : W64) : Option State :=
  if s.plat.safe ∨ cause = 0 ∨ 3 < cause ∨ (s.plat.warm ∧ (s.plat.wrCause ≠ cause ∨ s.plat.wrFail ≠ failed)) then none
  else
    let s := s.runReset cause failed
    some (s.pend (s.plat.nodes.map (fun p => .launchSelect p.1) ++ s.heldDerates))

/-- WARM_RESET (R383). -/
def execWarmReset (cause : Nat) (failed : W64) (s : State) : Host.Outcome State Fault Refusal := event "WARM_RESET" (s.warmReset cause failed)

/-- WRCMD RESUME (R384, R385): a paddock that is not HELD may run its preserved launches again. -/
def State.wrcmdResume (s : State) (v : W64) : Option State :=
  if bf v 0 4 ≠ 2 then none
  else
    let n := bf v 4 7
    let done := fun (s : State) (k : Nat) => s.modPlat (fun p => { p with wrResult := k })
    if bf v 11 53 ≠ 0 ∨ !(s.node n).paddock then some (done s 1)
    else if (s.node n).state = .held then some (done s 2)
    else
      let s := s.modNode n (fun x => { x with selectable := true })
      let s := (s.bound n).foldl (fun s v => s.modVf v (fun t => { t with records := t.records.map (fun r => { r with preserved := false }) })) s
      some ((done s 0).pend [.launchSelect n])

/-- WRCMD RESUME (R384). -/
def execWrcmdResume (v : W64) (s : State) : Host.Outcome State Fault Refusal := event "WRCMD_RESUME" (s.wrcmdResume v)

/-- WDBUDGET (R385, R386): the running launch of the node in WDSEL gets a larger budget from the next tick on. -/
def State.wdbudget (s : State) (v : W64) : State :=
  if bf v 40 24 ≠ 0 then s
  else match (s.node (bf (s.pf 0x200200) 0 7)).running with
    | none => s
    | some d => if bf v 0 40 < (s.domain d).wdBudget then s else s.modDomain d (fun m => { m with wdRaise := some (bf v 0 40) })

/-- WDBUDGET (R386). -/
def execWdbudget (v : W64) (s : State) : Host.Outcome State Fault Refusal := .next (s.wdbudget v).quiet

/-! ### Start (R387-R389, 26 R420) -/

/-- Steps that may be skipped, and steps with an alternative (R387). -/
def stepOptional (k : Nat) : Bool := k == 9 || k == 14 || k == 15
def stepAlt (k : Nat) : Bool := k == 2 || k == 3 || k == 5 || k == 6 || k == 8 || k == 9 || k == 14 || k == 15

/-- The ROM accepts a bank (26 R420). -/
def FwBank.accepted (b : FwBank) (floor : BitVec 16) : Bool :=
  b.valid && Config.signatureOk b.image && decide (floor ≤ b.svn) && decide (b.length ≤ 8 * 2 ^ 20)

/-- How a step runs after its outcome on the previous start (R388): skipped, with its alternative, with twice its time. -/
def stepForm (prev : StartStep) (k : Nat) : Nat × Bool × Bool :=
  if prev.outcome ≠ 2 then (1, false, false)
  else if stepOptional k then (3, false, false)
  else if stepAlt k then (1, true, false)
  else (1, false, true)

/-- The bank that step 2 starts: the active one, else the other one, its alternative (26 R420), which is tried first after a
start whose step 2 failed (R388); a bank staged since the last start is the active one (26 R421). The module's first start
has its banks as made. -/
def Platform.boot (p : Platform) : Option (FwBank × Bool × Bool) :=
  let act := if p.staged then !p.active else p.active
  let alt := (stepForm (tget p.steps 2 {}) 2).2.1
  let order := if alt then [!act, act] else [act, !act]
  (order.map (fun k => (if k then p.bankB else p.bankA, k, k != act))).find? (fun x => x.1.accepted p.svnFloor)

/-- The start record is blank: step 3 runs with its alternative (R387). See log 41. -/
def Platform.blank (p : Platform) : Bool := (stepForm (tget p.steps 3 {}) 3).2.1

/-- The record of a step in a start in which some steps fail; after a blank record every later step runs in its plain form. -/
def State.runStep (s : State) (failing : List Nat) (k : Nat) : StartStep :=
  let f := if s.plat.blank && decide (3 < k) then (1, false, false) else stepForm (tget s.plat.steps k {}) k
  let boot := s.plat.boot
  let fail := failing.contains k || (k == 2 && boot.isNone)
  let alt := f.2.1 || (k == 2 && (match boot with | some b => b.2.2 | none => false))
  if f.1 = 3 then { attempts := 0, outcome := 3 }
  else { attempts := 1, outcome := if fail then 2 else 1, alt := alt, ext := f.2.2, time := Config.elapsed (s.fresh + k) }

/-- The edges after step 5 (R387): with 32 lanes per module in its alternative, and each module trained with the lanes that it finds
failing (23 R392). -/
def trainedEdges (narrow : Bool) (lanes : List (Nat × Nat × Nat × Nat)) : Tab Edge :=
  let modules : Tab Ucie := if narrow then (List.range 8).map (fun i => (i, { mstate := 2, narrow := true : Ucie })) else []
  let found := fun (e m d : Nat) => (lanes.filter (fun l => l.1 == e && l.2.1 == m && l.2.2.1 == d)).map (fun l => l.2.2.2)
  if !narrow && lanes.isEmpty then []
  else (List.range 4).map (fun e => (e, (List.range 8).foldl (fun (x : Edge) m =>
    if (found e m 0).isEmpty && (found e m 1).isEmpty then x else x.train m (found e m 0) (found e m 1)) { modules := modules }))

/-- The module as a start leaves it: everything of launches, tenants and links at reset; flash and fuses kept, but for an image that was being written: its bank stays
invalid (26 R421). The alias key is derived from the fused secret and the image's measurement (26 R423). See log 41. -/
def State.fromFlash (s : State) (steps : Tab StartStep) (ok : Bool) (found : StartInput) : State :=
  let p := s.plat
  let out := fun k => (tget steps k {}).outcome
  let boot := p.boot
  let image := match boot with | some b => b.1 | none => p.running
  let kept := fun (t : Tab Speed) => t.map (fun (x : Nat × Speed) => (x.1, { x.2 with pending := false }))
  { State.reset with
    hbt := 0
    fresh := s.fresh + 17
    sched := { turns := s.sched.turns }
    plat := { State.reset.plat with
      nodes := if ok then State.reset.plat.nodes else []
      steps := steps
      hostMem := p.hostMem, draws := p.draws, domIds := p.domIds, order := p.order
      devNo := if out 15 = 1 then BitVec.ofNat 12 found.dev else 0
      edges := trainedEdges (tget steps 5 {}).alt found.lanes
      failed := if (tget steps 8 {}).alt then [Config.failedUnit p.starts.toNat 8 % 64] else []
      ports := (List.range 32).map (fun k =>
        if out 14 = 3 ∨ (out 14 = 2 ∧ Config.failedUnit p.starts.toNat 14 % 32 = k) then (k, { state := 3 : Port })
        else (k, { state := 2, peer := (Config.cablePeer s.fresh k).toNat, pport := (Config.cablePort s.fresh k).toNat : Port }))
      coreSpeed := kept p.coreSpeed, teamSpeed := kept p.teamSpeed, withdrawn := p.withdrawn, lent := p.lent
      svnFloor := p.svnFloor, bankA := p.bankA, bankB := p.bankB
      running := image
      identity := { secret := Config.fusedSecret, image := none }
      aliasKey := { secret := Config.fusedSecret, image := some (sha3 image.image) }
      active := match boot with | some b => b.2.1 | none => p.active
      measuredFloor := p.svnFloor
      altBoot := match boot with | some b => b.2.2 | none => p.altBoot
      staged := false
      starts := if p.blank then 1 else p.starts + 1
      foreign := p.foreign } }

/-- START (R387, R388): every step runs in its form and is recorded; a failed start counts, and three hold the device.
See log 41. -/
def State.start (s : State) (found : StartInput) : Option State :=
  if s.plat.safe then none
  else
    let steps := (List.range 16).map (fun i => (i + 1, s.runStep found.failing (i + 1)))
    let bad := steps.filter (fun p => p.2.outcome == 2)
    let ok := bad.all (fun p => stepOptional p.1)
    let was := if s.plat.blank then 0 else s.plat.failCnt
    let cnt := if !ok then satAdd was 1 else if bad.isEmpty then 0 else was
    let t := s.fromFlash steps ok found
    some (t.modPlat (fun p => { p with failCnt := cnt, safe := decide (3 ≤ cnt.toNat), measuredSafe := decide (3 ≤ cnt.toNat), lastFail := ((bad.map (fun x => x.1)).getLast?).getD (if s.plat.blank then 0 else s.plat.lastFail) }))

/-- START (R387). -/
def execStart (found : StartInput) (s : State) : Host.Outcome State Fault Refusal :=
  event "START" (s.start found)

/-- WARM_RESET_OVERRUN (R383): a phase has overrun, or a second trigger has come; the device starts in full. -/
def State.warmResetOverrun (s : State) : Option State := if s.plat.warm then s.start { dev := s.plat.devNo.toNat } else none

/-- WARM_RESET_OVERRUN (R383). -/
def execWarmResetOverrun (s : State) : Host.Outcome State Fault Refusal := event "WARM_RESET_OVERRUN" s.warmResetOverrun

/-- ROVAS_COMMAND (R388): the safe-start hold is cleared. -/
def State.rovasCommand (s : State) : State := s.modPlat (fun p => { p with safe := false })

/-- ROVAS_COMMAND (R388). -/
def execRovasCommand (s : State) : Host.Outcome State Fault Refusal := .next s.rovasCommand.quiet

end Sys2Proof.Machine
end

