-- ==== Sys2Proof/Machine/Links.lean ====
section
/-!
DEFINITION. Links and fabric (23 R390-R404): replay on die-to-die edges, lane repair, a lost edge, Llynnal flits and what
they carry, the heartbeat, membership lists and failed devices.
-/

namespace Sys2Proof.Machine

open Sys2Proof

/-! ### Die-to-die edges (R391-R393) -/

/-- The module that a flit has worn out: its first sending and its first 8 replays have failed (R392). -/
def Dir.worn (x : Dir) : Option Flit := x.buffer.find? (fun y => decide (9 ≤ y.fails))

/-- D2D_FLIT_RECEIVE (R391): the number of the transmitter's next flit stands for a new one, others for flits sent again,
of which the expected one comes only after its NAK. A new flit that is not delivered is that of the next request to cross.
See log 42. -/
def State.d2dFlitReceive (s : State) (e d : Nat) (seq : BitVec 8) (crcOk : Bool) : Option State :=
  let x := s.edge e
  if 4 ≤ e ∨ 2 ≤ d ∨ x.dead ∨ (x.dir d).nak = some seq then none
  else
    let fresh := decide (seq = (x.dir d).txNext)
    match (if fresh then x.sendNew d else some x) with
    | none => none
    | some x =>
      let x := if fresh && ((x.dir d).skipping || !crcOk) then x.modDir d (fun z => { z with claims := z.claims ++ [seq.toNat] }) else x
      let y := x.modDir d (fun z => z.receive seq crcOk)
      let s := s.modEdge e (fun _ => y)
      match (y.dir d).worn with
      | some f => some (s.pend [.moduleRetrain e f.module])
      | none => some s

/-- D2D_FLIT_RECEIVE (R391). -/
def execD2dFlitReceive (e d : Nat) (seq : BitVec 8) (crcOk : Bool) (s : State) : Host.Outcome State Fault Refusal :=
  event "D2D_FLIT_RECEIVE" (s.d2dFlitReceive e d seq crcOk)

/-- The flits of a module count their replays anew. -/
def Dir.settle (x : Dir) (m : Nat) : Dir := { x with buffer := x.buffer.map (fun y => if y.module = m then { y with fails := 0 } else y) }
/-- A module starts to retrain (R392). -/
def Edge.retrain (x : Edge) (m : Nat) : Edge :=
  { x with modules := tput x.modules m { (x.module m) with mstate := 3 }, dir0 := x.dir0.settle m, dir1 := x.dir1.settle m }

/-- The module that carries a flit again (R391): the one it had, or the next active one after it. -/
def Edge.again (e : Edge) (m : Nat) : Nat :=
  if e.carries m then m else (((List.range 8).map (fun i => (m + 1 + i) % 8)).find? e.carries).getD m

/-- D2D_NAK (R391): the flits from the number on are sent again, in order; a module that carried a flit's 8th replay retrains
first, so that the 9th goes on another one (R392). -/
def State.d2dNak (s : State) (e d : Nat) : Option State :=
  let x := s.edge e
  match (x.dir d).nak with
  | none => none
  | some _ =>
    if 4 ≤ e ∨ 2 ≤ d ∨ x.dead then none
    else
      let y := match (x.dir d).worn with | some f => x.retrain f.module | none => x
      let s := s.modEdge e (fun _ => y.modDir d (fun z =>
        { z with nak := none, rpl := satAdd z.rpl 1, buffer := z.buffer.map (fun w => { w with module := y.again w.module }) }))
      some (if y.dead then s.pend [.edgeDown e] else s)

/-- D2D_NAK (R391). -/
def execD2dNak (e d : Nat) (s : State) : Host.Outcome State Fault Refusal := event "D2D_NAK" (s.d2dNak e d)

/-- MODULE_RETRAIN (R392): the worn module retrains; an edge left without an active module is down (R393). -/
def State.moduleRetrain (s : State) (e m : Nat) : Option State :=
  let x := s.edge e
  let worn := fun (z : Dir) => z.buffer.any (fun y => y.module == m && decide (9 ≤ y.fails))
  if !x.carries m ∨ !(worn x.dir0 || worn x.dir1) then none
  else
    let y := x.retrain m
    let s := s.modEdge e (fun _ => y)
    some (if y.dead then s.pend [.edgeDown e] else s)

/-- MODULE_RETRAIN (R392). -/
def execModuleRetrain (e m : Nat) (s : State) : Host.Outcome State Fault Refusal := event "MODULE_RETRAIN" (s.moduleRetrain e m)

/-- MODULE_RETRAIN_DONE (R392, R394). -/
def State.moduleRetrainDone (s : State) (e m : Nat) (l0 l1 : List Nat) : Option State :=
  let x := s.edge e
  let u := x.module m
  if 4 ≤ e ∨ 8 ≤ m ∨ u.mstate ≠ 3 ∨ (l0 ++ l1).any (fun l => decide (64 ≤ l)) then none
  else
    let x := x.train m l0 l1
    let s := s.modEdge e (fun _ => { x with down := x.dead })
    some (if x.dead ∧ !x.down then (s.modEdge e (fun y => { y with down := false })).pend [.edgeDown e] else s)

/-- MODULE_RETRAIN_DONE (R392). -/
def execModuleRetrainDone (e m : Nat) (l0 l1 : List Nat) (s : State) : Host.Outcome State Fault Refusal :=
  event "MODULE_RETRAIN_DONE" (s.moduleRetrainDone e m l0 l1)

/-- The dies at the ends of an edge (R390). -/
def edgeDies (e : Nat) : Nat × Nat := match e with | 0 => (0, 1) | 1 => (2, 3) | 2 => (0, 2) | _ => (1, 3)

/-- A link event enters containment at commit-domain level (02 R51, R52), at the given
member; the log names the edge or the port. -/
def State.linkEvent (s : State) (c src unit : Nat) : State := (s.contain 3 c none 0 5 src 3 0 unit).1

/-- A flit sent along the detour from die a to die b. -/
def State.resend (s : State) (a b : Nat) : State := (((s.route a b).bind s.passAll)).getD s
/-- The flits that a lost edge has not delivered cross the detour, in sequence order, before any newer one (R393). -/
def State.detour (s : State) (e : Nat) (x : Edge) : State :=
  let d := edgeDies e
  let s := x.dir0.buffer.foldl (fun s _ => s.resend d.1 d.2) s
  x.dir1.buffer.foldl (fun s _ => s.resend d.2 d.1) s

/-- A direction of an edge that has gone down: nothing waits for acknowledgement on it any more, and its receiver expects the next
number, so that the direction starts where it stopped. -/
def Dir.drop (x : Dir) : Dir := { x with buffer := [], nak := none, skipping := false, acked := x.txNext, rxNext := x.txNext }

/-- EDGE_DOWN (R393): traffic detours, unacknowledged flits with it; every running domain with a core on the edge's dies
has a link event. -/
def State.edgeDown (s : State) (e : Nat) : Option State :=
  let x := s.edge e
  if 4 ≤ e ∨ x.down ∨ !x.dead then none
  else
    let s := s.modEdge e (fun x => { x with down := true, dir0 := x.dir0.drop, dir1 := x.dir1.drop })
    let s := s.detour e x
    let d := edgeDies e
    some (s.domains.foldl (fun s p =>
      match p.2.members.find? (fun c => (dieOf c == d.1 || dieOf c == d.2) && (s.core c).domain == some p.1) with
      | some c => s.linkEvent c 7 e
      | none => s) s)

/-- EDGE_DOWN (R393). -/
def execEdgeDown (e : Nat) (s : State) : Host.Outcome State Fault Refusal := event "EDGE_DOWN" (s.edgeDown e)

/-! ### Failed devices (R400, R401) -/

/-- What a device that has become the parent of others sends them again (R398, R401): the standing DECIDE as it was sent, or the
DECIDE and the RESUME that it has passed on last. See log 44. -/
def State.tellAgain (s : State) (d : Nat) (before : List Nat) : State :=
  let m := s.domain d
  let new := (s.childDevs d).filter (fun v => !before.contains v)
  let decide_ := fun (s : State) (epoch ssn att : Nat) (x : Decision) (v : Nat) =>
    s.sendFlit v 3 (if x.dec = 2 ∧ x.acause = 9 then (epoch + 15) % 16 else epoch) (x.words 8 m.id.toNat (if x.dec = 2 then ssn else ssn + 1) att)
  match m.decision with
  | some x => new.foldl (fun s v => decide_ s m.epoch m.ssn.toNat (m.att % 256) x v) s
  | none =>
    if m.held then new.foldl (fun s v => decide_ s m.epoch m.last.ssn.toNat m.last.att m.last.decision v) s
    else new.foldl (fun s v => s.sendFlit v 3 m.epoch ({ m.last.decision with stepinc := 0 : Decision }.words 10 m.id.toNat m.ssn.toNat m.att)) s

/-- A second membership change during a shrink (R401): the epoch advances again, and what the first ABORT has restored stays; a
device that had sent DONE rebuilds the tree and sends it anew. -/
def State.fallsAgain (s : State) (d : Nat) (x : Decision) : State :=
  let m := s.domain d
  let s := (s.modDomain d (fun m => { m with total := m.total + 1, doneDevs := [] })).sendDown d 8 x
  let s := s.nextEpoch d
  if m.decision.isSome then (s.modDomain d (fun m => { m with decision := some x })).pend [.donePennant d]
  else
    let s := (s.shrink d).modDomain d (fun m => { m with last := { m.last with decision := x } })
    match s.parentDev d with
    | some up => s.sendDone d up
    | none => s.pend [.donePennant d]

/-- The decision that stands, or that this device has carried out and holds its members for, is a membership change. -/
def Domain.shrinking (m : Domain) : Bool :=
  let is9 := fun (x : Decision) => x.dec == 2 && x.acause == 9
  m.decision.any is9 || (m.held && is9 m.last.decision)

/-- The ABORT of a membership change, as the root decides it (R401). DESIGN CHOICE: its straggler is the latest one recorded, or 0.
See log 44. -/
def State.memberChange (s : State) (d : Nat) : State :=
  let m := s.domain d
  if m.shrinking then s.fallsAgain d ((m.decision.getD m.last.decision))
  else s.decideAbortOf d 9 0 (m.strag.getD (0, 0)) (s.unreduced d {}) false

/-- DEVICE_FAILED (R400): the device is marked absent, and the root decides ABORT with ACAUSE 9, again when an ABORT of this kind
stands (R401), and after any other decision that does; another device only learns of the absence, and sends its DONE again where
the tree has changed. See log 44. -/
def State.deviceFailed (s : State) (d dev : Nat) : Option State :=
  let m := s.domain d
  let new := !m.absent.contains dev
  if !m.live ∨ !m.devices.contains dev ∨ (!new ∧ !m.shrinks.contains dev) then none
  else
    let before := s.childDevs d
    let s := if new then (s.modDomain d (fun m => { m with absent := dev :: m.absent, shrinks := dev :: m.shrinks })).modPlat (fun p =>
        { p with members := p.members.map (fun e => if m.job ≠ 0 ∧ e.job = m.job ∧ !e.absent.contains dev then { e with absent := dev :: e.absent } else e) }) else s
    if m.away then some s
    else
      let none_ := fun (s : State) => s.modDomain d (fun m => { m with shrinks := [] })
      let s := if new && !m.members.isEmpty then s.tellAgain d before else s
      match s.parentDev d with
      | some up =>
        let s := none_ s
        some (if m.held then s.sendDone d up else if m.decision.isSome then s.pend [.donePennant d] else s)
      | none =>
        if m.shrinking then some ((none_ s).memberChange d)
        else if m.decision.isSome || m.held then some (s.pend [.donePennant d])
        else if m.members.isEmpty then some (none_ s)
        else some ((none_ s).memberChange d)

/-- DEVICE_FAILED (R400). -/
def execDeviceFailed (d dev : Nat) (s : State) : Host.Outcome State Fault Refusal := event "DEVICE_FAILED" (s.deviceFailed d dev)

/-! ### What Llynnal flits bring (R395, R399) -/

/-- A delta of another device's core (R88-R90): the sender, its number, SSN and ATT, the target operand, then PUT, ATOM or
MSG with its operands. -/
def State.remoteDelta (s : State) (epoch : Nat) (l : List W64) : Option Delta :=
  let w := fun i => l.getD i 0
  let x := w 3
  let t := bf x 0 13
  let d : Delta := { core := Config.cores + bf (w 0) 0 25, seq := (w 1).toNat, ssn := BitVec.ofNat 48 (bf (w 2) 0 48), att := bf (w 2) 48 16, epoch := epoch }
  let target := fun (n : Nat) =>
    let takes := match (s.core t).domain with | some k => (s.domain k).members.contains t | none => false
    putTarget takes t ((w 5).toNat % 2 ^ 32) n
  match (w 4).toNat with
  | 0 =>
    let n := (w 8).toNat % 32
    let g := target n
    let r := mergeLine 0 0 g.byte n ((w 6).toNat + (w 7).toNat * 2 ^ 64)
    some { d with bytes := n, kind := .line r.1 r.2, target := g.line }
  | 1 =>
    let n := if bit (w 7) 4 then 8 else 4
    some { d with bytes := n, kind := .atom (bf (w 7) 0 4) n (w 6) (bit (w 7) 5), target := target n }
  | 2 => some { d with bytes := 8 * (l.length - 5), kind := .msg (l.drop 5), target := .mailbox t }
  | _ => none

/-- A delta from the fabric reaches its home; its entry is taken as it lands. -/
def State.takeRemote (s : State) (d : Delta) : State :=
  match d.target.cluster with
  | some k => if s.deltaLive d then (s.modCluster k (fun x => { x with reserved := x.reserved + 1 })).landDelta d else s
  | none => s.landDelta d

/-- A home on another device answers a delta of this device's core (R90, R298, R299): a word for its mailbox, the count of
a discarded delta, or both. -/
def State.takeReply (s : State) (l : List W64) : State :=
  let w := fun i => l.getD i 0
  let c := bf (w 0) 0 13
  match s.domOf c with
  | some m =>
    if m.epoch = bf (w 3) 2 4 then
      s.modCore c (fun co =>
        { (if bit (w 3) 1 then co.diag 2 1 else co) with
          letters := if bit (w 3) 0 then co.letters ++ [{ gcid := s.gcid c, seq := (w 1).toNat, word := w 2 }] else co.letters })
    else s
  | none => s

/-- A falling pennant from the parent device (R32): DECIDE, POLL or RESUME; a DECIDE that commits carries the new SSN. A second
membership change during a shrink falls on what the first one has done (R401). -/
def State.takeFalling (s : State) (d : Nat) (ty ssn att : Nat) (x : Decision) : State :=
  let m := s.domain d
  if ssn ≠ (if ty = 8 ∧ x.dec ≠ 2 then m.ssn + 1 else m.ssn).toNat ∨ att ≠ m.att % 256 then s
  else if ty = 8 then
    (if m.shrinking && x.dec == 2 && x.acause == 9 then s.fallsAgain d x else if m.decision.isSome || m.held then s else s.falls d x)
  else if ty = 9 then
    let s := s.modDomain d (fun m => { m with nodes := [], given := 0, polling := m.parties })
    (s.sendDown d 9 {}).pend (m.parties.map (fun p => .poll d p))
  else if m.decision.isSome || !m.held then s
  else s.resumes d x

/-- A DONE for the decision that stands here, or that this device holds its members for; the root counts it, another device passes
it on (R37). -/
def State.takeDone (s : State) (d : Nat) (p : Pennant) : State :=
  let m := s.domain d
  match s.parentDev d with
  | some up => s.sendFlit up 3 m.epoch p.words
  | none =>
    let at_ := if m.decision.isSome then (m.ssn, m.att % 256) else (m.last.ssn, m.last.att)
    if (p.ssn, p.att) = at_ ∧ (m.decision.isSome || m.held) then
      (s.modDomain d (fun m => { m with doneDevs := p.sgcid / 8192 :: m.doneDevs })).pend [.donePennant d]
    else s

/-- A pennant from the fabric (R32, R33, R399): a malformed one is counted whatever it names; one for a launch that is still to be
admitted here is kept. See log 43. -/
def State.takeFabricPennant (s : State) (src epoch : Nat) (l : List W64) : State :=
  match Pennant.ofWords l, Decision.ofWords l, s.domainById (bf (l.getD 0 0) 0 16) with
  | none, none, _ => s.pennantLost
  | _, _, none => s.keepFlit src 3 epoch l
  | rising, falling, some d =>
    if (s.domain d).epoch ≠ epoch then s.pennantLost
    else match rising, falling with
      | some p, _ => if p.type = 3 then s.takeDone d p else (s.modDomain d (fun m => { m with inbox := m.inbox ++ [p] })).pend [.risingPennant d]
      | none, some (ty, ssn, att, x) => s.takeFalling d ty ssn att x
      | none, none => s

/-- How far a number lies behind another in the sequence of a port. -/
def seqBehind (a b : Nat) : Nat := (b + 4096 - a) % 4096

/-- What link control with a number does to a port (R391, R395): the number acknowledges what came before it, and NAKs for one number
in a row are counted. -/
def Port.control (p : Port) (n : Nat) (nak : Bool) : Port :=
  { p with buffer := p.buffer.filter (fun f => decide (4096 - 1024 ≤ seqBehind (bf (f.getD 0 0) 0 12) n) || bf (f.getD 0 0) 0 12 == n)
           naks := if nak then (if p.nakSeq = n then p.naks + 1 else 1) else if p.nakSeq = n then p.naks else 0
           nakSeq := n, rpl := if nak then satAdd p.rpl 1 else p.rpl }

/-- Link control from the peer (R391, R395): with the NAK bit the flits from the number on are sent again, in order. A port retrains
when 8 replays of a flit have been asked for and another one is. See log 43. -/
def State.takeControl (s : State) (port : Nat) (x : W64) : State :=
  let nak := bit x 12
  let s := s.modPort port (fun p => p.control (bf x 0 12) nak)
  let s := if nak then s.modPlat (fun p => { p with sent := p.sent ++ ((s.port port).buffer.map (fun f => (port, f))) }) else s
  if 9 ≤ (s.port port).naks then s.pend [.portRetrain port] else s.flushOut

/-- The number a port expects, told to its peer: an acknowledgement, or a NAK. -/
def State.sendControl (s : State) (port : Nat) (nak : Bool) : State :=
  let p := s.port port
  s.transmit port { dst := p.peer, cls := 7, words := [w64 (p.rxNext.toNat + 4096 * b2n nak)] }

/-- A flit for this device by its class (R395). What requests, migration and link control carry is not in the rules.
See log 5. See log 43. -/
def State.takeFlit (s : State) (port : Nat) (h : W64) (l : List W64) : State :=
  let src := bf h 24 12
  let epoch := bf h 43 4
  match bf h 36 3 with
  | 1 => s.takeReply l
  | 2 => match s.remoteDelta epoch l with | some d => s.takeRemote d | none => s.flitLost
  | 3 => s.takeFabricPennant src epoch l
  | 4 => s.modPort port (fun p => { p with lastBeat := s.hbt, report := some (bf (l.getD 1 0) 0 12, bf (l.getD 1 0) 12 12) })
  | 5 => s.takePost src epoch l
  | 7 => s.takeControl port (l.getD 0 0)
  | _ => s

/-- A flit with a set zero bit, a reserved LEN, or another number of payload words than LEN says. See log 43. -/
def flitBad (h : W64) (l : List W64) : Bool := bit h 47 || decide (240 < bf h 48 16) || l.length != (bf h 48 16 + 7) / 8

/-- LLYNNAL_FLIT_RECEIVE (R395): the CRC over header and payload is checked, with replay as on edges; a delivered flit acts
here or goes on to its destination. -/
def State.llynnalFlitReceive (s : State) (port : Nat) (h : W64) (l : List W64) (crc : W64) : Option State :=
  let p := s.port port
  let seq : BitVec 12 := h.setWidth 12
  if 32 ≤ port ∨ p.state ≠ 2 then none
  else if p.skipping ∧ seq ≠ p.rxNext then some s
  else if crc ≠ flitCrc (h :: l) then
    let s := (s.modPort port (fun p => { p with crc := satAdd p.crc 1, skipping := true, fails := p.fails + 1 })).sendControl port true
    some (if 9 ≤ p.fails + 1 then s.pend [.portRetrain port] else s)
  else if seq ≠ p.rxNext then some s
  else
    let s := s.modPort port (fun p => { p with rxNext := p.rxNext + 1, skipping := false, fails := 0 })
    let s := if bf h 36 3 = 7 then s else s.sendControl port false
    if flitBad h l then some (if bf h 36 3 = 3 then s.pennantLost else s.flitLost)
    else if bf h 12 12 ≠ s.plat.devNo.toNat then some (s.sendOut { src := some (bf h 24 12), dst := bf h 12 12, cls := bf h 36 3, lane := bf h 39 4, epoch := bf h 43 4, words := l })
    else some (s.takeFlit port h l)

/-- LLYNNAL_FLIT_RECEIVE (R395). -/
def execLlynnalFlitReceive (port : Nat) (h : W64) (l : List W64) (crc : W64) (s : State) : Host.Outcome State Fault Refusal :=
  event "LLYNNAL_FLIT_RECEIVE" (s.llynnalFlitReceive port h l crc)

/-- PORT_RETRAIN (R395): a port whose flit has failed with its 8 replays retrains. -/
def State.portRetrain (s : State) (port : Nat) : Option State :=
  let p := s.port port
  if p.state ≠ 2 ∨ (p.fails < 9 ∧ p.naks < 9) then none
  else some (s.modPort port (fun p => { p with state := 1, retrains := satAdd p.retrains 1, fails := 0, naks := 0, report := none }))

/-- PORT_RETRAIN (R395). -/
def execPortRetrain (port : Nat) (s : State) : Host.Outcome State Fault Refusal := event "PORT_RETRAIN" (s.portRetrain port)

/-- A flit that has been sent, from its header. -/
def sentFlit (l : List W64) : OutFlit :=
  let h := l.getD 0 0
  { src := some (bf h 24 12), dst := bf h 12 12, cls := bf h 36 3, lane := bf h 39 4, epoch := bf h 43 4, words := (l.drop 1).take ((bf h 48 16 + 7) / 8) }

/-- PORT_RETRAIN_DONE (R395): success brings the port up, with the partner that its cable leads to, and what waited for
acknowledgement is sent again; a failed retraining is tried again, and the third takes the port down, whose flits take the
other ports. -/
def State.portRetrainDone (s : State) (port : Nat) (ok : Bool) : Option State :=
  let p := s.port port
  if 32 ≤ port ∨ p.state ≠ 1 then none
  else if ok then
    let s := s.modPort port (fun p => { p with state := 2, failedRetrains := 0, peer := (Config.cablePeer s.fresh port).toNat, pport := (Config.cablePort s.fresh port).toNat })
    let s := { s with fresh := s.fresh + 1 }
    some (s.modPlat (fun x => { x with sent := x.sent ++ p.buffer.map (fun f => (port, f)) })).flushOut
  else if p.failedRetrains = 2 then
    some ((s.modPort port (fun p => { p with state := 0, failedRetrains := 3, buffer := [] })).modPlat (fun x =>
      { x with unsent := p.buffer.map sentFlit ++ x.unsent })).flushOut
  else some (s.modPort port (fun p => { p with failedRetrains := p.failedRetrains + 1, retrains := satAdd p.retrains 1 }))

/-- PORT_RETRAIN_DONE (R395). -/
def execPortRetrainDone (port : Nat) (ok : Bool) (s : State) : Host.Outcome State Fault Refusal :=
  event "PORT_RETRAIN_DONE" (s.portRetrainDone port ok)

/-! ### The heartbeat (R396) -/

/-- A link event in every running domain that spans devices. -/
def State.spanEvents (s : State) (port : Nat) : State :=
  s.domains.foldl (fun s p =>
    match p.2.members.find? (fun c => (s.core c).domain == some p.1) with
    | some c => if 1 < p.2.devices.length then s.linkEvent c 8 port else s
    | none => s) s

/-- The master as this device knows it (R396): the lowest number among its own, those of its up ports' peers and those that they
have reported, with the number of devices on the way to it. See log 43. -/
def State.masterSeen (s : State) : Nat × Nat :=
  let up := ((List.range 32).map s.port).filter (fun p => p.state == 2)
  let seen := up.map (fun p => (p.peer, 1)) ++ up.filterMap (fun p => p.report.bind (fun r => if r.2 < 4095 then some (r.1, r.2 + 1) else none))
  seen.foldl (fun a b => if b.1 < a.1 ∨ (b.1 = a.1 ∧ b.2 < a.2) then b else a) (s.plat.devNo.toNat, 0)

/-- HEARTBEAT_FLIT (R396): a port exchanges a heartbeat with its peer; the estimated error decides SYNC, and 100,000 ticks out
of sync make this device count as failed. -/
def State.heartbeatFlit (s : State) (port errNs : Nat) : Option State :=
  let p := s.port port
  if 32 ≤ port ∨ p.state ≠ 2 then none
  else
    let seen := s.masterSeen
    let s := s.transmit port { dst := p.peer, cls := 4, words := [s.tick, w64 (seen.1 + seen.2 * 2 ^ 12)] }
    let s := s.modPlat (fun x => { x with master := BitVec.ofNat 12 seen.1 })
    if errNs ≤ 40 then some (s.modPlat (fun x => { x with sync := false, syncSince := none }))
    else
      match s.plat.syncSince with
      | none => some ((s.modPlat (fun x => { x with sync := true, syncSince := some s.hbt })).spanEvents port)
      | some t =>
        if s.hbt < t + 100000 then some s
        else some (s.pend ((s.domains.filter (fun d => d.2.live && decide (1 < d.2.devices.length))).map (fun d => .deviceFailed d.1 s.plat.devNo.toNat)))

/-- HEARTBEAT_FLIT (R396). -/
def execHeartbeatFlit (port errNs : Nat) (s : State) : Host.Outcome State Fault Refusal := event "HEARTBEAT_FLIT" (s.heartbeatFlit port errNs)

/-! ### Membership lists (R397) -/

/-- Numbers in strictly increasing order. -/
def rising (l : List Nat) : Bool := match l with | a :: b :: r => decide (a < b) && rising (b :: r) | _ => true

/-- A job has a running or yielded launch. -/
def State.jobBusy (s : State) (job : Nat) : Bool :=
  s.plat.vfs.any (fun p => p.2.records.any (fun r => r.job == job && ((r.busy && r.state != .gating) || r.state == .yielded)))

/-- MEMBERSHIP_LOAD (R397): the list at MBLIST replaces the job's; a device that has failed does not rejoin the job (R400). -/
def State.membershipLoad (s : State) : State :=
  let job := bf (s.pf 0x308000) 0 32
  let addr := (s.pf 0x308008).toNat
  let count := bf (s.pf 0x308010) 0 13
  let list := (List.range count).map (fun i => s.hostRead (addr + 2 * i) 2)
  let done := fun (s : State) (k : Nat) => s.modPlat (fun p => { p with mbResult := k })
  if job = 0 ∨ count = 0 ∨ 4096 < count ∨ addr % 8 ≠ 0 ∨ list.any (fun d => decide (4096 ≤ d)) ∨ !rising list then done s 1
  else if s.jobBusy job then done s 2
  else if !list.contains s.plat.devNo.toNat then done s 3
  else
    let gone := ((s.membership job).getD {}).absent
    done (s.modPlat (fun p => { p with members := { job := job, devices := list, absent := gone.filter list.contains } :: p.members.filter (fun m => m.job != job) })) 0

/-- MEMBERSHIP_LOAD (R397). -/
def execMembershipLoad (s : State) : Host.Outcome State Fault Refusal := .next s.membershipLoad.quiet

end Sys2Proof.Machine
end

