-- ==== Sys2Proof/Machine/Power.lean ====
section
/-!
DEFINITION. Timing replays, derating and the speed table (25 R408-R412), thermal trips, current limiting and power states
(25 R418, R419), and the error log's head (25 R416).
-/

namespace Sys2Proof.Machine

open Sys2Proof

/-! ### Timing replays (R408, R409) -/

/-- The replay limits of REPLIM. -/
def State.coreLimit (s : State) : Nat := bf (s.pf 0x408008) 0 16
def State.engineLimit (s : State) : Nat := bf (s.pf 0x408008) 16 16

/-- A margin-event excess of a core: MARGIN in its pennant, containment at core level in group 5; an engine's excess names
the team in the log. -/
def State.marginExcess (s : State) (c : Nat) (unit : Nat := s.gcid c) : State :=
  ((s.modCore c (fun co => { co with margin := true })).contain 1 c none 0 5 9 3 0 unit).1

/-- TIMING_REPLAY (R408, R409): counted in REPLAYS and for the open superstep; the count that first exceeds its limit is an
excess, for an engine of every core with a job on it, wherever that core is. See log 45. -/
def State.timingReplay (s : State) (engine : Bool) (u : Nat) : Option State :=
  if engine then
    if Config.teams ≤ u then none
    else
      let s := s.modTeam u (fun t => { t with replays := t.replays + 1, marginCount := t.marginCount + 1 })
      if (s.team u).marginCount ≠ s.engineLimit + 1 then some s
      else
        let cores := ((((s.team u).queue ++ (s.team u).jobs).filter (fun j => j.state != 3)).map (fun j => j.core)).eraseDups
        some (cores.foldl (fun s c => s.marginExcess c u) s)
  else if Config.cores ≤ u then none
  else
    let s := s.modCore u (fun c => { c with replays := c.replays + 1, marginCount := c.marginCount + 1 })
    some (if (s.core u).marginCount = s.coreLimit + 1 then s.marginExcess u else s)

/-- TIMING_REPLAY (R408). -/
def execTimingReplay (engine : Bool) (u : Nat) (s : State) : Host.Outcome State Fault Refusal := event "TIMING_REPLAY" (s.timingReplay engine u)

/-! ### The speed table (R410, R411) -/

/-- A unit's cluster. -/
def unitCluster (engine : Bool) (u : Nat) : Nat := if engine then u / 16 else u / 128
/-- The paddock that holds a cluster. -/
def State.paddockOf (s : State) (k : Nat) : Nat :=
  ((s.plat.nodes.find? (fun p => p.2.paddock && decide ((nodeRange p.1).1 ≤ k) && decide (k < (nodeRange p.1).2))).map (fun p => p.1)).getD 0

/-- An entry one step lower, or the unit absent below 940 MHz (R410). -/
def Speed.lower (x : Speed) : Speed :=
  if x.code = 0 then { x with absent := true, pending := false }
  else { x with code := x.code - 1, derated := decide (x.code - 1 < x.binned), pending := false }

/-- DERATE (R410): of a unit whose trend has reached the threshold; with the unit's paddock free of launches the entry is
written; until then the derate is pending. See log 45. -/
def State.derate (s : State) (engine : Bool) (u : Nat) : Option State :=
  let x := s.speedOf engine u
  if s.unitAbsent engine u ∨ (if engine then Config.teams else Config.cores) ≤ u ∨ (!x.pending ∧ x.mean < s.derateAt) then none
  else if !s.nodeBusy (s.paddockOf (unitCluster engine u)) then some (s.modSpeed engine u Speed.lower)
  else if x.pending then none
  else some ((s.modSpeed engine u (fun y => { y with pending := true })).pend [.derate engine u])

/-- DERATE (R410). -/
def execDerate (engine : Bool) (u : Nat) (s : State) : Host.Outcome State Fault Refusal := event "DERATE" (s.derate engine u)

/-- RECOVERY_SELF_TEST (R410): an absent unit is readmitted at 940 MHz, which is a new entry: its paddock has no launch on its way or
running. -/
def State.recoverySelfTest (s : State) (engine : Bool) (u : Nat) : Option State :=
  if !(s.speedOf engine u).absent ∨ s.nodeBusy (s.paddockOf (unitCluster engine u)) then none
  else some (s.modSpeed engine u (fun x => { x with absent := false, pending := false, trend := [], code := 0, derated := decide (x.binned ≠ 0) }))

/-- RECOVERY_SELF_TEST (R410). -/
def execRecoverySelfTest (engine : Bool) (u : Nat) (s : State) : Host.Outcome State Fault Refusal :=
  event "RECOVERY_SELF_TEST" (s.recoverySelfTest engine u)

/-! ### Current and temperature (R418) -/

/-- CURRENT_LIMIT (R418): the die's clocks are stretched, which is logged (R415); PF vector 9 is raised at the first stretch after HIT was cleared. -/
def State.currentLimit (s : State) (d : Nat) : Option State :=
  if Config.dies ≤ d ∨ (s.die d).stretched then none
  else
    let first := !(s.die d).clHit
    let s := (s.modDie d (fun x => { x with stretched := true, clHit := true })).logEvent 11 d
    some (if first then s.modPlat (fun p => { p with pfVectors := p.pfVectors ||| 0x200#64 }) else s)

/-- CURRENT_LIMIT (R418). -/
def execCurrentLimit (d : Nat) (s : State) : Host.Outcome State Fault Refusal := event "CURRENT_LIMIT" (s.currentLimit d)

/-- CURRENT_FALLS_BACK (R418). -/
def State.currentFallsBack (s : State) (d : Nat) : Option State :=
  if (s.die d).stretched then some (s.modDie d (fun x => { x with stretched := false })) else none

/-- CURRENT_FALLS_BACK (R418). -/
def execCurrentFallsBack (d : Nat) (s : State) : Host.Outcome State Fault Refusal := event "CURRENT_FALLS_BACK" (s.currentFallsBack d)

/-- A die's temperature, and the highest one (R419). -/
def Die.sense (x : Die) (t : Nat) : Die :=
  let b := BitVec.ofNat 8 (Nat.min t 255)
  { x with temp := b, tempMax := if x.tempMax < b then b else x.tempMax }

/-- THERMAL_TRIP (R418): a die at 115 °C or a stack at 105 °C is logged (R415) and triggers a warm reset whose failed set is
every paddock. -/
def State.thermalTrip (s : State) (hbm : Bool) (u t : Nat) : Option State :=
  if (if hbm then decide (16 ≤ u) || decide (t < 105) else decide (4 ≤ u) || decide (t < 115)) then none
  else
    let s := if hbm then s else s.modDie u (fun x => x.sense t)
    some ((s.logEvent 10 u).triggerReset 2 (w64 (2 ^ 64 - 1)))

/-- A die sensor's new reading (R419), which trips at 115 °C (R418). -/
def State.temperature (s : State) (d t : Nat) : State :=
  match s.thermalTrip false d t with
  | some u => u
  | none => if Config.dies ≤ d then s else s.modDie d (fun x => x.sense t)

/-- THERMAL_TRIP (R418). -/
def execThermalTrip (hbm : Bool) (u t : Nat) (s : State) : Host.Outcome State Fault Refusal := event "THERMAL_TRIP" (s.thermalTrip hbm u t)

/-! ### Power commands (R418, R419) -/

/-- PWSEL's node, and a command's RESULT. -/
def State.pwNode (s : State) : Nat := bf (s.pf 0x420000) 0 7
def State.pwDone (s : State) (k : Nat) : State := s.modNode s.pwNode (fun x => { x with powerResult := k })

/-- PWCMD (R419): a power state for the selected node, from the next tick on. See log 46. -/
def State.pwcmd (s : State) (v : W64) : State :=
  let n := s.pwNode
  if bf v 3 61 ≠ 0 then s.pwDone 2
  else if !(s.node n).paddock then s.pwDone 4
  else if bf v 0 3 = 7 ∧ s.nodeBusy n then s.pwDone 1
  else (s.modNode n (fun x => { x with powerNext := some (bf v 0 3) })).pwDone 0

/-- PWCMD (R419). -/
def execPwcmd (v : W64) (s : State) : Host.Outcome State Fault Refusal := .next (s.pwcmd v).quiet

/-- POWER_STATE_APPLY (R418): the requested state holds for every unit of the node. See log 46. -/
def State.powerStateApply (s : State) (n : Nat) : Option State := (s.node n).powerNext.map (fun k => s.applyPower n k)

/-- POWER_STATE_APPLY (R418). -/
def execPowerStateApply (n : Nat) (s : State) : Host.Outcome State Fault Refusal := event "POWER_STATE_APPLY" (s.powerStateApply n)

/-- PWGATE (R419): GATE may be set only while the node is IDLE. -/
def State.pwgate (s : State) (v : W64) : State :=
  let n := s.pwNode
  if !(s.node n).paddock then s.pwDone 4
  else if bit v 0 ∧ (s.node n).state ≠ .idle then s.pwDone 3
  else (s.modNode n (fun x => { x with egate := bit v 0 })).pwDone 0

/-- PWGATE (R419). -/
def execPwgate (v : W64) (s : State) : Host.Outcome State Fault Refusal := .next (s.pwgate v).quiet

/-- PWHBM (R419): stacks with allocated frames, or with frames lent to another device's tier 1, stay up. -/
def State.pwhbm (s : State) (v : W64) : State :=
  let used := fun k => s.plat.lent.getLsbD k || s.plat.frames.any (fun p => p.2.used && p.1 / 2 ^ 20 == k)
  let refused := (List.range 16).any (fun k => bit v k && used k)
  let down := ((List.range 16).map (fun k => if bit v k ∧ !used k then 2 ^ k else 0)).sum
  (s.setPf 0x420020 (w64 down)).pwDone (if refused then 3 else 0)

/-- PWHBM (R419). -/
def execPwhbm (v : W64) (s : State) : Host.Outcome State Fault Refusal := .next (s.pwhbm v).quiet

/-! ### The error log's head (R416) -/

/-- ELHEAD (R416): room for entries that wait. -/
def State.elhead (s : State) (v : W64) : State := (s.setPf 0x410010 (w64 (bf v 0 16))).flushLog

/-- ELHEAD (R416). -/
def execElhead (v : W64) (s : State) : Host.Outcome State Fault Refusal := .next (s.elhead v).quiet

end Sys2Proof.Machine
end

