-- ==== Sys2Proof/Machine/Security.lean ====
section
/-!
DEFINITION. Firmware banks (26 R420-R422), measurements (26 R424), SPDM and the TDISP states (26 R425-R427).
-/

namespace Sys2Proof.Machine

open Sys2Proof

/-! ### Firmware commands (R421, R422) -/

/-- A firmware command's RESULT. -/
def State.fwDone (s : State) (k : Nat) : State := s.modPlat (fun p => { p with fwResult := k })

/-- The inactive bank holds an image. -/
def Platform.fillBank (p : Platform) (b : FwBank) : Platform := if p.active then { p with bankA := b, staged := b.valid } else { p with bankB := b, staged := b.valid }

/-- A bank that is being erased and written is invalid: the image goes to the other bank than the active one (R421). -/
def State.startWrite (s : State) (b : FwBank) : State :=
  (s.modPlat (fun p => { p.fillBank {} with writing := some b })).pend [.flashWrite]

/-- STAGE (R421, R422): an image that the ROM would accept begins to be written into the inactive bank, and BUSY is 1 until it is
done. See log 48. -/
def State.stage (s : State) : State :=
  let len := bf (s.pf 0x18) 0 24
  let base := alignTo 4096 (s.pf 0x10).toNat
  let image := (List.range len).map (fun i => (s.hostByte (base + i)).toNat)
  let b : FwBank := { svn := Config.imageSvn image, length := Config.imageLength image, image := image, valid := true }
  if s.plat.warm ∨ s.plat.writing.isSome then s
  else if len = 0 ∨ 2 ^ 23 < len ∨ 8 * 2 ^ 20 < b.length then s.fwDone 1
  else if !Config.signatureOk image then s.fwDone 2
  else if b.svn < s.plat.svnFloor then s.fwDone 3
  else s.startWrite b

/-- The bank is written, and the next start runs it; flash that does not take it leaves the bank invalid (RESULT 4). A start before
this has lost the power of the write (R421). See log 48. -/
def State.flashWrite (s : State) : Option State :=
  s.plat.writing.map (fun b =>
    let t := { s with fresh := s.fresh + 1 }.modPlat (fun p => { p with writing := none })
    if Config.flashOk s.fresh then (t.modPlat (fun p => p.fillBank b)).fwDone 0 else t.fwDone 4)

/-- STAGE (R421). -/
def execStage (s : State) : Host.Outcome State Fault Refusal := .next s.stage.quiet

/-- COMMIT-SVN (R421): the floor takes the running image's SVN; it never decreases. -/
def State.commitSvn (s : State) : State :=
  if s.plat.warm ∨ s.plat.writing.isSome then s
  else (s.modPlat (fun p => { p with svnFloor := if p.svnFloor < p.running.svn then p.running.svn else p.svnFloor })).fwDone 0

/-- COMMIT-SVN (R421). -/
def execCommitSvn (s : State) : Host.Outcome State Fault Refusal := .next s.commitSvn.quiet

/-! ### Measurements (R424) -/

/-- The start record's header and outcomes (22 R389) as bytes, as the start has left them: block 5 is fixed from its end (R424). -/
def Platform.startRecord (p : Platform) : List Nat :=
  [p.failCnt.toNat, p.lastFail, b2n p.measuredSafe] ++ toBytes 4 p.starts.toNat
    ++ p.steps.flatMap (fun x => [x.2.attempts.toNat, x.2.outcome, b2n x.2.alt, b2n x.2.ext])
/-- The TDISP state as a number. -/
def Tdisp.code (t : Tdisp) : Nat := match t with | .unlocked => 0 | .locked => 1 | .run => 2 | .error => 3

/-- The bytes that a measurement block measures; their layout is the model's. See log 48. -/
def State.measured (s : State) (i : Nat) : Option (List Nat) :=
  if i = 1 then some Config.bootRom
  else if i = 2 then some s.plat.running.image
  else if i = 3 then some (Config.stubs s.plat.running.image)
  else if i = 4 then some (toBytes 2 s.plat.measuredFloor.toNat ++ toBytes 4 Config.fset.toNat)
  else if i = 5 then some s.plat.startRecord
  else if 16 < i ∧ i ≤ 16 + Config.vfs then
    let t := s.vf (i - 16)
    some ([t.node] ++ toBytes 6 (s.node t.node).ppol.toNat ++ toBytes 8 (s.node t.node).pcfg.toNat ++ [t.tdisp.code])
  else none

/-! ### SPDM (R425) -/

/-- A function's SPDM state, its answer, and an error. -/
def State.spdm (s : State) (fn : Nat) : Spdm := tget s.plat.spdm fn {}
def State.reply (s : State) (fn : Nat) (x : Spdm) (l : List Nat) : State :=
  s.modPlat (fun p => { p with spdm := tput p.spdm fn { x with answer := l, error := 0 } })
def State.spdmError (s : State) (fn code : Nat) : State :=
  s.modPlat (fun p => { p with spdm := tmod p.spdm fn {} (fun x => { x with answer := [], error := code }) })
/-- SPDM's error codes (PRESUMED, DSP0274). -/
def invalidRequest : Nat := 1
def unexpectedRequest : Nat := 4
def decryptError : Nat := 6

/-- SPDM's refusals of a request that the device does not have, a TDISP one among them, and of a version other than 1.3 (R7, R425;
codes PRESUMED, DSP0274). See log 48. -/
def unsupportedRequest : Nat := 7
def versionMismatch : Nat := 0x41
def State.spdmUnlisted (s : State) (fn version : Nat) : State := s.spdmError fn (if version = 0x13 then unsupportedRequest else versionMismatch)

/-- A function exists: the PF is 0. -/
def isFunction (fn : Nat) : Bool := decide (fn ≤ Config.vfs)

/-- GET_VERSION (R425): SPDM 1.3; the connection starts again. See log 48. -/
def State.getVersion (s : State) (fn : Nat) : Option State :=
  if isFunction fn then some (s.reply fn { version := true, session := (s.spdm fn).session } [0x13]) else none
/-- GET_VERSION (R425). -/
def execGetVersion (fn : Nat) (s : State) : Host.Outcome State Fault Refusal := event "GET_VERSION" (s.getVersion fn)

/-- GET_CAPABILITIES (R425): certificates, challenge, measurements, encryption, authentication and key exchange. See log 48. -/
def State.getCapabilities (s : State) (fn : Nat) : Option State :=
  let x := s.spdm fn
  if !isFunction fn then none
  else some (if x.version then s.reply fn { x with capable := true } [1, 1, 1, 1, 1, 1] else s.spdmError fn unexpectedRequest)
/-- GET_CAPABILITIES (R425). -/
def execGetCapabilities (fn : Nat) (s : State) : Host.Outcome State Fault Refusal := event "GET_CAPABILITIES" (s.getCapabilities fn)

/-- NEGOTIATE_ALGORITHMS (R423-R425): the device has ML-DSA-87, SHA3-512, ML-KEM-1024 and AES-256-GCM. -/
def State.negotiateAlgorithms (s : State) (fn : Nat) (dsa sha kem gcm : Bool) : Option State :=
  let x := s.spdm fn
  if !isFunction fn then none
  else some (
    if !x.capable then s.spdmError fn unexpectedRequest
    else if !dsa || !sha then s.spdmError fn invalidRequest
    else s.reply fn { x with negotiated := true, keyed := kem && gcm } [1, 1, b2n kem, b2n gcm])
/-- NEGOTIATE_ALGORITHMS (R425). -/
def execNegotiateAlgorithms (fn : Nat) (dsa sha kem gcm : Bool) (s : State) : Host.Outcome State Fault Refusal :=
  event "NEGOTIATE_ALGORITHMS" (s.negotiateAlgorithms fn dsa sha kem gcm)

/-- A request that needs a negotiated connection. -/
def State.negotiated (s : State) (fn : Nat) (f : Spdm → State) : Option State :=
  let x := s.spdm fn
  if !isFunction fn then none else some (if x.negotiated then f x else s.spdmError fn unexpectedRequest)

/-- The certificate of the identity key: the serial number, the part number and the key, signed by the authority; and that of the
alias key, signed with the identity key (R423). -/
def Platform.certificates (p : Platform) : List Nat :=
  let identity := Config.serialNumber ++ Config.partNumber ++ Config.dsaPublic p.identity
  let own := Config.dsaPublic p.aliasKey
  identity ++ Config.authoritySign identity ++ own ++ Config.dsaSign p.identity own

/-- GET_CERTIFICATE (R423, R425): the alias key's chain up to the identity certificate. -/
def State.getCertificate (s : State) (fn : Nat) : Option State := s.negotiated fn (fun x => s.reply fn x s.plat.certificates)
/-- GET_CERTIFICATE (R425). -/
def execGetCertificate (fn : Nat) (s : State) : Host.Outcome State Fault Refusal := event "GET_CERTIFICATE" (s.getCertificate fn)

/-- An answer with its signature by the alias key (R423, R425). -/
def State.signed (s : State) (l : List Nat) : List Nat := l ++ Config.dsaSign s.plat.aliasKey l

/-- CHALLENGE (R425): the nonce signed with the alias key. -/
def State.challenge (s : State) (fn nonce : Nat) : Option State := s.negotiated fn (fun x => s.reply fn x (s.signed [nonce]))
/-- CHALLENGE (R425). -/
def execChallenge (fn nonce : Nat) (s : State) : Host.Outcome State Fault Refusal := event "CHALLENGE" (s.challenge fn nonce)

/-- GET_MEASUREMENTS (R424): the SHA3-512 digest of a block, signed. -/
def State.getMeasurements (s : State) (fn i : Nat) : Option State :=
  s.negotiated fn (fun x => match s.measured i with
    | some l => s.reply fn x (s.signed (toBytes 64 (sha3 l).toNat))
    | none => s.spdmError fn invalidRequest)
/-- GET_MEASUREMENTS (R424). -/
def execGetMeasurements (fn i : Nat) (s : State) : Host.Outcome State Fault Refusal := event "GET_MEASUREMENTS" (s.getMeasurements fn i)

/-- KEY_EXCHANGE (R425): a session handshake begins: the device answers the requester's share with its own, signed, and has the
session's keys, which FINISH confirms. -/
def State.keyExchange (s : State) (fn share : Nat) : Option State :=
  s.negotiated fn (fun x =>
    if x.keyed then
      ({ s with fresh := s.fresh + 1 }).reply fn { x with pendingKeys := some (Config.sessionSecret share s.fresh) }
        (s.signed (Config.kemShare share s.fresh))
    else s.spdmError fn unexpectedRequest)
/-- KEY_EXCHANGE (R425). -/
def execKeyExchange (fn share : Nat) (s : State) : Host.Outcome State Fault Refusal := event "KEY_EXCHANGE" (s.keyExchange fn share)

/-- FINISH (R425): the handshake's check holds, and the session has its keys. -/
def State.finish (s : State) (fn mac : Nat) : Option State :=
  s.negotiated fn (fun x => match x.pendingKeys with
    | none => s.spdmError fn unexpectedRequest
    | some k =>
      if mac = Config.finishMac fn k then s.reply fn { x with pendingKeys := none, session := some k } []
      else (s.modPlat (fun p => { p with spdm := tput p.spdm fn { x with pendingKeys := none } })).spdmError fn decryptError)
/-- FINISH (R425). -/
def execFinish (fn mac : Nat) (s : State) : Host.Outcome State Fault Refusal := event "FINISH" (s.finish fn mac)

/-! ### SETKEY and TDISP (R425-R427) -/

/-- A VF's number. -/
def isVf (v : Nat) : Bool := v != 0 && decide (v ≤ Config.vfs)

/-- SETKEY (R426). -/
def State.setkey (s : State) (v : Nat) (key : BitVec 512) : Option State :=
  let t := s.vf v
  if !isVf v then none
  else some (
    if (s.spdm v).session.isNone ∨ t.node = 0 ∨ t.tdisp ≠ .locked ∨ !t.records.isEmpty then s.spdmError v unexpectedRequest
    else (s.modVf v (fun t => { t with key := key, keySet := true })).reply v (s.spdm v) [])
/-- SETKEY (R426). -/
def execSetkey (v : Nat) (key : BitVec 512) (s : State) : Host.Outcome State Fault Refusal := event "SETKEY" (s.setkey v key)

/-- LOCK_INTERFACE (R425): CONFIG_UNLOCKED to CONFIG_LOCKED; in another state the request is an error. -/
def State.tdispLock (s : State) (v : Nat) : Option State :=
  if !isVf v then none
  else some (if (s.vf v).tdisp = .unlocked then (s.modVf v (fun t => { t with tdisp := .locked })).reply v (s.spdm v) [] else s.spdmError v unexpectedRequest)
/-- TDISP_LOCK_INTERFACE (R425). See log 49. -/
def execTdispLockInterface (v : Nat) (s : State) : Host.Outcome State Fault Refusal := event "TDISP_LOCK_INTERFACE" (s.tdispLock v)

/-- START_INTERFACE (R426): CONFIG_LOCKED to RUN. -/
def State.tdispStart (s : State) (v : Nat) : Option State :=
  if !isVf v then none
  else some (if (s.vf v).tdisp = .locked then (s.modVf v (fun t => { t with tdisp := .run })).reply v (s.spdm v) [] else s.spdmError v unexpectedRequest)
/-- TDISP_START_INTERFACE (R426). See log 49. -/
def execTdispStartInterface (v : Nat) (s : State) : Host.Outcome State Fault Refusal := event "TDISP_START_INTERFACE" (s.tdispStart v)

/-- The launches of a tenant end before it is unbound: what they had not committed is discarded. -/
def State.endTenant (s : State) (v : Nat) : State :=
  ((s.vf v).records.filterMap (fun r => if r.state = .ended then none else r.domain)).foldl (fun s d =>
    ((List.range Config.dies).foldl (fun s k => s.abortDie d k) s).endLaunch d 4 0) s

/-- STOP_INTERFACE (R427): the VF is unbound, its pages are scrubbed on touch; a VF that is not under TDISP stays as it is. -/
def State.stopInterface (s : State) (v : Nat) : Option State :=
  if !isVf v then none
  else if (s.vf v).tdisp = .unlocked then some (s.reply v (s.spdm v) [])
  else
    let n := (s.vf v).node
    some ((((s.endTenant v).unbind v).afterUnbind n).reply v (s.spdm v) [])
/-- STOP_INTERFACE (R427). -/
def execStopInterface (v : Nat) (s : State) : Host.Outcome State Fault Refusal := event "STOP_INTERFACE" (s.stopInterface v)

end Sys2Proof.Machine
end

