-- ==== Sys2Proof/Machine/Events.lean ====
section
/-!
DEFINITION. The front end's delivery as a step of its own (07 R430), the debugger (09 R225, R231, R232), and writes to
the registers that the host sees (00 R3, 20 R351-R353 and the register maps of chapters 20 to 26).
-/

namespace Sys2Proof.Machine

open Sys2Proof

/-! ### Delivery and the debugger -/

/-- FETCH_DELIVER (R430): a context's next word goes into the buffer of its half. -/
def execFetchDeliver (c k : Nat) (s : State) : Host.Outcome State Fault Refusal :=
  if !(s.core c).turns k || !(s.ctx c k).mayDeliver then .refused (.cannotOccur "FETCH_DELIVER")
  else match s.deliver c k false with
    | .done t => .next t.quiet
    | .go i t => match i with
      | .himm p => execHimm p t
      | .hmod e sc n ch kd => execHmod e sc n ch kd t
      | .hsched x kd r l => execHsched x kd r l t
      | .nopHint op p => execNopHint op p t
      | _ => .next t.quiet

/-- DEBUGGER_ATTACH (R225, 26 R427): Rovas refuses to attach to a context of a locked tenant; a detached debugger lets the
context go on. See log 55. -/
def State.debuggerAttach (s : State) (c k : Nat) (on : Bool) : Option State :=
  if Config.cores ≤ c ∨ 5 ≤ k then none
  else if on ∧ (s.vf (s.tenantOf c)).locked then some s
  else some (s.modCtx c k (fun x => { x with attached := on, await := if !on && x.await == .debugger then .running else x.await }))

/-- DEBUGGER_ATTACH (R225). -/
def execDebuggerAttach (c k : Nat) (on : Bool) (s : State) : Host.Outcome State Fault Refusal := event "DEBUGGER_ATTACH" (s.debuggerAttach c k on)

/-- DEBUGGER_RESUME (R232). See log 55. -/
def State.debuggerResume (s : State) (c k : Nat) : Option State :=
  if (s.ctx c k).active ∧ (s.ctx c k).await = .debugger then some (s.modCtx c k (fun x => { x with await := .running })) else none

/-- DEBUGGER_RESUME (R232). -/
def execDebuggerResume (c k : Nat) (s : State) : Host.Outcome State Fault Refusal := event "DEBUGGER_RESUME" (s.debuggerResume c k)

/-! ### Register writes of the PF -/

/-- The bits of a field that a write of ones clears (R3). -/
def w1c (f : BitVec n) (v : W64) (lo : Nat) : BitVec n := f &&& ~~~ (BitVec.ofNat n (bf v lo n))

/-- A RW register with reserved bits: a non-zero write to them is ignored. -/
def State.writeRw (s : State) (off : Nat) (v reserved : W64) : State := if v &&& reserved = 0 then s.setPf off v else s

/-- The tier engine's command in TECMD (21 R373); an OP that names none ends with RESULT 1. -/
def State.teGo (s : State) : State :=
  let r := match s.teOp with
    | 1 => s.teRun 1 State.setpteCmd
    | 2 => s.teRun 2 State.fetchCmd
    | 3 => s.teRun 3 State.evictCmd
    | 4 => s.teRun 4 State.hwriteCmd
    | 5 => s.teRun 5 State.hreadCmd
    | 6 => s.teRun 6 State.shresCmd
    | _ => some (s.teDone 1)
  r.getD s

/-- MGCMD (22 R385). -/
def State.mgcmd (s : State) (v : W64) : State :=
  if bf v 4 60 ≠ 0 then s.mgDone 1
  else match bf v 0 4 with
    | 1 => s.exportTenant
    | 2 => { s with fresh := s.fresh + 1 }.importTenant (Config.fabricOk s.fresh)
    | 3 => s.abandon
    | _ => s.mgDone 1

/-- WRCMD (22 R383, R385): RESET, or RESUME of a node. -/
def State.wrcmd (s : State) (v : W64) : State :=
  if bf v 11 53 ≠ 0 then s.modPlat (fun p => { p with wrResult := 1 })
  else match bf v 0 4 with
    | 1 => s.triggerReset 3 (w64 (2 ^ 64 - 1))
    | 2 => (s.wrcmdResume v).getD s
    | _ => s

/-- FWCMD (26 R421, R422). -/
def State.fwcmd (s : State) (v : W64) : State :=
  if s.plat.warm ∨ s.plat.writing.isSome then s
  else if bf v 4 60 ≠ 0 then s.fwDone 1
  else match bf v 0 4 with
    | 1 => s.stage
    | 2 => s.commitSvn
    | _ => s.fwDone 1

/-- A node's registers (20 R359). -/
def State.writeNode (s : State) (n off : Nat) (v : W64) : State :=
  if off = 0 then
    if bf v 4 60 ≠ 0 then s.nodeResult n 5
    else match bf v 0 4 with
      | 1 => s.split n
      | 2 => s.merge n
      | 3 => s.release n
      | _ => s.nodeResult n 5
  else s.paddockConfigWrite n off v

/-- A tenant's registers of the tier engine (21 R377). -/
def State.writeTenant (s : State) (v off : Nat) (x : W64) : State :=
  if off = 0x10 then (if bf x 0 16 ≠ 0 then s else s.modVf v (fun t => { t with tback := x }))
  else if off = 0x18 then (if bf x 32 32 ≠ 0 then s else s.modVf v (fun t => { t with tblen := x }))
  else s

/-- Edge registers (23 R394). -/
def State.writeEdge (s : State) (e off : Nat) (v : W64) : State :=
  if off = 0x10 then
    s.modEdge e (fun x => { x with dir0 := { x.dir0 with crc := w1c x.dir0.crc v 0, rpl := w1c x.dir0.rpl v 32 },
                                   dir1 := { x.dir1 with crc := w1c x.dir1.crc v 16, rpl := w1c x.dir1.rpl v 48 } })
  else s

/-- Registers of the log, power and temperature (25 R416, R419). A write with bits set that the map does not list, such as PWSEL
[63:7] or TIER1 [63:48], stores the field and drops the rest: a DESIGN CHOICE of the model. See log 56. -/
def State.writePower (s : State) (off : Nat) (v : W64) : State :=
  if off = 0x410000 then (if bf v 0 12 = 0 then (s.setPf off v).moveLog.flushLog else s)
  else if off = 0x410008 then (if 8 < bf v 0 4 ∨ bf v 5 59 ≠ 0 then s
    else ((if bf v 0 4 = bf (s.pf off) 0 4 then s else s.moveLog).setPf off v).flushLog)
  else if off = 0x410010 then s.elhead v
  else if off = 0x410020 then s.setPf off (w1c (s.pf off) v 0)
  else if off = 0x420000 then s.setPf off (w64 (bf v 0 7))
  else if off = 0x420008 then s.pwcmd v
  else if off = 0x420018 then s.pwgate v
  else if off = 0x420020 then s.pwhbm v
  else if 0x420028 ≤ off ∧ off < 0x420048 ∧ off % 8 = 0 then
    (if bit v 32 then s.modDie ((off - 0x420028) / 8) (fun x => { x with clHit := false }) else s)
  else if 0x420048 ≤ off ∧ off < 0x420068 ∧ off % 8 = 0 then
    s.modDie ((off - 0x420048) / 8) (fun x => { x with tempMax := w1c x.tempMax v 8 })
  else s

/-- Link, membership and collective registers (23 R394, R397, R403, R404). DESIGN CHOICE: the map of R397 does not say what a
write with reserved bits does to MBJOB and MBCNT; the fields are written and the reserved bits dropped. See log 56. -/
def State.writeLink (s : State) (off : Nat) (v : W64) : State :=
  if off < 0x300400 then s.writeEdge ((off - 0x300000) / 0x100) (off % 0x100) v
  else if 0x301000 ≤ off ∧ off < 0x301800 then
    (if off % 0x40 = 8 then s.modPort ((off - 0x301000) / 0x40) (fun p =>
      { p with crc := w1c p.crc v 0, rpl := w1c p.rpl v 16, retrains := w1c p.retrains v 32 }) else s)
  else if off = 0x308000 ∨ off = 0x308010 then s.setPf off (w64 (if off = 0x308000 then bf v 0 32 else bf v 0 13))
  else if off = 0x308008 then s.setPf off v
  else if off = 0x308018 then (if bit v 0 then s.membershipLoad else s)
  else if 0x309000 ≤ off ∧ off < 0x309100 ∧ off % 0x40 = 8 then
    s.modDie ((off - 0x309000) / 0x40) (fun x => { x with ceMismatch := w1c x.ceMismatch v 0, ceTmo := w1c x.ceTmo v 16 })
  else if off = 0x30A000 then s.modPlat (fun p => { p with pdisc := w1c p.pdisc v 0, fdisc := w1c p.fdisc v 16 })
  else s

/-- Migration, warm-reset and watchdog registers (22 R385). -/
def State.writeMigration (s : State) (off : Nat) (v : W64) : State :=
  if off = 0x200000 then s.mgcmd v
  else if off = 0x200008 then s.writeRw off v 0xFFFFFFFFFFF00000#64
  else if 0x200020 ≤ off ∧ off < 0x200040 ∧ off % 8 = 0 then s.setPf off v
  else if off = 0x200100 then s.wrcmd v
  else if off = 0x200200 then s.writeRw off v 0xFFFFFFFFFFFFFF80#64
  else if off = 0x200210 then s.wdbudget v
  else s

/-- Tier-engine registers (21 R377); what is left of an address or length beyond its field is not stored. -/
def State.writeTier (s : State) (off : Nat) (v : W64) : State :=
  if off < 0x104000 then (let n := (off - 0x100000) / 0x40; if n = 0 ∨ Config.vfs < n then s else s.writeTenant n (off % 0x40) v)
  else if off = 0x108000 ∨ off = 0x108010 then s.setPf off v
  else if off = 0x108008 then s.setPf off (w64 (bf v 0 55))
  else if off = 0x108018 then s.setPf off (w64 (bf v 0 48))
  else if off = 0x108020 then (if bit v 0 then s.teGo else s)
  else if off = 0x108030 then s.writeRw off (w64 (bf v 0 48)) 0xE000#64
  else s

/-- A write to the PF BAR0 (20 R352); during a safe start only the Rovas mailbox answers (22 R388). See log 56. -/
def State.writePf (s : State) (off : Nat) (v : W64) : State :=
  if off = 0x08 then s.fwcmd v
  else if off = 0x10 then s.writeRw off v 0xFFF#64
  else if off = 0x18 then s.writeRw off v 0xFFFFFFFFFF000000#64
  else if s.plat.safe then s
  else if 0x010100 ≤ off ∧ off < 0x018000 then s.writeNode ((off - 0x010000) / 0x100) (off % 0x100) v
  else if 0x020000 ≤ off ∧ off < 0x020608 ∧ off % 8 = 0 then s.vfBind ((off - 0x020000) / 8) v
  else if 0x100000 ≤ off ∧ off < 0x200000 then s.writeTier off v
  else if 0x200000 ≤ off ∧ off < 0x300000 then s.writeMigration off v
  else if 0x300000 ≤ off ∧ off < 0x400000 then s.writeLink off v
  else if 0x400000 ≤ off ∧ off < 0x500000 then s.writePower off v
  else s

/-! ### Register writes of a VF (20 R353) -/

/-- A write to a VF BAR0: an unbound function ignores it, and so does every one during a warm reset (22 R383). -/
def State.writeVf (s : State) (v off : Nat) (x : W64) : State :=
  if (s.vf v).node = 0 then s
  else if off = 0x100000 then s.lwpost v x
  else if s.plat.warm then s
  else if off < 0x8000 ∧ off % 8 = 0 then
    s.modVf v (fun t => { t with slots := (List.range 8).foldl (fun b i => tset b (off + i) (byteOf x.toNat i) 0) t.slots })
  else if off = 0x100010 then (if bf x 0 12 ≠ 0 then s else (s.modVf v (fun t => { t with cqBase := x })).flushCompletions v)
  else if off = 0x100018 then (if bf x 5 59 ≠ 0 ∨ 8 < bf x 0 4 then s else (s.modVf v (fun t => { t with cqCfg := x })).flushCompletions v)
  else if off = 0x100020 then s.lwcqhead v x
  else if off = 0x100030 then s.lwcancel v x
  else s

/-- REGISTER_WRITE (R3): function 0 is the PF. See log 56. -/
def State.registerWrite (s : State) (v off : Nat) (x : W64) : Option State :=
  if v = 0 then some (s.writePf off x) else if Config.vfs < v then none else some (s.writeVf v off x)

/-- REGISTER_WRITE (R3). -/
def execRegisterWrite (v off : Nat) (x : W64) (s : State) : Host.Outcome State Fault Refusal := event "REGISTER_WRITE" (s.registerWrite v off x)

end Sys2Proof.Machine
end

