-- ==== Sys2Proof/Machine/Chores.lean ====
section
/-!
DEFINITION. The steps that earlier steps have caused: each runs as the step of its name; one whose time has not come yet
is put back behind what it waits for. The order is the model's own schedule.
-/

namespace Sys2Proof.Machine

open Sys2Proof

/-- The step of a chore; none when it cannot happen now. -/
def State.tryChore (s : State) (c : Chore) : Option State :=
  match c with
  | .walkerFetch c k w => s.walkerFetch c k w
  | .walkerStoreWrite c k w => s.walkerWrite c k w
  | .pageBringUp v p => s.pageBringUp v p
  | .backgroundScrub f => s.backgroundScrub f
  | .startMessage c pc arg => s.startMessage c pc arg
  | .coreArrive c sl => s.coreArrive c sl
  | .risingPennant d => s.risingPennant d
  | .pollTimer d => s.pollTimer d
  | .poll d p => s.poll d p
  | .corePark c => s.corePark c
  | .decideCommit d p => s.decideCommit d p
  | .decideAbort d p => s.decideAbort d p
  | .decideProceed c sl => s.decideProceed c sl
  | .donePennant d => s.donePennant d
  | .resume c => s.resume c
  | .watchdogExpiry d => s.watchdogExpiry d
  | .deltaArrive c n => s.deltaArrive c n
  | .matrixJobStart t => s.matrixJobStart t
  | .drainRow t => s.drainRow t
  | .matrixJobComplete t => s.matrixJobComplete t
  | .chainForward k => s.chainForward k
  | .streamPublishRead k n => s.streamPublishRead k n
  | .copyReusable c i => s.copyReusable c i
  | .copyVisible c i => s.copyVisible c i
  | .copyFault c i => s.copyFault c i
  | .pfeRun t => s.pfeRun t
  | .pfeLand t => s.pfeLand t
  | .pfePromote t a => some (s.pfePromote t a)
  | .sweepComplete c i => s.sweepComplete c i
  | .bgemvComplete c i => s.bgemvComplete c i
  | .nbuFault c i => s.nbuFault c i
  | .collStart d i => s.collStart d i
  | .collComplete d i => s.collComplete d i
  | .collTimeout d i => s.collTimeout d i
  | .globalAccessPerformed c => s.globalAccessPerformed c
  | .storeWrite c k => s.storeWrite c k
  | .loadPart c k seq p v => some (s.loadPart c k seq p v none)
  | .loadSend c k seq a n => some (s.loadSend c k seq a n)
  | .scStart c k scope seq => some (s.scStart c k scope seq)
  | .scFence c k => s.scFence c k
  | .bankWrite c i => (s.bankOut c i).toOption
  | .launchSelect n => s.launchSelect n
  | .gatePass n => s.gatePass n
  | .recomputeDrop n => s.recomputeDrop n
  | .saveSignal c => s.saveSignal c
  | .copySaveDone d => s.copySaveDone d
  | .restoreDone d => s.restoreDone d
  | .warmReset k f => s.warmReset k f
  | .warmResetOverrun => s.warmResetOverrun
  | .edgeDown e => s.edgeDown e
  | .moduleRetrain e m => s.moduleRetrain e m
  | .portRetrain p => s.portRetrain p
  | .heartbeatFlit p e => s.heartbeatFlit p e
  | .deviceFailed d v => s.deviceFailed d v
  | .powerStateApply n => s.powerStateApply n
  | .derate e u => s.derate e u
  | .flashWrite => s.flashWrite

/-- What the commands of a core wait for. -/
def State.commandChores (s : State) (c : Nat) : List Chore :=
  let co := s.core c
  co.copies.flatMap (copyChores c)
    ++ (co.banks.filter (fun b => b.state != 3)).flatMap (fun b => [Chore.bgemvComplete c b.id, .nbuFault c b.id])
    ++ (co.banks.filter (fun b => !b.out.isEmpty)).map (fun b => Chore.bankWrite c b.id)
    ++ co.ctxs.flatMap (fun p => s.storeChores c p.1)
    ++ (if co.gstores.isEmpty then [] else [.globalAccessPerformed c])
    ++ s.teams.flatMap (fun p => if (p.2.queue ++ p.2.jobs).any (fun j => j.core == c && j.state != 3) ∨ p.1 = teamOf c
        then [.matrixJobStart p.1, .drainRow p.1, .matrixJobComplete p.1] else [])

/-- A chore that could not happen: what it waits for when it may happen later, none when it no longer means anything. -/
def State.choreWaits (s : State) (c : Chore) : Option (List Chore) :=
  match c with
  | .globalAccessPerformed c => if (s.core c).gstores.isEmpty then none else some
      ((s.requestsFree c).filterMap (fun g => if s.xlate (s.tenantOf c) g.addr (if g.load then .read else .write) = .wait
        then some (.pageBringUp (s.tenantOf c) (g.addr.toNat / 2 ^ 16)) else none)
      ++ (s.core c).ctxs.flatMap (fun p => s.storeChores c p.1))
  | .storeWrite c k => if (s.ctx c k).stores.isEmpty then none else some (s.afterChores c k)
  | .walkerStoreWrite c k w => if (s.walkerHeld c k w).isEmpty then none else some (s.afterChores c k)
  | .scFence c k => if (s.ctx c k).sc.isSome then some (s.afterChores c k) else none
  | .bankWrite c i => match s.bankOut c i with | .error (x :: l) => some (x :: l) | _ => none
  | .deltaArrive c q => if (s.core c).flight.any (fun d => d.seq == q) then some [] else none
  | .coreArrive c sl => if (s.core c).phase = .drain ∧ (s.core c).slot = sl then some (s.commandChores c) else none
  | .matrixJobStart t => if (s.team t).queue.isEmpty then none else some (s.jobWaits t)
  | .drainRow t => if (s.team t).jobs.all (fun j => j.left.isEmpty) then none else some (match s.drainNext t with | .error l => l | .ok _ => [])
  | .streamPublishRead k n => match s.publishRead k n with | .error (x :: l) => some (x :: l) | _ => none
  | .copyReusable c i => match s.runCopy c i with
    | some (_, .wait l) => some l
    | some (_, .done _) => some [.pfeRun (teamOf c)]
    | some (_, .fault ..) => some [.copyFault c i]
    | _ => if (s.core c).copies.any (fun x => x.id == i && !x.reusable) then some ((s.core c).copies.flatMap (copyChores c)) else none
  | .copyFault c i => match s.runCopy c i with | some (_, .fault ..) => some [.pfeRun (teamOf c)] | _ => none
  | .copyVisible c i => if (s.core c).copies.any (fun x => x.id == i) then some [] else none
  | .sweepComplete c i => match s.runCopy c i with
    | some (_, .wait l) => some l
    | some (_, .fault ..) => some [.copyFault c i]
    | _ => if (s.core c).copies.any (fun x => x.id == i && !x.reusable) then some [] else none
  | .pfeRun t => match (s.team t).nextElem with
    | some (ch, e) => (match s.elemCheck ch e with | .wait l => some l | _ => some [])
    | none => none
  | .pfeLand t => match (s.team t).running with
    | some (ch, e) => (match s.elemCheck ch e with | .wait l => some l | _ => some [])
    | none => none
  | .bgemvComplete c i => match s.bankRun c i with
    | .error (x :: l) => some (x :: l)
    | _ => if ((s.core c).bankOf i).isSome then some [.nbuFault c i] else none
  | .collStart d i => match s.collBegin d i with | .error (x :: l) => some (x :: l) | _ => none
  | .collComplete d i => match s.collFinish d i with | .error (x :: l) => some (x :: l) | _ => none
  | .gatePass n => if (s.gating n).isNone then none else (match s.passGate n with | .error (x :: l) => some (x :: l) | _ => none)
  | .decideCommit d p => match p with
    | .die k => if (s.domain d).decision.isSome ∧ !(s.domain d).done.contains p then some (s.deltaWaits k (s.domain d).vf) else none
    | _ => none
  | .decideAbort d p => if (s.domain d).decision.isSome ∧ !(s.domain d).done.contains p then some [] else none
  | .deviceFailed d v => if (s.domain d).live ∧ (s.domain d).decision.isSome ∧ !(s.domain d).absent.contains v then some [] else none
  | .derate e u => if (s.speedOf e u).pending then some [] else none
  | _ => none

/-- The cluster whose cores, engines or copy units take a step. -/
def Chore.cluster (x : Chore) : Option Nat :=
  match x with
  | .walkerFetch c _ _ | .walkerStoreWrite c _ _ | .storeWrite c _ | .scFence c _ | .bankWrite c _ | .coreArrive c _
  | .copyReusable c _ | .copyVisible c _ | .copyFault c _ | .sweepComplete c _ => some (clusterOf c)
  | .matrixJobStart t | .drainRow t | .matrixJobComplete t | .pfeRun t | .pfeLand t => some (t / 16)
  | .chainForward k | .streamPublishRead k _ => some k
  | _ => none

/-- A chore's turn; a gated cluster's waits (25 R418). -/
def State.runChore (s : State) (c : Chore) : State :=
  if c.cluster.any s.gated then s.pend [c]
  else match s.tryChore c with
  | some t => t
  | none => match s.choreWaits c with
    | some l => s.pend (l ++ [c])
    | none => s

end Sys2Proof.Machine
end

