-- ==== Sys2Proof/Machine/Loops.lean ====
section
/-!
DEFINITION. The zero-overhead loop instructions (07 R175, 09 R216, R217, R219).
-/

namespace Sys2Proof.Machine

open Sys2Proof

/-- Loop level l opened (R217). -/
def Loops.openAt (l : Loops) (start : W64) (len : Nat) (walk : Bool) (walker flag : Nat) (count : W64) : Loops :=
  let k := l.depth
  let st := bput (bput (bput (bput l.lstate (16 * k + 16) 8 (len - 1)) (16 * k + 24) 1 (b2n walk)) (16 * k + 25) 3 walker) (16 * k + 28) 2 flag
  (({ l with lstate := st }.setAddr k start).setCount k count).setDepth (k + 1)

/-- The word at an address is a hint; a page that is not there yet is waited for. -/
def hintAt (addr : W64) : M Bool := do
  let s ← get
  match s.fetch s.issue.core addr with
  | .word w _ => return isHint (instrOf w)
  | .wait v page => stallFor [.pageBringUp v page]
  | .trap _ _ => return false

/-- A loop instruction with a body of len words and, when it counts, a count (R175, R217). -/
def openLoop (len : Nat) (walk : Bool) (walker flag : Nat) (count : W64) : M Unit := do
  let s ← get
  let l := (← getCtx).loops
  let start := s.issue.addr + 4
  let last := start + w64 (4 * (len - 1))
  if 256 < len ∨ 3 ≤ l.depth then illegalInstr else pure ()
  if l.depth ≠ 0 then
    let k := l.depth - 1
    if start.toNat < (l.addr k).toNat ∨ (l.addr k).toNat + 4 * l.len k < last.toNat then illegalInstr else pure ()
  else pure ()
  if ← hintAt last then illegalInstr else pure ()
  if !walk ∧ count = 0 then jump (last + 4)
  else do
    modCtx (fun c => { c with loops := c.loops.openAt start len walk walker flag count })
    fallThrough

/-- LOOP (R216). -/
def execLoop (a : BitVec 6) (i : BitVec 12) (s : State) : Host.Outcome State Fault Refusal :=
  let v := s.imm i
  run (.loop a i) false (!xOnly a) (openLoop (v.toNat + 1) false 0 0 (s.xval a)) s

/-- LOOPI (R216). -/
def execLoopi (i : BitVec 18) (s : State) : Host.Outcome State Fault Refusal :=
  let v := s.imm i
  run (.loopi i) false false (openLoop (v.toNat % 256 + 1) false 0 0 (w64 (v.toNat / 256))) s

/-- LOOPW (R216). -/
def execLoopw (f : BitVec 2) (w : BitVec 3) (i : BitVec 12) (s : State) : Host.Outcome State Fault Refusal :=
  let v := s.imm i
  run (.loopw f w i) false false (openLoop (v.toNat + 1) true w.toNat f.toNat 0) s

/-- LBRK (R219). -/
def execLbrk (n : BitVec 2) (s : State) : Host.Outcome State Fault Refusal :=
  let l := (s.ctx s.issue.core s.issue.ctx).loops
  run (.lbrk n) (decide (l.depth < n.toNat)) false (do
    let k := l.depth - n.toNat
    modCtx (fun c => { c with loops := c.loops.setDepth k })
    jump (l.exit k)) s

end Sys2Proof.Machine
end

