-- ==== Sys2Proof/Machine/Dispatch.lean ====
section
/-!
DEFINITION. The meaning of each constructor of Instr, arm by arm.
-/

namespace Sys2Proof.Machine

open Sys2Proof

/-- What an instruction, or a step that is no instruction word, does to a state. -/
def exec (i : Instr) (s : State) : Host.Outcome State Fault Refusal :=
  match i with
  | .aadd d a b w => Sys2Proof.Machine.execAadd d a b w s
  | .asub d a b w => Sys2Proof.Machine.execAsub d a b w s
  | .aand d a b w => Sys2Proof.Machine.execAand d a b w s
  | .aorr d a b w => Sys2Proof.Machine.execAorr d a b w s
  | .axor d a b w => Sys2Proof.Machine.execAxor d a b w s
  | .ashl d a b w => Sys2Proof.Machine.execAshl d a b w s
  | .ashr d a b w => Sys2Proof.Machine.execAshr d a b w s
  | .asar d a b w => Sys2Proof.Machine.execAsar d a b w s
  | .amul d a b w => Sys2Proof.Machine.execAmul d a b w s
  | .amad d a b w => Sys2Proof.Machine.execAmad d a b w s
  | .amin d a b w => Sys2Proof.Machine.execAmin d a b w s
  | .amax d a b w => Sys2Proof.Machine.execAmax d a b w s
  | .aminu d a b w => Sys2Proof.Machine.execAminu d a b w s
  | .amaxu d a b w => Sys2Proof.Machine.execAmaxu d a b w s
  | .aslt d a b w => Sys2Proof.Machine.execAslt d a b w s
  | .asltu d a b w => Sys2Proof.Machine.execAsltu d a b w s
  | .aaddi d a im => Sys2Proof.Machine.execAaddi d a im s
  | .aandi d a im => Sys2Proof.Machine.execAandi d a im s
  | .ashli d a im => Sys2Proof.Machine.execAshli d a im s
  | .ashri d a im => Sys2Proof.Machine.execAshri d a im s
  | .asari d a im => Sys2Proof.Machine.execAsari d a im s
  | .ali d im => Sys2Proof.Machine.execAli d im s
  | .alui d im => Sys2Proof.Machine.execAlui d im s
  | .abeq a b o => Sys2Proof.Machine.execAbeq a b o s
  | .abne a b o => Sys2Proof.Machine.execAbne a b o s
  | .ablt a b o => Sys2Proof.Machine.execAblt a b o s
  | .abge a b o => Sys2Proof.Machine.execAbge a b o s
  | .abltu a b o => Sys2Proof.Machine.execAbltu a b o s
  | .abgeu a b o => Sys2Proof.Machine.execAbgeu a b o s
  | .abq z1 o => Sys2Proof.Machine.execAbq z1 o s
  | .ajmp im => Sys2Proof.Machine.execAjmp im s
  | .acall im => Sys2Proof.Machine.execAcall im s
  | .aret => Sys2Proof.Machine.execAret s
  | .ajr d a im => Sys2Proof.Machine.execAjr d a im s
  | .tnext d im => Sys2Proof.Machine.execTnext d im s
  | .tend => Sys2Proof.Machine.execTend s
  | .spawn d a b => Sys2Proof.Machine.execSpawn d a b s
  | .fan a b => Sys2Proof.Machine.execFan a b s
  | .gang d a => Sys2Proof.Machine.execGang d a s
  | .tqpush d a => Sys2Proof.Machine.execTqpush d a s
  | .ld d b o z1 => Sys2Proof.Machine.execLd d b o z1 s
  | .st d b o z1 => Sys2Proof.Machine.execSt d b o z1 s
  | .ldg d b o z1 => Sys2Proof.Machine.execLdg d b o z1 s
  | .stg d b o z1 => Sys2Proof.Machine.execStg d b o z1 s
  | .latm d b p z1 => Sys2Proof.Machine.execLatm d b p z1 s
  | .atom d a b r w p => Sys2Proof.Machine.execAtom d a b r w p s
  | .put d a b z1 => Sys2Proof.Machine.execPut d a b z1 s
  | .msg d a b f => Sys2Proof.Machine.execMsg d a b f s
  | .wcfg a n => Sys2Proof.Machine.execWcfg a n s
  | .wstart n => Sys2Proof.Machine.execWstart n s
  | .wstop n => Sys2Proof.Machine.execWstop n s
  | .wflags d n => Sys2Proof.Machine.execWflags d n s
  | .wpos d a f n => Sys2Proof.Machine.execWpos d a f n s
  | .cpy d a => Sys2Proof.Machine.execCpy d a s
  | .cpyw a e => Sys2Proof.Machine.execCpyw a e s
  | .winset a b => Sys2Proof.Machine.execWinset a b s
  | .winget d a k => Sys2Proof.Machine.execWinget d a k s
  | .pflist a => Sys2Proof.Machine.execPflist a s
  | .rcpy d a r h => Sys2Proof.Machine.execRcpy d a r h s
  | .rcfg a h => Sys2Proof.Machine.execRcfg a h s
  | .rwait d h => Sys2Proof.Machine.execRwait d h s
  | .rresv d h => Sys2Proof.Machine.execRresv d h s
  | .rprod h => Sys2Proof.Machine.execRprod h s
  | .rcons h => Sys2Proof.Machine.execRcons h s
  | .rslot d a h => Sys2Proof.Machine.execRslot d a h s
  | .ssweep d a b => Sys2Proof.Machine.execSsweep d a b s
  | .add d a b w => Sys2Proof.Machine.execAdd d a b w s
  | .sub d a b w => Sys2Proof.Machine.execSub d a b w s
  | .mul d a b w => Sys2Proof.Machine.execMul d a b w s
  | .mulh d a b w => Sys2Proof.Machine.execMulh d a b w s
  | .mulhu d a b w => Sys2Proof.Machine.execMulhu d a b w s
  | .div d a b w => Sys2Proof.Machine.execDiv d a b w s
  | .divu d a b w => Sys2Proof.Machine.execDivu d a b w s
  | .rem d a b w => Sys2Proof.Machine.execRem d a b w s
  | .remu d a b w => Sys2Proof.Machine.execRemu d a b w s
  | .and d a b w => Sys2Proof.Machine.execAnd d a b w s
  | .or d a b w => Sys2Proof.Machine.execOr d a b w s
  | .xor d a b w => Sys2Proof.Machine.execXor d a b w s
  | .shl d a b w => Sys2Proof.Machine.execShl d a b w s
  | .shr d a b w => Sys2Proof.Machine.execShr d a b w s
  | .sar d a b w => Sys2Proof.Machine.execSar d a b w s
  | .min d a b w => Sys2Proof.Machine.execMin d a b w s
  | .max d a b w => Sys2Proof.Machine.execMax d a b w s
  | .minu d a b w => Sys2Proof.Machine.execMinu d a b w s
  | .maxu d a b w => Sys2Proof.Machine.execMaxu d a b w s
  | .slt d a b w => Sys2Proof.Machine.execSlt d a b w s
  | .sltu d a b w => Sys2Proof.Machine.execSltu d a b w s
  | .seq d a b w => Sys2Proof.Machine.execSeq d a b w s
  | .sel d a b w => Sys2Proof.Machine.execSel d a b w s
  | .clz d a w => Sys2Proof.Machine.execClz d a w s
  | .popc d a w => Sys2Proof.Machine.execPopc d a w s
  | .sext d a w => Sys2Proof.Machine.execSext d a w s
  | .addi d a im => Sys2Proof.Machine.execAddi d a im s
  | .andi d a im => Sys2Proof.Machine.execAndi d a im s
  | .ori d a im => Sys2Proof.Machine.execOri d a im s
  | .xori d a im => Sys2Proof.Machine.execXori d a im s
  | .shli d a im => Sys2Proof.Machine.execShli d a im s
  | .shri d a im => Sys2Proof.Machine.execShri d a im s
  | .sari d a im => Sys2Proof.Machine.execSari d a im s
  | .li d im => Sys2Proof.Machine.execLi d im s
  | .lui d im => Sys2Proof.Machine.execLui d im s
  | .fadd d a b r f => Sys2Proof.Machine.execFadd d a b r f s
  | .fsub d a b r f => Sys2Proof.Machine.execFsub d a b r f s
  | .fmul d a b r f => Sys2Proof.Machine.execFmul d a b r f s
  | .fma d a b r f => Sys2Proof.Machine.execFma d a b r f s
  | .fmin d a b f => Sys2Proof.Machine.execFmin d a b f s
  | .fmax d a b f => Sys2Proof.Machine.execFmax d a b f s
  | .fcmp d a b c f => Sys2Proof.Machine.execFcmp d a b c f s
  | .fcvt d a k t z1 r => Sys2Proof.Machine.execFcvt d a k t z1 r s
  | .fsgn d a b o f => Sys2Proof.Machine.execFsgn d a b o f s
  | .fclass d a f => Sys2Proof.Machine.execFclass d a f s
  | .frnd d a r f => Sys2Proof.Machine.execFrnd d a r f s
  | .epb a c => Sys2Proof.Machine.execEpb a c s
  | .ebnz a z1 o => Sys2Proof.Machine.execEbnz a z1 o s
  | .vadd d a b m k w => Sys2Proof.Machine.execVadd d a b m k w s
  | .vsub d a b m k w => Sys2Proof.Machine.execVsub d a b m k w s
  | .vmul d a b m k w => Sys2Proof.Machine.execVmul d a b m k w s
  | .vmulh d a b m k w => Sys2Proof.Machine.execVmulh d a b m k w s
  | .vmin d a b m k w => Sys2Proof.Machine.execVmin d a b m k w s
  | .vmax d a b m k w => Sys2Proof.Machine.execVmax d a b m k w s
  | .vminu d a b m k w => Sys2Proof.Machine.execVminu d a b m k w s
  | .vmaxu d a b m k w => Sys2Proof.Machine.execVmaxu d a b m k w s
  | .vand d a b m k w => Sys2Proof.Machine.execVand d a b m k w s
  | .vor d a b m k w => Sys2Proof.Machine.execVor d a b m k w s
  | .vxor d a b m k w => Sys2Proof.Machine.execVxor d a b m k w s
  | .vshl d a b m k w => Sys2Proof.Machine.execVshl d a b m k w s
  | .vshr d a b m k w => Sys2Proof.Machine.execVshr d a b m k w s
  | .vsar d a b m k w => Sys2Proof.Machine.execVsar d a b m k w s
  | .vsadd d a b m k w => Sys2Proof.Machine.execVsadd d a b m k w s
  | .vsaddu d a b m k w => Sys2Proof.Machine.execVsaddu d a b m k w s
  | .vcmp d a b c w => Sys2Proof.Machine.execVcmp d a b c w s
  | .vsel d a b m w => Sys2Proof.Machine.execVsel d a b m w s
  | .vfadd d a b m k w => Sys2Proof.Machine.execVfadd d a b m k w s
  | .vfsub d a b m k w => Sys2Proof.Machine.execVfsub d a b m k w s
  | .vfmul d a b m k w => Sys2Proof.Machine.execVfmul d a b m k w s
  | .vfma d a b m k w => Sys2Proof.Machine.execVfma d a b m k w s
  | .vfmin d a b m k w => Sys2Proof.Machine.execVfmin d a b m k w s
  | .vfmax d a b m k w => Sys2Proof.Machine.execVfmax d a b m k w s
  | .vfcmp d a b c f => Sys2Proof.Machine.execVfcmp d a b c f s
  | .vfcvt d a p t z1 r => Sys2Proof.Machine.execVfcvt d a p t z1 r s
  | .vfsgn d a b o f => Sys2Proof.Machine.execVfsgn d a b o f s
  | .vfclass d a f => Sys2Proof.Machine.execVfclass d a f s
  | .vfred d a o f => Sys2Proof.Machine.execVfred d a o f s
  | .vdot d a b r t => Sys2Proof.Machine.execVdot d a b r t s
  | .voptw d a b p => Sys2Proof.Machine.execVoptw d a b p s
  | .vmov d a m k w => Sys2Proof.Machine.execVmov d a m k w s
  | .vsplat d a m k w => Sys2Proof.Machine.execVsplat d a m k w s
  | .vext d a w k => Sys2Proof.Machine.execVext d a w k s
  | .vins d a w k => Sys2Proof.Machine.execVins d a w k s
  | .vperm d a b m k w => Sys2Proof.Machine.execVperm d a b m k w s
  | .vshuf d a b o w => Sys2Proof.Machine.execVshuf d a b o w s
  | .vnarrow d a b m w => Sys2Proof.Machine.execVnarrow d a b m w s
  | .vwiden d a h z1 w => Sys2Proof.Machine.execVwiden d a h z1 w s
  | .vslide d a b w z1 => Sys2Proof.Machine.execVslide d a b w z1 s
  | .vqpack d a b p t f => Sys2Proof.Machine.execVqpack d a b p t f s
  | .vqunpk d a b p t f => Sys2Proof.Machine.execVqunpk d a b p t f s
  | .vscale d a t f => Sys2Proof.Machine.execVscale d a t f s
  | .vmpop d a m w => Sys2Proof.Machine.execVmpop d a m w s
  | .vmfirst d a m w => Sys2Proof.Machine.execVmfirst d a m w s
  | .vrot d a b r w => Sys2Proof.Machine.execVrot d a b r w s
  | .cord d a n f => Sys2Proof.Machine.execCord d a n f s
  | .vcord d a n f => Sys2Proof.Machine.execVcord d a n f s
  | .sset d a c => Sys2Proof.Machine.execSset d a c s
  | .sread d a => Sys2Proof.Machine.execSread d a s
  | .sadd d a b r => Sys2Proof.Machine.execSadd d a b r s
  | .smrg d a b r => Sys2Proof.Machine.execSmrg d a b r s
  | .vsread d a => Sys2Proof.Machine.execVsread d a s
  | .vsaddStamped d a b r => Sys2Proof.Machine.execVsaddStamped d a b r s
  | .vsmrg d a b r => Sys2Proof.Machine.execVsmrg d a b r s
  | .rsld d b o z1 => Sys2Proof.Machine.execRsld d b o z1 s
  | .rsst d b o z1 => Sys2Proof.Machine.execRsst d b o z1 s
  | .tvld a n => Sys2Proof.Machine.execTvld a n s
  | .mloadn d n => Sys2Proof.Machine.execMloadn d n s
  | .mloadw d n => Sys2Proof.Machine.execMloadw d n s
  | .mjob d a => Sys2Proof.Machine.execMjob d a s
  | .mwait d a => Sys2Proof.Machine.execMwait d a s
  | .mpoll d a => Sys2Proof.Machine.execMpoll d a s
  | .mpub d a n => Sys2Proof.Machine.execMpub d a n s
  | .msub d a b => Sys2Proof.Machine.execMsub d a b s
  | .munsub a => Sys2Proof.Machine.execMunsub a s
  | .mchain d a n => Sys2Proof.Machine.execMchain d a n s
  | .msend d a b => Sys2Proof.Machine.execMsend d a b s
  | .mcap d a b => Sys2Proof.Machine.execMcap d a b s
  | .mhnd d => Sys2Proof.Machine.execMhnd d s
  | .mdone d a m => Sys2Proof.Machine.execMdone d a m s
  | .bgemv d a => Sys2Proof.Machine.execBgemv d a s
  | .bwait d a => Sys2Proof.Machine.execBwait d a s
  | .coll d a => Sys2Proof.Machine.execColl d a s
  | .cwait d a => Sys2Proof.Machine.execCwait d a s
  | .csig a b z1 k => Sys2Proof.Machine.execCsig a b z1 k s
  | .bar d a o z1 => Sys2Proof.Machine.execBar d a o z1 s
  | .vote a c k => Sys2Proof.Machine.execVote a c k s
  | .stepadv a => Sys2Proof.Machine.execStepadv a s
  | .fence z1 k => Sys2Proof.Machine.execFence z1 k s
  | .fenceSc z1 => Sys2Proof.Machine.execFenceSc z1 s
  | .fenceBank => Sys2Proof.Machine.execFenceBank s
  | .wait d a b z1 c => Sys2Proof.Machine.execWait d a b z1 c s
  | .csrr d c => Sys2Proof.Machine.execCsrr d c s
  | .csrw d c => Sys2Proof.Machine.execCsrw d c s
  | .csrs d c => Sys2Proof.Machine.execCsrs d c s
  | .csrc d c => Sys2Proof.Machine.execCsrc d c s
  | .trap im => Sys2Proof.Machine.execTrap im s
  | .eret => Sys2Proof.Machine.execEret s
  | .halt => Sys2Proof.Machine.execHalt s
  | .nop => Sys2Proof.Machine.execNop s
  | .feat d a t => Sys2Proof.Machine.execFeat d a t s
  | .dbrk im => Sys2Proof.Machine.execDbrk im s
  | .loop a im => Sys2Proof.Machine.execLoop a im s
  | .loopi im => Sys2Proof.Machine.execLoopi im s
  | .loopw f w im => Sys2Proof.Machine.execLoopw f w im s
  | .lbrk n => Sys2Proof.Machine.execLbrk n s
  | .himm p => Sys2Proof.Machine.execHimm p s
  | .hmod e z1 n c k => Sys2Proof.Machine.execHmod e z1 n c k s
  | .hsched x k r l => Sys2Proof.Machine.execHsched x k r l s
  | .nopHint op p => Sys2Proof.Machine.execNopHint op p s
  | .illegalInstruction w => Sys2Proof.Machine.execIllegalInstruction w s
  | .fetchDeliver core ctx => Sys2Proof.Machine.execFetchDeliver core ctx s
  | .walkerFetch core ctx walker => Sys2Proof.Machine.execWalkerFetch core ctx walker s
  | .walkerStoreWrite core ctx walker => Sys2Proof.Machine.execWalkerStoreWrite core ctx walker s
  | .translationWalk core page write => Sys2Proof.Machine.execTranslationWalk core page write s
  | .pageBringUp tenant page => Sys2Proof.Machine.execPageBringUp tenant page s
  | .backgroundScrub frame => Sys2Proof.Machine.execBackgroundScrub frame s
  | .startMessage core pc arg => Sys2Proof.Machine.execStartMessage core pc arg s
  | .coreArrive core slot => Sys2Proof.Machine.execCoreArrive core slot s
  | .risingPennant dom => Sys2Proof.Machine.execRisingPennant dom s
  | .pollTimer dom => Sys2Proof.Machine.execPollTimer dom s
  | .poll dom who => Sys2Proof.Machine.execPoll dom who s
  | .corePark core => Sys2Proof.Machine.execCorePark core s
  | .decideCommit dom who => Sys2Proof.Machine.execDecideCommit dom who s
  | .decideAbort dom who => Sys2Proof.Machine.execDecideAbort dom who s
  | .donePennant dom => Sys2Proof.Machine.execDonePennant dom s
  | .resume core => Sys2Proof.Machine.execResume core s
  | .watchdogExpiry dom => Sys2Proof.Machine.execWatchdogExpiry dom s
  | .deltaArrive core seq => Sys2Proof.Machine.execDeltaArrive core seq s
  | .matrixJobStart team => Sys2Proof.Machine.execMatrixJobStart team s
  | .drainRow team => Sys2Proof.Machine.execDrainRow team s
  | .matrixJobComplete team => Sys2Proof.Machine.execMatrixJobComplete team s
  | .chainForward cluster => Sys2Proof.Machine.execChainForward cluster s
  | .streamPublishRead cluster sid => Sys2Proof.Machine.execStreamPublishRead cluster sid s
  | .copyReusable core id => Sys2Proof.Machine.execCopyReusable core id s
  | .copyVisible core id => Sys2Proof.Machine.execCopyVisible core id s
  | .copyFault core id => Sys2Proof.Machine.execCopyFault core id s
  | .pfeRun team => Sys2Proof.Machine.execPfeRun team s
  | .pfeLand team => Sys2Proof.Machine.execPfeLand team s
  | .sweepComplete core id => Sys2Proof.Machine.execSweepComplete core id s
  | .bgemvComplete core id => Sys2Proof.Machine.execBgemvComplete core id s
  | .nbuFault core id => Sys2Proof.Machine.execNbuFault core id s
  | .collStart die slot => Sys2Proof.Machine.execCollStart die slot s
  | .collComplete die slot => Sys2Proof.Machine.execCollComplete die slot s
  | .collTimeout die slot => Sys2Proof.Machine.execCollTimeout die slot s
  | .timingReplay engine unit => Sys2Proof.Machine.execTimingReplay engine unit s
  | .currentLimit die => Sys2Proof.Machine.execCurrentLimit die s
  | .thermalTrip hbm unit temp => Sys2Proof.Machine.execThermalTrip hbm unit temp s
  | .derate engine unit => Sys2Proof.Machine.execDerate engine unit s
  | .lwpost vf v => Sys2Proof.Machine.execLwpost vf v s
  | .lwcancel vf v => Sys2Proof.Machine.execLwcancel vf v s
  | .lwcqhead vf v => Sys2Proof.Machine.execLwcqhead vf v s
  | .registerWrite vf off v => Sys2Proof.Machine.execRegisterWrite vf off v s
  | .launchSelect node => Sys2Proof.Machine.execLaunchSelect node s
  | .gatePass node => Sys2Proof.Machine.execGatePass node s
  | .recomputeDrop node => Sys2Proof.Machine.execRecomputeDrop node s
  | .split node => Sys2Proof.Machine.execSplit node s
  | .merge node => Sys2Proof.Machine.execMerge node s
  | .release node => Sys2Proof.Machine.execRelease node s
  | .paddockConfigWrite node off v => Sys2Proof.Machine.execPaddockConfigWrite node off v s
  | .vfBind vf v => Sys2Proof.Machine.execVfBind vf v s
  | .setpte => Sys2Proof.Machine.execSetpte s
  | .fetch => Sys2Proof.Machine.execFetch s
  | .evict => Sys2Proof.Machine.execEvict s
  | .hwrite => Sys2Proof.Machine.execHwrite s
  | .hread => Sys2Proof.Machine.execHread s
  | .shres => Sys2Proof.Machine.execShres s
  | .saveSignal core => Sys2Proof.Machine.execSaveSignal core s
  | .copySaveDone dom => Sys2Proof.Machine.execCopySaveDone dom s
  | .restoreDone dom => Sys2Proof.Machine.execRestoreDone dom s
  | .exportTenant => Sys2Proof.Machine.execExportTenant s
  | .importTenant fabricOk => Sys2Proof.Machine.execImportTenant fabricOk s
  | .importConfirm vf => Sys2Proof.Machine.execImportConfirm vf s
  | .abandon => Sys2Proof.Machine.execAbandon s
  | .warmReset cause failed => Sys2Proof.Machine.execWarmReset cause failed s
  | .warmResetOverrun => Sys2Proof.Machine.execWarmResetOverrun s
  | .wrcmdResume v => Sys2Proof.Machine.execWrcmdResume v s
  | .wdbudget v => Sys2Proof.Machine.execWdbudget v s
  | .start found => Sys2Proof.Machine.execStart found s
  | .membershipLoad => Sys2Proof.Machine.execMembershipLoad s
  | .d2dFlitReceive edge dir seq crcOk => Sys2Proof.Machine.execD2dFlitReceive edge dir seq crcOk s
  | .d2dNak edge dir => Sys2Proof.Machine.execD2dNak edge dir s
  | .moduleRetrain edge module => Sys2Proof.Machine.execModuleRetrain edge module s
  | .edgeDown edge => Sys2Proof.Machine.execEdgeDown edge s
  | .llynnalFlitReceive port header payload crc => Sys2Proof.Machine.execLlynnalFlitReceive port header payload crc s
  | .portRetrain port => Sys2Proof.Machine.execPortRetrain port s
  | .heartbeatFlit port errNs => Sys2Proof.Machine.execHeartbeatFlit port errNs s
  | .deviceFailed dom dev => Sys2Proof.Machine.execDeviceFailed dom dev s
  | .pwcmd v => Sys2Proof.Machine.execPwcmd v s
  | .powerStateApply node => Sys2Proof.Machine.execPowerStateApply node s
  | .pwgate v => Sys2Proof.Machine.execPwgate v s
  | .pwhbm v => Sys2Proof.Machine.execPwhbm v s
  | .stage => Sys2Proof.Machine.execStage s
  | .commitSvn => Sys2Proof.Machine.execCommitSvn s
  | .getVersion fn => Sys2Proof.Machine.execGetVersion fn s
  | .getCapabilities fn => Sys2Proof.Machine.execGetCapabilities fn s
  | .negotiateAlgorithms fn mlDsa87 sha3 mlKem1024 aesGcm => Sys2Proof.Machine.execNegotiateAlgorithms fn mlDsa87 sha3 mlKem1024 aesGcm s
  | .getCertificate fn => Sys2Proof.Machine.execGetCertificate fn s
  | .challenge fn nonce => Sys2Proof.Machine.execChallenge fn nonce s
  | .getMeasurements fn index => Sys2Proof.Machine.execGetMeasurements fn index s
  | .keyExchange fn share => Sys2Proof.Machine.execKeyExchange fn share s
  | .finish fn mac => Sys2Proof.Machine.execFinish fn mac s
  | .setkey vf key => Sys2Proof.Machine.execSetkey vf key s
  | .tdispLockInterface vf => Sys2Proof.Machine.execTdispLockInterface vf s
  | .tdispStartInterface vf => Sys2Proof.Machine.execTdispStartInterface vf s
  | .stopInterface vf => Sys2Proof.Machine.execStopInterface vf s
  | .decideProceed core slot => Sys2Proof.Machine.execDecideProceed core slot s
  | .globalAccessPerformed core => Sys2Proof.Machine.execGlobalAccessPerformed core s
  | .moduleRetrainDone edge module lanes0 lanes1 => Sys2Proof.Machine.execModuleRetrainDone edge module lanes0 lanes1 s
  | .portRetrainDone port ok => Sys2Proof.Machine.execPortRetrainDone port ok s
  | .currentFallsBack die => Sys2Proof.Machine.execCurrentFallsBack die s
  | .debuggerAttach core ctx attach => Sys2Proof.Machine.execDebuggerAttach core ctx attach s
  | .debuggerResume core ctx => Sys2Proof.Machine.execDebuggerResume core ctx s
  | .recoverySelfTest engine unit => Sys2Proof.Machine.execRecoverySelfTest engine unit s
  | .rovasCommand => Sys2Proof.Machine.execRovasCommand s
  | .elhead v => Sys2Proof.Machine.execElhead v s

end Sys2Proof.Machine
end

