-- ==== Sys2Proof/WellFormed.lean ====
section
/-!
DEFINITION. Well-formed instructions: every field of an encoded word fits its width by its type, so the checks are
those on the unit numbers of the steps (01 R11 core, team and cluster numbers; 20 R351 functions, R358 paddock
nodes; 23 R390, R395 edges and ports; 22 R387 start steps).
-/

namespace Sys2Proof

/-- A party names a unit of the module. -/
def Party.wf : Party → Bool
  | .core c => c < Config.cores
  | .cluster k => k < Config.clusters
  | .die d => d < Config.dies

/-- The instruction names units that exist. -/
def Instr.wf (i : Instr) : Bool :=
  match i with
  | .aadd _ _ _ _ => true
  | .asub _ _ _ _ => true
  | .aand _ _ _ _ => true
  | .aorr _ _ _ _ => true
  | .axor _ _ _ _ => true
  | .ashl _ _ _ _ => true
  | .ashr _ _ _ _ => true
  | .asar _ _ _ _ => true
  | .amul _ _ _ _ => true
  | .amad _ _ _ _ => true
  | .amin _ _ _ _ => true
  | .amax _ _ _ _ => true
  | .aminu _ _ _ _ => true
  | .amaxu _ _ _ _ => true
  | .aslt _ _ _ _ => true
  | .asltu _ _ _ _ => true
  | .aaddi _ _ _ => true
  | .aandi _ _ _ => true
  | .ashli _ _ _ => true
  | .ashri _ _ _ => true
  | .asari _ _ _ => true
  | .ali _ _ => true
  | .alui _ _ => true
  | .abeq _ _ _ => true
  | .abne _ _ _ => true
  | .ablt _ _ _ => true
  | .abge _ _ _ => true
  | .abltu _ _ _ => true
  | .abgeu _ _ _ => true
  | .abq _ _ => true
  | .ajmp _ => true
  | .acall _ => true
  | .aret => true
  | .ajr _ _ _ => true
  | .tnext _ _ => true
  | .tend => true
  | .spawn _ _ _ => true
  | .fan _ _ => true
  | .gang _ _ => true
  | .tqpush _ _ => true
  | .ld _ _ _ _ => true
  | .st _ _ _ _ => true
  | .ldg _ _ _ _ => true
  | .stg _ _ _ _ => true
  | .latm _ _ _ _ => true
  | .atom _ _ _ _ _ _ => true
  | .put _ _ _ _ => true
  | .msg _ _ _ _ => true
  | .wcfg _ _ => true
  | .wstart _ => true
  | .wstop _ => true
  | .wflags _ _ => true
  | .wpos _ _ _ _ => true
  | .cpy _ _ => true
  | .cpyw _ _ => true
  | .winset _ _ => true
  | .winget _ _ _ => true
  | .pflist _ => true
  | .rcpy _ _ _ _ => true
  | .rcfg _ _ => true
  | .rwait _ _ => true
  | .rresv _ _ => true
  | .rprod _ => true
  | .rcons _ => true
  | .rslot _ _ _ => true
  | .ssweep _ _ _ => true
  | .add _ _ _ _ => true
  | .sub _ _ _ _ => true
  | .mul _ _ _ _ => true
  | .mulh _ _ _ _ => true
  | .mulhu _ _ _ _ => true
  | .div _ _ _ _ => true
  | .divu _ _ _ _ => true
  | .rem _ _ _ _ => true
  | .remu _ _ _ _ => true
  | .and _ _ _ _ => true
  | .or _ _ _ _ => true
  | .xor _ _ _ _ => true
  | .shl _ _ _ _ => true
  | .shr _ _ _ _ => true
  | .sar _ _ _ _ => true
  | .min _ _ _ _ => true
  | .max _ _ _ _ => true
  | .minu _ _ _ _ => true
  | .maxu _ _ _ _ => true
  | .slt _ _ _ _ => true
  | .sltu _ _ _ _ => true
  | .seq _ _ _ _ => true
  | .sel _ _ _ _ => true
  | .clz _ _ _ => true
  | .popc _ _ _ => true
  | .sext _ _ _ => true
  | .addi _ _ _ => true
  | .andi _ _ _ => true
  | .ori _ _ _ => true
  | .xori _ _ _ => true
  | .shli _ _ _ => true
  | .shri _ _ _ => true
  | .sari _ _ _ => true
  | .li _ _ => true
  | .lui _ _ => true
  | .fadd _ _ _ _ _ => true
  | .fsub _ _ _ _ _ => true
  | .fmul _ _ _ _ _ => true
  | .fma _ _ _ _ _ => true
  | .fmin _ _ _ _ => true
  | .fmax _ _ _ _ => true
  | .fcmp _ _ _ _ _ => true
  | .fcvt _ _ _ _ _ _ => true
  | .fsgn _ _ _ _ _ => true
  | .fclass _ _ _ => true
  | .frnd _ _ _ _ => true
  | .epb _ _ => true
  | .ebnz _ _ _ => true
  | .vadd _ _ _ _ _ _ => true
  | .vsub _ _ _ _ _ _ => true
  | .vmul _ _ _ _ _ _ => true
  | .vmulh _ _ _ _ _ _ => true
  | .vmin _ _ _ _ _ _ => true
  | .vmax _ _ _ _ _ _ => true
  | .vminu _ _ _ _ _ _ => true
  | .vmaxu _ _ _ _ _ _ => true
  | .vand _ _ _ _ _ _ => true
  | .vor _ _ _ _ _ _ => true
  | .vxor _ _ _ _ _ _ => true
  | .vshl _ _ _ _ _ _ => true
  | .vshr _ _ _ _ _ _ => true
  | .vsar _ _ _ _ _ _ => true
  | .vsadd _ _ _ _ _ _ => true
  | .vsaddu _ _ _ _ _ _ => true
  | .vcmp _ _ _ _ _ => true
  | .vsel _ _ _ _ _ => true
  | .vfadd _ _ _ _ _ _ => true
  | .vfsub _ _ _ _ _ _ => true
  | .vfmul _ _ _ _ _ _ => true
  | .vfma _ _ _ _ _ _ => true
  | .vfmin _ _ _ _ _ _ => true
  | .vfmax _ _ _ _ _ _ => true
  | .vfcmp _ _ _ _ _ => true
  | .vfcvt _ _ _ _ _ _ => true
  | .vfsgn _ _ _ _ _ => true
  | .vfclass _ _ _ => true
  | .vfred _ _ _ _ => true
  | .vdot _ _ _ _ _ => true
  | .voptw _ _ _ _ => true
  | .vmov _ _ _ _ _ => true
  | .vsplat _ _ _ _ _ => true
  | .vext _ _ _ _ => true
  | .vins _ _ _ _ => true
  | .vperm _ _ _ _ _ _ => true
  | .vshuf _ _ _ _ _ => true
  | .vnarrow _ _ _ _ _ => true
  | .vwiden _ _ _ _ _ => true
  | .vslide _ _ _ _ _ => true
  | .vqpack _ _ _ _ _ _ => true
  | .vqunpk _ _ _ _ _ _ => true
  | .vscale _ _ _ _ => true
  | .vmpop _ _ _ _ => true
  | .vmfirst _ _ _ _ => true
  | .vrot _ _ _ _ _ => true
  | .cord _ _ _ _ => true
  | .vcord _ _ _ _ => true
  | .sset _ _ _ => true
  | .sread _ _ => true
  | .sadd _ _ _ _ => true
  | .smrg _ _ _ _ => true
  | .vsread _ _ => true
  | .vsaddStamped _ _ _ _ => true
  | .vsmrg _ _ _ _ => true
  | .rsld _ _ _ _ => true
  | .rsst _ _ _ _ => true
  | .tvld _ _ => true
  | .mloadn _ _ => true
  | .mloadw _ _ => true
  | .mjob _ _ => true
  | .mwait _ _ => true
  | .mpoll _ _ => true
  | .mpub _ _ _ => true
  | .msub _ _ _ => true
  | .munsub _ => true
  | .mchain _ _ _ => true
  | .msend _ _ _ => true
  | .mcap _ _ _ => true
  | .mhnd _ => true
  | .mdone _ _ _ => true
  | .bgemv _ _ => true
  | .bwait _ _ => true
  | .coll _ _ => true
  | .cwait _ _ => true
  | .csig _ _ _ _ => true
  | .bar _ _ _ _ => true
  | .vote _ _ _ => true
  | .stepadv _ => true
  | .fence _ _ => true
  | .fenceSc _ => true
  | .fenceBank => true
  | .wait _ _ _ _ _ => true
  | .csrr _ _ => true
  | .csrw _ _ => true
  | .csrs _ _ => true
  | .csrc _ _ => true
  | .trap _ => true
  | .eret => true
  | .halt => true
  | .nop => true
  | .feat _ _ _ => true
  | .dbrk _ => true
  | .loop _ _ => true
  | .loopi _ => true
  | .loopw _ _ _ => true
  | .lbrk _ => true
  | .himm _ => true
  | .hmod _ _ _ _ _ => true
  | .hsched _ _ _ _ => true
  | .nopHint _ _ => true
  | .illegalInstruction _ => true
  | .fetchDeliver core ctx => core < Config.cores && ctx < 5
  | .walkerFetch core ctx walker => core < Config.cores && ctx < 5 && walker < 8
  | .walkerStoreWrite core ctx walker => core < Config.cores && ctx < 5 && walker < 8
  | .translationWalk core page _ => core < Config.cores && page < 2 ^ 39
  | .pageBringUp tenant page => tenant ≤ Config.vfs && page < 2 ^ 39
  | .backgroundScrub frame => frame < 2 ^ 24
  | .startMessage core _ _ => core < Config.cores
  | .coreArrive core slot => core < Config.cores && slot < 4
  | .risingPennant _ => true
  | .pollTimer _ => true
  | .poll _ who => who.wf
  | .corePark core => core < Config.cores
  | .decideCommit _ who => who.wf
  | .decideAbort _ who => who.wf
  | .donePennant _ => true
  | .resume core => core < Config.cores
  | .watchdogExpiry _ => true
  | .deltaArrive core _ => core < 2 ^ 25
  | .matrixJobStart team => team < Config.teams
  | .drainRow team => team < Config.teams
  | .matrixJobComplete team => team < Config.teams
  | .chainForward cluster => cluster < Config.clusters
  | .streamPublishRead cluster sid => cluster < Config.clusters && sid < 64
  | .copyReusable core id => core < Config.cores && id < 65536
  | .copyVisible core id => core < Config.cores && id < 65536
  | .copyFault core id => core < Config.cores && id < 65536
  | .pfeRun team => team < Config.teams
  | .pfeLand team => team < Config.teams
  | .sweepComplete core id => core < Config.cores && id < 65536
  | .bgemvComplete core id => core < Config.cores && id < 65536
  | .nbuFault core id => core < Config.cores && id < 65536
  | .collStart die slot => die < Config.dies && slot < 8
  | .collComplete die slot => die < Config.dies && slot < 8
  | .collTimeout die slot => die < Config.dies && slot < 8
  | .timingReplay engine unit => unit < (if engine then Config.teams else Config.cores)
  | .currentLimit die => die < Config.dies
  | .thermalTrip hbm unit _ => unit < (if hbm then 16 else Config.dies)
  | .derate engine unit => unit < (if engine then Config.teams else Config.cores)
  | .lwpost vf _ => 1 ≤ vf && vf ≤ Config.vfs
  | .lwcancel vf _ => 1 ≤ vf && vf ≤ Config.vfs
  | .lwcqhead vf _ => 1 ≤ vf && vf ≤ Config.vfs
  | .registerWrite vf off _ => vf ≤ Config.vfs && off % 8 == 0
  | .launchSelect node => 1 ≤ node && node ≤ 127
  | .gatePass node => 1 ≤ node && node ≤ 127
  | .recomputeDrop node => 1 ≤ node && node ≤ 127
  | .split node => node ≤ 127
  | .merge node => node ≤ 127
  | .release node => node ≤ 127
  | .paddockConfigWrite node off _ => 1 ≤ node && node ≤ 127 && off < 256
  | .vfBind vf _ => 1 ≤ vf && vf ≤ Config.vfs
  | .setpte => true
  | .fetch => true
  | .evict => true
  | .hwrite => true
  | .hread => true
  | .shres => true
  | .saveSignal core => core < Config.cores
  | .copySaveDone _ => true
  | .restoreDone _ => true
  | .exportTenant => true
  | .importTenant _ => true
  | .importConfirm vf => 1 ≤ vf && vf ≤ Config.vfs
  | .abandon => true
  | .warmReset cause _ => 1 ≤ cause && cause ≤ 3
  | .warmResetOverrun => true
  | .wrcmdResume _ => true
  | .wdbudget _ => true
  | .start found => found.failing.all (fun s => decide (1 ≤ s) && decide (s ≤ 16)) && decide (found.dev < 4096)
      && found.lanes.all (fun l => decide (l.1 < 4) && decide (l.2.1 < 8) && decide (l.2.2.1 < 2) && decide (l.2.2.2 < 64))
  | .membershipLoad => true
  | .d2dFlitReceive edge dir _ _ => edge < 4 && dir < 2
  | .d2dNak edge dir => edge < 4 && dir < 2
  | .moduleRetrain edge module => edge < 4 && module < 8
  | .edgeDown edge => edge < 4
  | .llynnalFlitReceive port _ payload _ => port < 32 && payload.length ≤ 30
  | .portRetrain port => port < 32
  | .heartbeatFlit port _ => port < 32
  | .deviceFailed _ dev => dev < 4096
  | .pwcmd _ => true
  | .powerStateApply node => 1 ≤ node && node ≤ 127
  | .pwgate _ => true
  | .pwhbm _ => true
  | .stage => true
  | .commitSvn => true
  | .getVersion fn => fn ≤ Config.vfs
  | .getCapabilities fn => fn ≤ Config.vfs
  | .negotiateAlgorithms fn _ _ _ _ => fn ≤ Config.vfs
  | .getCertificate fn => fn ≤ Config.vfs
  | .challenge fn _ => fn ≤ Config.vfs
  | .getMeasurements fn _ => fn ≤ Config.vfs
  | .keyExchange fn _ => fn ≤ Config.vfs
  | .finish fn _ => fn ≤ Config.vfs
  | .setkey vf _ => 1 ≤ vf && vf ≤ Config.vfs
  | .tdispLockInterface vf => 1 ≤ vf && vf ≤ Config.vfs
  | .tdispStartInterface vf => 1 ≤ vf && vf ≤ Config.vfs
  | .stopInterface vf => 1 ≤ vf && vf ≤ Config.vfs
  | .decideProceed core slot => core < Config.cores && 1 ≤ slot && slot < 4
  | .globalAccessPerformed core => core < Config.cores
  | .moduleRetrainDone edge module lanes0 lanes1 => edge < 4 && module < 8 && lanes0.all (fun l => l < 64) && lanes1.all (fun l => l < 64)
  | .portRetrainDone port _ => port < 32
  | .currentFallsBack die => die < Config.dies
  | .debuggerAttach core ctx _ => core < Config.cores && ctx < 5
  | .debuggerResume core ctx => core < Config.cores && ctx < 5
  | .recoverySelfTest engine unit => unit < (if engine then Config.teams else Config.cores)
  | .rovasCommand => true
  | .elhead _ => true

end Sys2Proof
end

