-- ==== Sys2Proof/Machine/Step.lean ====
section
/-!
DEFINITION. One step of the machine: a heartbeat tick, then the work the schedule gives, an instruction of a context
being run by exec; and the placing of one instruction word where the next step fetches it.
-/

namespace Sys2Proof.Machine

open Sys2Proof

/-- The module has this context. -/
def hasContext (c k : Nat) : Bool := decide (c < Config.cores) && decide (k < 5)

/-- The work of a step carried out. -/
def State.perform (w : Work) (s : State) : Host.Outcome State Fault Refusal :=
  match w with
  | .turn (.context c k) =>
    if hasContext c k then
      match s.contextTurn c k with
      | .done t => .next t.quiet
      | .go i t => exec i t
    else .fault .noSuchUnit
  | .turn (.memoryError src user addr corrected) =>
    if hasContext (user / 8) (user % 8) then .next (s.memoryError src user addr corrected).quiet else .fault .noSuchUnit
  | .turn (.poisonLine c addr) => if c < Config.cores then .next (s.poisonLine c addr).quiet else .fault .noSuchUnit
  | .turn (.pcieError addr corrected) =>
    .next (s.logError { src := 12, kind := if corrected then 0 else 3, unit := 0, addr := w64 addr }).quiet
  | .turn (.temperature d t) => .next (s.temperature d t).quiet
  | .turn (.lend mask) => .next (s.modPlat (fun p => { p with lent := mask })).quiet
  | .turn (.spdmUnlisted fn version) => if isFunction fn then .next (s.spdmUnlisted fn version).quiet else .fault .noSuchUnit
  | .turn (.event i) => if isStep i && i.wf then exec i s else .fault .noSuchUnit
  | .chore c => .next (s.runChore c).quiet
  | .idle => .next s.quiet

/-- One step. -/
def step (s : State) : Host.Outcome State Fault Refusal :=
  let w := s.beat.nextWork
  w.2.perform w.1

/-! ### The next instruction -/

/-- The address at which withFetchWord places a word, and the frame behind it. -/
def placedAt : W64 := 0x7FFFFF0000#64
def placedFrame : Nat := 2 ^ 24 - 1
/-- Its page: valid, READ-ONLY, tier 0, read and executable. -/
def placedPte : W64 := w64 (1 + 4 * 2 + 2 ^ 18 + 2 ^ 20 + placedFrame * 2 ^ 34)

/-- The tables above it, in the frames below the placed one where the tenant has none. -/
def placedTables (t : Tab Nat) : Tab Nat :=
  let add := fun (t : Tab Nat) (k f : Nat) => if (tfind t k).isSome then t else tput t k f
  add (add (add t rootKey (placedFrame - 1)) (midKey placedAt.toNat) (placedFrame - 2)) (lowKey placedAt.toNat) (placedFrame - 3)

/-- Core 0 belongs to a launch: its own, or a smallest one of tenant 1. -/
def State.hosted (s : State) : State :=
  match s.domOf 0 with
  | some _ => s
  | none =>
    let d := s.plat.domIds
    ((s.modPlat (fun p => { p with domIds := d + 1 })).modDomain d
      (fun _ => { vf := 1, node := 1, members := [0], levels := [0, 0, 0], size := 1 })).modCore 0 (fun c => { c with domain := some d })

/-- The machine with an instruction word placed where its next step fetches: core 0, context 0, at placedAt. -/
def State.withFetchWord (s : State) (_nbits w : Nat) : State :=
  let s := s.hosted
  let v := s.tenantOf 0
  let s := s.modVf v (fun t => { t with bigs := tdel t.bigs (placedAt.toNat / 2 ^ 29), tables := placedTables t.tables, pages := tput t.pages (placedAt.toNat / 2 ^ 16) placedPte })
  let s := (s.hwrite (placedFrame * 65536) 4 (w % 2 ^ 32)).modPlat (fun p =>
    { p with frames := tput p.frames placedFrame { vf := v, page := placedAt.toNat / 2 ^ 16 }, poisoned := tdel p.poisoned (placedFrame * 1024) })
  let s := s.modCore 0 (fun c => { (c.modCtx 0 (fun x =>
    { x with active := true, await := .running, pc := placedAt, edge := none, hfirst := none, himm := [], hmod := [], ah := [], eh := [], shadow := none, rowEnded := false, sc := none })) with
    phase := .run, early := none })
  { s with sched := { s.sched with turns := [.context 0 0] } }

end Sys2Proof.Machine
end

