-- ==== Sys2Proof/Laws/Fields.lean ====
section
/-!
SUPPORT. The parts of a joined word, and immediates put together again from their parts.
-/

namespace Sys2Proof

@[simp] theorem opOf_join (op : BitVec 8) (d a b f : BitVec 6) : opOf (join op d a b f) = op := by
  apply BitVec.eq_of_getLsbD_eq
  intro i h
  simp only [opOf, join, BitVec.getLsbD_extractLsb', BitVec.getLsbD_append]
  grind
@[simp] theorem dOf_join (op : BitVec 8) (d a b f : BitVec 6) : dOf (join op d a b f) = d := by
  apply BitVec.eq_of_getLsbD_eq
  intro i h
  simp only [dOf, join, BitVec.getLsbD_extractLsb', BitVec.getLsbD_append]
  grind
@[simp] theorem aOf_join (op : BitVec 8) (d a b f : BitVec 6) : aOf (join op d a b f) = a := by
  apply BitVec.eq_of_getLsbD_eq
  intro i h
  simp only [aOf, join, BitVec.getLsbD_extractLsb', BitVec.getLsbD_append]
  grind
@[simp] theorem bOf_join (op : BitVec 8) (d a b f : BitVec 6) : bOf (join op d a b f) = b := by
  apply BitVec.eq_of_getLsbD_eq
  intro i h
  simp only [bOf, join, BitVec.getLsbD_extractLsb', BitVec.getLsbD_append]
  grind
@[simp] theorem fOf_join (op : BitVec 8) (d a b f : BitVec 6) : fOf (join op d a b f) = f := by
  apply BitVec.eq_of_getLsbD_eq
  intro i h
  simp only [fOf, join, BitVec.getLsbD_extractLsb', BitVec.getLsbD_append]
  grind

/-- Decoding a joined word is decoding its parts. -/
theorem decode_join (op : BitVec 8) (d a b f : BitVec 6) : decode (join op d a b f) = decodeParts op.toNat d a b f := by
  simp only [decode, opOf_join, dOf_join, aOf_join, bOf_join, fOf_join]

/-! The parts of a six-bit field, and immediates. -/

@[simp] theorem part0 (x : BitVec 1) : BitVec.extractLsb' (n := 6) 0 1 (0#5 ++ x) = x := by
  apply BitVec.eq_of_getLsbD_eq
  intro i h
  simp only [BitVec.getLsbD_extractLsb', BitVec.getLsbD_append, BitVec.getLsbD_ofNat]
  grind
@[simp] theorem part1 (x : BitVec 16) (y : BitVec 1) (z : BitVec 1) : BitVec.extractLsb' (n := 6) 0 1 (x.extractLsb' 0 4 ++ y ++ z) = z := by
  apply BitVec.eq_of_getLsbD_eq
  intro i h
  simp only [BitVec.getLsbD_extractLsb', BitVec.getLsbD_append]
  grind
@[simp] theorem part2 (x : BitVec 3) (y : BitVec 2) : BitVec.extractLsb' (n := 6) 0 2 (0#1 ++ x ++ y) = y := by
  apply BitVec.eq_of_getLsbD_eq
  intro i h
  simp only [BitVec.getLsbD_extractLsb', BitVec.getLsbD_append, BitVec.getLsbD_ofNat]
  grind
@[simp] theorem part3 (x : BitVec 1) (y : BitVec 1) (z : BitVec 2) : BitVec.extractLsb' (n := 6) 0 2 (0#2 ++ x ++ y ++ z) = z := by
  apply BitVec.eq_of_getLsbD_eq
  intro i h
  simp only [BitVec.getLsbD_extractLsb', BitVec.getLsbD_append, BitVec.getLsbD_ofNat]
  grind
@[simp] theorem part4 (x : BitVec 2) (y : BitVec 2) : BitVec.extractLsb' (n := 6) 0 2 (0#2 ++ x ++ y) = y := by
  apply BitVec.eq_of_getLsbD_eq
  intro i h
  simp only [BitVec.getLsbD_extractLsb', BitVec.getLsbD_append, BitVec.getLsbD_ofNat]
  grind
@[simp] theorem part5 (x : BitVec 1) (y : BitVec 2) : BitVec.extractLsb' (n := 6) 0 2 (0#3 ++ x ++ y) = y := by
  apply BitVec.eq_of_getLsbD_eq
  intro i h
  simp only [BitVec.getLsbD_extractLsb', BitVec.getLsbD_append, BitVec.getLsbD_ofNat]
  grind
@[simp] theorem part6 (x : BitVec 2) : BitVec.extractLsb' (n := 6) 0 2 (0#4 ++ x) = x := by
  apply BitVec.eq_of_getLsbD_eq
  intro i h
  simp only [BitVec.getLsbD_extractLsb', BitVec.getLsbD_append, BitVec.getLsbD_ofNat]
  grind
@[simp] theorem part7 (x : BitVec 3) (y : BitVec 2) : BitVec.extractLsb' (n := 6) 0 2 (x ++ 0#1 ++ y) = y := by
  apply BitVec.eq_of_getLsbD_eq
  intro i h
  simp only [BitVec.getLsbD_extractLsb', BitVec.getLsbD_append, BitVec.getLsbD_ofNat]
  grind
@[simp] theorem part8 (x : BitVec 4) : BitVec.extractLsb' (n := 6) 0 2 (x ++ 0#2) = 0#2 := by
  apply BitVec.eq_of_getLsbD_eq
  intro i h
  simp only [BitVec.getLsbD_extractLsb', BitVec.getLsbD_append, BitVec.getLsbD_ofNat]
  grind
@[simp] theorem part9 (x : BitVec 2) (y : BitVec 2) (z : BitVec 2) : BitVec.extractLsb' (n := 6) 0 2 (x ++ y ++ z) = z := by
  apply BitVec.eq_of_getLsbD_eq
  intro i h
  simp only [BitVec.getLsbD_extractLsb', BitVec.getLsbD_append]
  grind
@[simp] theorem part10 (x : BitVec 3) (y : BitVec 1) (z : BitVec 2) : BitVec.extractLsb' (n := 6) 0 2 (x ++ y ++ z) = z := by
  apply BitVec.eq_of_getLsbD_eq
  intro i h
  simp only [BitVec.getLsbD_extractLsb', BitVec.getLsbD_append]
  grind
@[simp] theorem part11 (x : BitVec 19) (y : BitVec 1) (z : BitVec 2) (u : BitVec 2) : BitVec.extractLsb' (n := 6) 0 2 (x.extractLsb' 0 1 ++ y ++ z ++ u) = u := by
  apply BitVec.eq_of_getLsbD_eq
  intro i h
  simp only [BitVec.getLsbD_extractLsb', BitVec.getLsbD_append]
  grind
@[simp] theorem part12 (x : BitVec 1) (y : BitVec 1) (z : BitVec 3) : BitVec.extractLsb' (n := 6) 0 3 (0#1 ++ x ++ y ++ z) = z := by
  apply BitVec.eq_of_getLsbD_eq
  intro i h
  simp only [BitVec.getLsbD_extractLsb', BitVec.getLsbD_append, BitVec.getLsbD_ofNat]
  grind
@[simp] theorem part13 (x : BitVec 2) (y : BitVec 3) : BitVec.extractLsb' (n := 6) 0 3 (0#1 ++ x ++ y) = y := by
  apply BitVec.eq_of_getLsbD_eq
  intro i h
  simp only [BitVec.getLsbD_extractLsb', BitVec.getLsbD_append, BitVec.getLsbD_ofNat]
  grind
@[simp] theorem part14 (x : BitVec 1) (y : BitVec 3) : BitVec.extractLsb' (n := 6) 0 3 (0#2 ++ x ++ y) = y := by
  apply BitVec.eq_of_getLsbD_eq
  intro i h
  simp only [BitVec.getLsbD_extractLsb', BitVec.getLsbD_append, BitVec.getLsbD_ofNat]
  grind
@[simp] theorem part15 (x : BitVec 3) : BitVec.extractLsb' (n := 6) 0 3 (0#3 ++ x) = x := by
  apply BitVec.eq_of_getLsbD_eq
  intro i h
  simp only [BitVec.getLsbD_extractLsb', BitVec.getLsbD_append, BitVec.getLsbD_ofNat]
  grind
@[simp] theorem part16 (x : BitVec 3) : BitVec.extractLsb' (n := 6) 0 3 (x ++ 0#3) = 0#3 := by
  apply BitVec.eq_of_getLsbD_eq
  intro i h
  simp only [BitVec.getLsbD_extractLsb', BitVec.getLsbD_append, BitVec.getLsbD_ofNat]
  grind
@[simp] theorem part17 (x : BitVec 3) (y : BitVec 3) : BitVec.extractLsb' (n := 6) 0 3 (x ++ y) = y := by
  apply BitVec.eq_of_getLsbD_eq
  intro i h
  simp only [BitVec.getLsbD_extractLsb', BitVec.getLsbD_append]
  grind
@[simp] theorem part18 (x : BitVec 9) (y : BitVec 3) : BitVec.extractLsb' (n := 6) 0 3 (x.extractLsb' 0 3 ++ y) = y := by
  apply BitVec.eq_of_getLsbD_eq
  intro i h
  simp only [BitVec.getLsbD_extractLsb', BitVec.getLsbD_append]
  grind
@[simp] theorem part19 (x : BitVec 1) (y : BitVec 4) : BitVec.extractLsb' (n := 6) 0 4 (0#1 ++ x ++ y) = y := by
  apply BitVec.eq_of_getLsbD_eq
  intro i h
  simp only [BitVec.getLsbD_extractLsb', BitVec.getLsbD_append, BitVec.getLsbD_ofNat]
  grind
@[simp] theorem part20 (x : BitVec 4) : BitVec.extractLsb' (n := 6) 0 4 (0#2 ++ x) = x := by
  apply BitVec.eq_of_getLsbD_eq
  intro i h
  simp only [BitVec.getLsbD_extractLsb', BitVec.getLsbD_append, BitVec.getLsbD_ofNat]
  grind
@[simp] theorem part21 (x : BitVec 1) (y : BitVec 1) (z : BitVec 4) : BitVec.extractLsb' (n := 6) 0 4 (x ++ y ++ z) = z := by
  apply BitVec.eq_of_getLsbD_eq
  intro i h
  simp only [BitVec.getLsbD_extractLsb', BitVec.getLsbD_append]
  grind
@[simp] theorem part22 (x : BitVec 2) (y : BitVec 4) : BitVec.extractLsb' (n := 6) 0 4 (x ++ y) = y := by
  apply BitVec.eq_of_getLsbD_eq
  intro i h
  simp only [BitVec.getLsbD_extractLsb', BitVec.getLsbD_append]
  grind
@[simp] theorem part23 (x : BitVec 5) : BitVec.extractLsb' (n := 6) 0 5 (0#1 ++ x) = x := by
  apply BitVec.eq_of_getLsbD_eq
  intro i h
  simp only [BitVec.getLsbD_extractLsb', BitVec.getLsbD_append, BitVec.getLsbD_ofNat]
  grind
@[simp] theorem part24 (x : BitVec 16) (y : BitVec 1) (z : BitVec 1) : BitVec.extractLsb' (n := 6) 1 1 (x.extractLsb' 0 4 ++ y ++ z) = y := by
  apply BitVec.eq_of_getLsbD_eq
  intro i h
  simp only [BitVec.getLsbD_extractLsb', BitVec.getLsbD_append]
  grind
@[simp] theorem part25 (x : BitVec 1) : BitVec.extractLsb' (n := 6) 1 5 (0#5 ++ x) = 0#5 := by
  apply BitVec.eq_of_getLsbD_eq
  intro i h
  simp only [BitVec.getLsbD_extractLsb', BitVec.getLsbD_append, BitVec.getLsbD_ofNat]
  grind
@[simp] theorem part26 (x : BitVec 1) (y : BitVec 1) (z : BitVec 2) : BitVec.extractLsb' (n := 6) 2 1 (0#2 ++ x ++ y ++ z) = y := by
  apply BitVec.eq_of_getLsbD_eq
  intro i h
  simp only [BitVec.getLsbD_extractLsb', BitVec.getLsbD_append, BitVec.getLsbD_ofNat]
  grind
@[simp] theorem part27 (x : BitVec 1) (y : BitVec 2) : BitVec.extractLsb' (n := 6) 2 1 (0#3 ++ x ++ y) = x := by
  apply BitVec.eq_of_getLsbD_eq
  intro i h
  simp only [BitVec.getLsbD_extractLsb', BitVec.getLsbD_append, BitVec.getLsbD_ofNat]
  grind
@[simp] theorem part28 (x : BitVec 3) (y : BitVec 2) : BitVec.extractLsb' (n := 6) 2 1 (x ++ 0#1 ++ y) = 0#1 := by
  apply BitVec.eq_of_getLsbD_eq
  intro i h
  simp only [BitVec.getLsbD_extractLsb', BitVec.getLsbD_append, BitVec.getLsbD_ofNat]
  grind
@[simp] theorem part29 (x : BitVec 3) (y : BitVec 1) (z : BitVec 2) : BitVec.extractLsb' (n := 6) 2 1 (x ++ y ++ z) = y := by
  apply BitVec.eq_of_getLsbD_eq
  intro i h
  simp only [BitVec.getLsbD_extractLsb', BitVec.getLsbD_append]
  grind
@[simp] theorem part30 (x : BitVec 2) (y : BitVec 2) : BitVec.extractLsb' (n := 6) 2 2 (0#2 ++ x ++ y) = x := by
  apply BitVec.eq_of_getLsbD_eq
  intro i h
  simp only [BitVec.getLsbD_extractLsb', BitVec.getLsbD_append, BitVec.getLsbD_ofNat]
  grind
@[simp] theorem part31 (x : BitVec 2) (y : BitVec 2) (z : BitVec 2) : BitVec.extractLsb' (n := 6) 2 2 (x ++ y ++ z) = y := by
  apply BitVec.eq_of_getLsbD_eq
  intro i h
  simp only [BitVec.getLsbD_extractLsb', BitVec.getLsbD_append]
  grind
@[simp] theorem part32 (x : BitVec 19) (y : BitVec 1) (z : BitVec 2) (u : BitVec 2) : BitVec.extractLsb' (n := 6) 2 2 (x.extractLsb' 0 1 ++ y ++ z ++ u) = z := by
  apply BitVec.eq_of_getLsbD_eq
  intro i h
  simp only [BitVec.getLsbD_extractLsb', BitVec.getLsbD_append]
  grind
@[simp] theorem part33 (x : BitVec 3) (y : BitVec 2) : BitVec.extractLsb' (n := 6) 2 3 (0#1 ++ x ++ y) = x := by
  apply BitVec.eq_of_getLsbD_eq
  intro i h
  simp only [BitVec.getLsbD_extractLsb', BitVec.getLsbD_append, BitVec.getLsbD_ofNat]
  grind
@[simp] theorem part34 (x : BitVec 2) : BitVec.extractLsb' (n := 6) 2 4 (0#4 ++ x) = 0#4 := by
  apply BitVec.eq_of_getLsbD_eq
  intro i h
  simp only [BitVec.getLsbD_extractLsb', BitVec.getLsbD_append, BitVec.getLsbD_ofNat]
  grind
@[simp] theorem part35 (x : BitVec 4) : BitVec.extractLsb' (n := 6) 2 4 (x ++ 0#2) = x := by
  apply BitVec.eq_of_getLsbD_eq
  intro i h
  simp only [BitVec.getLsbD_extractLsb', BitVec.getLsbD_append, BitVec.getLsbD_ofNat]
  grind
@[simp] theorem part36 (x : BitVec 16) (y : BitVec 1) (z : BitVec 1) : BitVec.extractLsb' (n := 6) 2 4 (x.extractLsb' 0 4 ++ y ++ z) = x.extractLsb' 0 4 := by
  apply BitVec.eq_of_getLsbD_eq
  intro i h
  simp only [BitVec.getLsbD_extractLsb', BitVec.getLsbD_append]
  grind
@[simp] theorem part37 (x : BitVec 1) (y : BitVec 1) (z : BitVec 3) : BitVec.extractLsb' (n := 6) 3 1 (0#1 ++ x ++ y ++ z) = y := by
  apply BitVec.eq_of_getLsbD_eq
  intro i h
  simp only [BitVec.getLsbD_extractLsb', BitVec.getLsbD_append, BitVec.getLsbD_ofNat]
  grind
@[simp] theorem part38 (x : BitVec 1) (y : BitVec 1) (z : BitVec 2) : BitVec.extractLsb' (n := 6) 3 1 (0#2 ++ x ++ y ++ z) = x := by
  apply BitVec.eq_of_getLsbD_eq
  intro i h
  simp only [BitVec.getLsbD_extractLsb', BitVec.getLsbD_append, BitVec.getLsbD_ofNat]
  grind
@[simp] theorem part39 (x : BitVec 1) (y : BitVec 3) : BitVec.extractLsb' (n := 6) 3 1 (0#2 ++ x ++ y) = x := by
  apply BitVec.eq_of_getLsbD_eq
  intro i h
  simp only [BitVec.getLsbD_extractLsb', BitVec.getLsbD_append, BitVec.getLsbD_ofNat]
  grind
@[simp] theorem part40 (x : BitVec 2) (y : BitVec 3) : BitVec.extractLsb' (n := 6) 3 2 (0#1 ++ x ++ y) = x := by
  apply BitVec.eq_of_getLsbD_eq
  intro i h
  simp only [BitVec.getLsbD_extractLsb', BitVec.getLsbD_append, BitVec.getLsbD_ofNat]
  grind
@[simp] theorem part41 (x : BitVec 1) (y : BitVec 2) : BitVec.extractLsb' (n := 6) 3 3 (0#3 ++ x ++ y) = 0#3 := by
  apply BitVec.eq_of_getLsbD_eq
  intro i h
  simp only [BitVec.getLsbD_extractLsb', BitVec.getLsbD_append, BitVec.getLsbD_ofNat]
  grind
@[simp] theorem part42 (x : BitVec 3) : BitVec.extractLsb' (n := 6) 3 3 (0#3 ++ x) = 0#3 := by
  apply BitVec.eq_of_getLsbD_eq
  intro i h
  simp only [BitVec.getLsbD_extractLsb', BitVec.getLsbD_append, BitVec.getLsbD_ofNat]
  grind
@[simp] theorem part43 (x : BitVec 3) (y : BitVec 2) : BitVec.extractLsb' (n := 6) 3 3 (x ++ 0#1 ++ y) = x := by
  apply BitVec.eq_of_getLsbD_eq
  intro i h
  simp only [BitVec.getLsbD_extractLsb', BitVec.getLsbD_append, BitVec.getLsbD_ofNat]
  grind
@[simp] theorem part44 (x : BitVec 3) : BitVec.extractLsb' (n := 6) 3 3 (x ++ 0#3) = x := by
  apply BitVec.eq_of_getLsbD_eq
  intro i h
  simp only [BitVec.getLsbD_extractLsb', BitVec.getLsbD_append, BitVec.getLsbD_ofNat]
  grind
@[simp] theorem part45 (x : BitVec 3) (y : BitVec 1) (z : BitVec 2) : BitVec.extractLsb' (n := 6) 3 3 (x ++ y ++ z) = x := by
  apply BitVec.eq_of_getLsbD_eq
  intro i h
  simp only [BitVec.getLsbD_extractLsb', BitVec.getLsbD_append]
  grind
@[simp] theorem part46 (x : BitVec 3) (y : BitVec 3) : BitVec.extractLsb' (n := 6) 3 3 (x ++ y) = x := by
  apply BitVec.eq_of_getLsbD_eq
  intro i h
  simp only [BitVec.getLsbD_extractLsb', BitVec.getLsbD_append]
  grind
@[simp] theorem part47 (x : BitVec 9) (y : BitVec 3) : BitVec.extractLsb' (n := 6) 3 3 (x.extractLsb' 0 3 ++ y) = x.extractLsb' 0 3 := by
  apply BitVec.eq_of_getLsbD_eq
  intro i h
  simp only [BitVec.getLsbD_extractLsb', BitVec.getLsbD_append]
  grind
@[simp] theorem part48 (x : BitVec 1) (y : BitVec 1) (z : BitVec 3) : BitVec.extractLsb' (n := 6) 4 1 (0#1 ++ x ++ y ++ z) = x := by
  apply BitVec.eq_of_getLsbD_eq
  intro i h
  simp only [BitVec.getLsbD_extractLsb', BitVec.getLsbD_append, BitVec.getLsbD_ofNat]
  grind
@[simp] theorem part49 (x : BitVec 1) (y : BitVec 4) : BitVec.extractLsb' (n := 6) 4 1 (0#1 ++ x ++ y) = x := by
  apply BitVec.eq_of_getLsbD_eq
  intro i h
  simp only [BitVec.getLsbD_extractLsb', BitVec.getLsbD_append, BitVec.getLsbD_ofNat]
  grind
@[simp] theorem part50 (x : BitVec 1) (y : BitVec 1) (z : BitVec 4) : BitVec.extractLsb' (n := 6) 4 1 (x ++ y ++ z) = y := by
  apply BitVec.eq_of_getLsbD_eq
  intro i h
  simp only [BitVec.getLsbD_extractLsb', BitVec.getLsbD_append]
  grind
@[simp] theorem part51 (x : BitVec 19) (y : BitVec 1) (z : BitVec 2) (u : BitVec 2) : BitVec.extractLsb' (n := 6) 4 1 (x.extractLsb' 0 1 ++ y ++ z ++ u) = y := by
  apply BitVec.eq_of_getLsbD_eq
  intro i h
  simp only [BitVec.getLsbD_extractLsb', BitVec.getLsbD_append]
  grind
@[simp] theorem part52 (x : BitVec 1) (y : BitVec 1) (z : BitVec 2) : BitVec.extractLsb' (n := 6) 4 2 (0#2 ++ x ++ y ++ z) = 0#2 := by
  apply BitVec.eq_of_getLsbD_eq
  intro i h
  simp only [BitVec.getLsbD_extractLsb', BitVec.getLsbD_append, BitVec.getLsbD_ofNat]
  grind
@[simp] theorem part53 (x : BitVec 1) (y : BitVec 3) : BitVec.extractLsb' (n := 6) 4 2 (0#2 ++ x ++ y) = 0#2 := by
  apply BitVec.eq_of_getLsbD_eq
  intro i h
  simp only [BitVec.getLsbD_extractLsb', BitVec.getLsbD_append, BitVec.getLsbD_ofNat]
  grind
@[simp] theorem part54 (x : BitVec 2) (y : BitVec 2) : BitVec.extractLsb' (n := 6) 4 2 (0#2 ++ x ++ y) = 0#2 := by
  apply BitVec.eq_of_getLsbD_eq
  intro i h
  simp only [BitVec.getLsbD_extractLsb', BitVec.getLsbD_append, BitVec.getLsbD_ofNat]
  grind
@[simp] theorem part55 (x : BitVec 4) : BitVec.extractLsb' (n := 6) 4 2 (0#2 ++ x) = 0#2 := by
  apply BitVec.eq_of_getLsbD_eq
  intro i h
  simp only [BitVec.getLsbD_extractLsb', BitVec.getLsbD_append, BitVec.getLsbD_ofNat]
  grind
@[simp] theorem part56 (x : BitVec 2) (y : BitVec 2) (z : BitVec 2) : BitVec.extractLsb' (n := 6) 4 2 (x ++ y ++ z) = x := by
  apply BitVec.eq_of_getLsbD_eq
  intro i h
  simp only [BitVec.getLsbD_extractLsb', BitVec.getLsbD_append]
  grind
@[simp] theorem part57 (x : BitVec 2) (y : BitVec 4) : BitVec.extractLsb' (n := 6) 4 2 (x ++ y) = x := by
  apply BitVec.eq_of_getLsbD_eq
  intro i h
  simp only [BitVec.getLsbD_extractLsb', BitVec.getLsbD_append]
  grind
@[simp] theorem part58 (x : BitVec 1) (y : BitVec 1) (z : BitVec 3) : BitVec.extractLsb' (n := 6) 5 1 (0#1 ++ x ++ y ++ z) = 0#1 := by
  apply BitVec.eq_of_getLsbD_eq
  intro i h
  simp only [BitVec.getLsbD_extractLsb', BitVec.getLsbD_append, BitVec.getLsbD_ofNat]
  grind
@[simp] theorem part59 (x : BitVec 1) (y : BitVec 4) : BitVec.extractLsb' (n := 6) 5 1 (0#1 ++ x ++ y) = 0#1 := by
  apply BitVec.eq_of_getLsbD_eq
  intro i h
  simp only [BitVec.getLsbD_extractLsb', BitVec.getLsbD_append, BitVec.getLsbD_ofNat]
  grind
@[simp] theorem part60 (x : BitVec 2) (y : BitVec 3) : BitVec.extractLsb' (n := 6) 5 1 (0#1 ++ x ++ y) = 0#1 := by
  apply BitVec.eq_of_getLsbD_eq
  intro i h
  simp only [BitVec.getLsbD_extractLsb', BitVec.getLsbD_append, BitVec.getLsbD_ofNat]
  grind
@[simp] theorem part61 (x : BitVec 3) (y : BitVec 2) : BitVec.extractLsb' (n := 6) 5 1 (0#1 ++ x ++ y) = 0#1 := by
  apply BitVec.eq_of_getLsbD_eq
  intro i h
  simp only [BitVec.getLsbD_extractLsb', BitVec.getLsbD_append, BitVec.getLsbD_ofNat]
  grind
@[simp] theorem part62 (x : BitVec 5) : BitVec.extractLsb' (n := 6) 5 1 (0#1 ++ x) = 0#1 := by
  apply BitVec.eq_of_getLsbD_eq
  intro i h
  simp only [BitVec.getLsbD_extractLsb', BitVec.getLsbD_append, BitVec.getLsbD_ofNat]
  grind
@[simp] theorem part63 (x : BitVec 1) (y : BitVec 1) (z : BitVec 4) : BitVec.extractLsb' (n := 6) 5 1 (x ++ y ++ z) = x := by
  apply BitVec.eq_of_getLsbD_eq
  intro i h
  simp only [BitVec.getLsbD_extractLsb', BitVec.getLsbD_append]
  grind
@[simp] theorem part64 (x : BitVec 19) (y : BitVec 1) (z : BitVec 2) (u : BitVec 2) : BitVec.extractLsb' (n := 6) 5 1 (x.extractLsb' 0 1 ++ y ++ z ++ u) = x.extractLsb' 0 1 := by
  apply BitVec.eq_of_getLsbD_eq
  intro i h
  simp only [BitVec.getLsbD_extractLsb', BitVec.getLsbD_append]
  grind
@[simp] theorem part65 (x : BitVec 16) : x.extractLsb' 10 6 ++ x.extractLsb' 4 6 ++ x.extractLsb' 0 4 = x := by
  apply BitVec.eq_of_getLsbD_eq
  intro i h
  simp only [BitVec.getLsbD_extractLsb', BitVec.getLsbD_append]
  grind
@[simp] theorem part66 (x : BitVec 18) : x.extractLsb' 12 6 ++ x.extractLsb' 6 6 ++ x.extractLsb' 0 6 = x := by
  apply BitVec.eq_of_getLsbD_eq
  intro i h
  simp only [BitVec.getLsbD_extractLsb', BitVec.getLsbD_append]
  grind
@[simp] theorem part67 (x : BitVec 19) : x.extractLsb' 13 6 ++ x.extractLsb' 7 6 ++ x.extractLsb' 1 6 ++ x.extractLsb' 0 1 = x := by
  apply BitVec.eq_of_getLsbD_eq
  intro i h
  simp only [BitVec.getLsbD_extractLsb', BitVec.getLsbD_append]
  grind
@[simp] theorem part68 (x : BitVec 24) : x.extractLsb' 18 6 ++ x.extractLsb' 12 6 ++ x.extractLsb' 6 6 ++ x.extractLsb' 0 6 = x := by
  apply BitVec.eq_of_getLsbD_eq
  intro i h
  simp only [BitVec.getLsbD_extractLsb', BitVec.getLsbD_append]
  grind
@[simp] theorem part69 (x : BitVec 9) : x.extractLsb' 3 6 ++ x.extractLsb' 0 3 = x := by
  apply BitVec.eq_of_getLsbD_eq
  intro i h
  simp only [BitVec.getLsbD_extractLsb', BitVec.getLsbD_append]
  grind
@[simp] theorem part70 (x : BitVec 12) : x.extractLsb' 6 6 ++ x.extractLsb' 0 6 = x := by
  apply BitVec.eq_of_getLsbD_eq
  intro i h
  simp only [BitVec.getLsbD_extractLsb', BitVec.getLsbD_append]
  grind

/-- A word's bytes are its bytes. -/
@[simp] theorem wordOfBytes_bytesOfWord (w : BitVec 32) :
    wordOfBytes (w.extractLsb' 0 8) (w.extractLsb' 8 8) (w.extractLsb' 16 8) (w.extractLsb' 24 8) = w := by
  apply BitVec.eq_of_getLsbD_eq
  intro i h
  simp only [wordOfBytes, BitVec.getLsbD_extractLsb', BitVec.getLsbD_append]
  grind

/-- The decoder on the bytes of a word. -/
theorem decodeBytes_bytesOfWord (w : BitVec 32) (l : List (BitVec 8)) :
    decodeBytes (bytesOfWord w ++ l) = (decode w).map (fun i => (i, l)) := by
  simp only [bytesOfWord, List.cons_append, List.nil_append, decodeBytes, wordOfBytes_bytesOfWord]
  cases decode w <;> rfl

end Sys2Proof
end

