-- ==== Sys2Proof/Laws/PerInstr.lean ====
section
/-!
SUPPORT. The family RoundTrip: what an instruction is encoded as decodes to it, one lemma for each constructor. A step
that has no word is encoded as none.
-/

namespace Sys2Proof.Laws.RoundTrip

open Sys2Proof

/-- Every word that encodes the instruction decodes to it. -/
def Statement (i : Instr) : Prop := ∀ w, encode i = some w → decode w = .ok i

theorem of_none {i : Instr} (he : encode i = none) : Statement i := by
  intro w h
  rw [he] at h
  cases h
theorem of_ok {i j : Instr} {op : BitVec 8} {d a b f : BitVec 6} (he : encode i = some (join op d a b f))
    (hd : decodeParts op.toNat d a b f = .ok j) (hj : j = i) : Statement i := by
  intro w h
  rw [he] at h
  cases h
  rw [decode_join, hd, hj]
theorem of_if {i j : Instr} {op : BitVec 8} {d a b f : BitVec 6} {c : Bool} {e : DecodeError} (he : encode i = some (join op d a b f))
    (hd : decodeParts op.toNat d a b f = if c then .ok j else .error e) (hc : c = true) (hj : j = i) : Statement i :=
  of_ok he (by rw [hd, hc]; rfl) hj
theorem nop_cases (op : BitVec 2) : op = 0 ∨ op = 1 ∨ op = 2 ∨ op = 3 := by revert op; decide

theorem aadd (d : BitVec 6) (a : BitVec 6) (b : BitVec 6) (w : BitVec 2) : Statement (.aadd d a b w) :=
  of_if rfl rfl (by simp) (by first | rfl | simp)
theorem asub (d : BitVec 6) (a : BitVec 6) (b : BitVec 6) (w : BitVec 2) : Statement (.asub d a b w) :=
  of_if rfl rfl (by simp) (by first | rfl | simp)
theorem aand (d : BitVec 6) (a : BitVec 6) (b : BitVec 6) (w : BitVec 2) : Statement (.aand d a b w) :=
  of_if rfl rfl (by simp) (by first | rfl | simp)
theorem aorr (d : BitVec 6) (a : BitVec 6) (b : BitVec 6) (w : BitVec 2) : Statement (.aorr d a b w) :=
  of_if rfl rfl (by simp) (by first | rfl | simp)
theorem axor (d : BitVec 6) (a : BitVec 6) (b : BitVec 6) (w : BitVec 2) : Statement (.axor d a b w) :=
  of_if rfl rfl (by simp) (by first | rfl | simp)
theorem ashl (d : BitVec 6) (a : BitVec 6) (b : BitVec 6) (w : BitVec 2) : Statement (.ashl d a b w) :=
  of_if rfl rfl (by simp) (by first | rfl | simp)
theorem ashr (d : BitVec 6) (a : BitVec 6) (b : BitVec 6) (w : BitVec 2) : Statement (.ashr d a b w) :=
  of_if rfl rfl (by simp) (by first | rfl | simp)
theorem asar (d : BitVec 6) (a : BitVec 6) (b : BitVec 6) (w : BitVec 2) : Statement (.asar d a b w) :=
  of_if rfl rfl (by simp) (by first | rfl | simp)
theorem amul (d : BitVec 6) (a : BitVec 6) (b : BitVec 6) (w : BitVec 2) : Statement (.amul d a b w) :=
  of_if rfl rfl (by simp) (by first | rfl | simp)
theorem amad (d : BitVec 6) (a : BitVec 6) (b : BitVec 6) (w : BitVec 2) : Statement (.amad d a b w) :=
  of_if rfl rfl (by simp) (by first | rfl | simp)
theorem amin (d : BitVec 6) (a : BitVec 6) (b : BitVec 6) (w : BitVec 2) : Statement (.amin d a b w) :=
  of_if rfl rfl (by simp) (by first | rfl | simp)
theorem amax (d : BitVec 6) (a : BitVec 6) (b : BitVec 6) (w : BitVec 2) : Statement (.amax d a b w) :=
  of_if rfl rfl (by simp) (by first | rfl | simp)
theorem aminu (d : BitVec 6) (a : BitVec 6) (b : BitVec 6) (w : BitVec 2) : Statement (.aminu d a b w) :=
  of_if rfl rfl (by simp) (by first | rfl | simp)
theorem amaxu (d : BitVec 6) (a : BitVec 6) (b : BitVec 6) (w : BitVec 2) : Statement (.amaxu d a b w) :=
  of_if rfl rfl (by simp) (by first | rfl | simp)
theorem aslt (d : BitVec 6) (a : BitVec 6) (b : BitVec 6) (w : BitVec 2) : Statement (.aslt d a b w) :=
  of_if rfl rfl (by simp) (by first | rfl | simp)
theorem asltu (d : BitVec 6) (a : BitVec 6) (b : BitVec 6) (w : BitVec 2) : Statement (.asltu d a b w) :=
  of_if rfl rfl (by simp) (by first | rfl | simp)
theorem aaddi (d : BitVec 6) (a : BitVec 6) (i : BitVec 12) : Statement (.aaddi d a i) :=
  of_ok rfl rfl (by first | rfl | simp)
theorem aandi (d : BitVec 6) (a : BitVec 6) (i : BitVec 12) : Statement (.aandi d a i) :=
  of_ok rfl rfl (by first | rfl | simp)
theorem ashli (d : BitVec 6) (a : BitVec 6) (i : BitVec 12) : Statement (.ashli d a i) :=
  of_ok rfl rfl (by first | rfl | simp)
theorem ashri (d : BitVec 6) (a : BitVec 6) (i : BitVec 12) : Statement (.ashri d a i) :=
  of_ok rfl rfl (by first | rfl | simp)
theorem asari (d : BitVec 6) (a : BitVec 6) (i : BitVec 12) : Statement (.asari d a i) :=
  of_ok rfl rfl (by first | rfl | simp)
theorem ali (d : BitVec 6) (i : BitVec 18) : Statement (.ali d i) :=
  of_ok rfl rfl (by first | rfl | simp)
theorem alui (d : BitVec 6) (i : BitVec 18) : Statement (.alui d i) :=
  of_ok rfl rfl (by first | rfl | simp)
theorem abeq (a : BitVec 6) (b : BitVec 6) (o : BitVec 12) : Statement (.abeq a b o) :=
  of_ok rfl rfl (by first | rfl | simp)
theorem abne (a : BitVec 6) (b : BitVec 6) (o : BitVec 12) : Statement (.abne a b o) :=
  of_ok rfl rfl (by first | rfl | simp)
theorem ablt (a : BitVec 6) (b : BitVec 6) (o : BitVec 12) : Statement (.ablt a b o) :=
  of_ok rfl rfl (by first | rfl | simp)
theorem abge (a : BitVec 6) (b : BitVec 6) (o : BitVec 12) : Statement (.abge a b o) :=
  of_ok rfl rfl (by first | rfl | simp)
theorem abltu (a : BitVec 6) (b : BitVec 6) (o : BitVec 12) : Statement (.abltu a b o) :=
  of_ok rfl rfl (by first | rfl | simp)
theorem abgeu (a : BitVec 6) (b : BitVec 6) (o : BitVec 12) : Statement (.abgeu a b o) :=
  of_ok rfl rfl (by first | rfl | simp)
theorem abq (s : BitVec 1) (o : BitVec 12) : Statement (.abq s o) :=
  of_if rfl rfl (by simp) (by first | rfl | simp)
theorem ajmp (i : BitVec 24) : Statement (.ajmp i) :=
  of_ok rfl rfl (by first | rfl | simp)
theorem acall (i : BitVec 24) : Statement (.acall i) :=
  of_ok rfl rfl (by first | rfl | simp)
theorem aret : Statement (.aret) :=
  of_ok rfl rfl rfl
theorem ajr (d : BitVec 6) (a : BitVec 6) (i : BitVec 12) : Statement (.ajr d a i) :=
  of_ok rfl rfl (by first | rfl | simp)
theorem tnext (d : BitVec 6) (i : BitVec 12) : Statement (.tnext d i) :=
  of_ok rfl rfl (by first | rfl | simp)
theorem tend : Statement (.tend) :=
  of_ok rfl rfl rfl
theorem spawn (d : BitVec 6) (a : BitVec 6) (b : BitVec 6) : Statement (.spawn d a b) :=
  of_ok rfl rfl rfl
theorem fan (a : BitVec 6) (b : BitVec 6) : Statement (.fan a b) :=
  of_ok rfl rfl rfl
theorem gang (d : BitVec 6) (a : BitVec 6) : Statement (.gang d a) :=
  of_ok rfl rfl rfl
theorem tqpush (d : BitVec 6) (a : BitVec 6) : Statement (.tqpush d a) :=
  of_ok rfl rfl rfl
theorem ld (d : BitVec 6) (b : BitVec 6) (o : BitVec 9) (s : BitVec 3) : Statement (.ld d b o s) :=
  of_ok rfl rfl (by first | rfl | simp)
theorem st (d : BitVec 6) (b : BitVec 6) (o : BitVec 9) (s : BitVec 3) : Statement (.st d b o s) :=
  of_ok rfl rfl (by first | rfl | simp)
theorem ldg (d : BitVec 6) (b : BitVec 6) (o : BitVec 9) (s : BitVec 3) : Statement (.ldg d b o s) :=
  of_ok rfl rfl (by first | rfl | simp)
theorem stg (d : BitVec 6) (b : BitVec 6) (o : BitVec 9) (s : BitVec 3) : Statement (.stg d b o s) :=
  of_ok rfl rfl (by first | rfl | simp)
theorem latm (d : BitVec 6) (b : BitVec 6) (p : BitVec 4) (s : BitVec 3) : Statement (.latm d b p s) :=
  of_if rfl rfl (by simp) (by first | rfl | simp)
theorem atom (d : BitVec 6) (a : BitVec 6) (b : BitVec 6) (r : BitVec 1) (w : BitVec 1) (p : BitVec 4) : Statement (.atom d a b r w p) :=
  of_ok rfl rfl (by first | rfl | simp)
theorem put (d : BitVec 6) (a : BitVec 6) (b : BitVec 6) (s : BitVec 3) : Statement (.put d a b s) :=
  of_if rfl rfl (by simp) (by first | rfl | simp)
theorem msg (d : BitVec 6) (a : BitVec 6) (b : BitVec 6) (f : BitVec 1) : Statement (.msg d a b f) :=
  of_if rfl rfl (by simp) (by first | rfl | simp)
theorem wcfg (a : BitVec 6) (n : BitVec 3) : Statement (.wcfg a n) :=
  of_if rfl rfl (by simp) (by first | rfl | simp)
theorem wstart (n : BitVec 3) : Statement (.wstart n) :=
  of_if rfl rfl (by simp) (by first | rfl | simp)
theorem wstop (n : BitVec 3) : Statement (.wstop n) :=
  of_if rfl rfl (by simp) (by first | rfl | simp)
theorem wflags (d : BitVec 6) (n : BitVec 3) : Statement (.wflags d n) :=
  of_if rfl rfl (by simp) (by first | rfl | simp)
theorem wpos (d : BitVec 6) (a : BitVec 6) (f : BitVec 1) (n : BitVec 3) : Statement (.wpos d a f n) :=
  of_if rfl rfl (by simp) (by first | rfl | simp)
theorem cpy (d : BitVec 6) (a : BitVec 6) : Statement (.cpy d a) :=
  of_ok rfl rfl rfl
theorem cpyw (a : BitVec 6) (e : BitVec 2) : Statement (.cpyw a e) :=
  of_if rfl rfl (by simp) (by first | rfl | simp)
theorem winset (a : BitVec 6) (b : BitVec 6) : Statement (.winset a b) :=
  of_ok rfl rfl rfl
theorem winget (d : BitVec 6) (a : BitVec 6) (k : BitVec 2) : Statement (.winget d a k) :=
  of_if rfl rfl (by simp) (by first | rfl | simp)
theorem pflist (a : BitVec 6) : Statement (.pflist a) :=
  of_ok rfl rfl rfl
theorem rcpy (d : BitVec 6) (a : BitVec 6) (r : BitVec 1) (h : BitVec 4) : Statement (.rcpy d a r h) :=
  of_if rfl rfl (by simp) (by first | rfl | simp)
theorem rcfg (a : BitVec 6) (h : BitVec 4) : Statement (.rcfg a h) :=
  of_if rfl rfl (by simp) (by first | rfl | simp)
theorem rwait (d : BitVec 6) (h : BitVec 4) : Statement (.rwait d h) :=
  of_if rfl rfl (by simp) (by first | rfl | simp)
theorem rresv (d : BitVec 6) (h : BitVec 4) : Statement (.rresv d h) :=
  of_if rfl rfl (by simp) (by first | rfl | simp)
theorem rprod (h : BitVec 4) : Statement (.rprod h) :=
  of_if rfl rfl (by simp) (by first | rfl | simp)
theorem rcons (h : BitVec 4) : Statement (.rcons h) :=
  of_if rfl rfl (by simp) (by first | rfl | simp)
theorem rslot (d : BitVec 6) (a : BitVec 6) (h : BitVec 4) : Statement (.rslot d a h) :=
  of_if rfl rfl (by simp) (by first | rfl | simp)
theorem ssweep (d : BitVec 6) (a : BitVec 6) (b : BitVec 6) : Statement (.ssweep d a b) :=
  of_ok rfl rfl rfl
theorem add (d : BitVec 6) (a : BitVec 6) (b : BitVec 6) (w : BitVec 2) : Statement (.add d a b w) :=
  of_if rfl rfl (by simp) (by first | rfl | simp)
theorem sub (d : BitVec 6) (a : BitVec 6) (b : BitVec 6) (w : BitVec 2) : Statement (.sub d a b w) :=
  of_if rfl rfl (by simp) (by first | rfl | simp)
theorem mul (d : BitVec 6) (a : BitVec 6) (b : BitVec 6) (w : BitVec 2) : Statement (.mul d a b w) :=
  of_if rfl rfl (by simp) (by first | rfl | simp)
theorem mulh (d : BitVec 6) (a : BitVec 6) (b : BitVec 6) (w : BitVec 2) : Statement (.mulh d a b w) :=
  of_if rfl rfl (by simp) (by first | rfl | simp)
theorem mulhu (d : BitVec 6) (a : BitVec 6) (b : BitVec 6) (w : BitVec 2) : Statement (.mulhu d a b w) :=
  of_if rfl rfl (by simp) (by first | rfl | simp)
theorem div (d : BitVec 6) (a : BitVec 6) (b : BitVec 6) (w : BitVec 2) : Statement (.div d a b w) :=
  of_if rfl rfl (by simp) (by first | rfl | simp)
theorem divu (d : BitVec 6) (a : BitVec 6) (b : BitVec 6) (w : BitVec 2) : Statement (.divu d a b w) :=
  of_if rfl rfl (by simp) (by first | rfl | simp)
theorem rem (d : BitVec 6) (a : BitVec 6) (b : BitVec 6) (w : BitVec 2) : Statement (.rem d a b w) :=
  of_if rfl rfl (by simp) (by first | rfl | simp)
theorem remu (d : BitVec 6) (a : BitVec 6) (b : BitVec 6) (w : BitVec 2) : Statement (.remu d a b w) :=
  of_if rfl rfl (by simp) (by first | rfl | simp)
theorem and (d : BitVec 6) (a : BitVec 6) (b : BitVec 6) (w : BitVec 2) : Statement (.and d a b w) :=
  of_if rfl rfl (by simp) (by first | rfl | simp)
theorem or (d : BitVec 6) (a : BitVec 6) (b : BitVec 6) (w : BitVec 2) : Statement (.or d a b w) :=
  of_if rfl rfl (by simp) (by first | rfl | simp)
theorem xor (d : BitVec 6) (a : BitVec 6) (b : BitVec 6) (w : BitVec 2) : Statement (.xor d a b w) :=
  of_if rfl rfl (by simp) (by first | rfl | simp)
theorem shl (d : BitVec 6) (a : BitVec 6) (b : BitVec 6) (w : BitVec 2) : Statement (.shl d a b w) :=
  of_if rfl rfl (by simp) (by first | rfl | simp)
theorem shr (d : BitVec 6) (a : BitVec 6) (b : BitVec 6) (w : BitVec 2) : Statement (.shr d a b w) :=
  of_if rfl rfl (by simp) (by first | rfl | simp)
theorem sar (d : BitVec 6) (a : BitVec 6) (b : BitVec 6) (w : BitVec 2) : Statement (.sar d a b w) :=
  of_if rfl rfl (by simp) (by first | rfl | simp)
theorem min (d : BitVec 6) (a : BitVec 6) (b : BitVec 6) (w : BitVec 2) : Statement (.min d a b w) :=
  of_if rfl rfl (by simp) (by first | rfl | simp)
theorem max (d : BitVec 6) (a : BitVec 6) (b : BitVec 6) (w : BitVec 2) : Statement (.max d a b w) :=
  of_if rfl rfl (by simp) (by first | rfl | simp)
theorem minu (d : BitVec 6) (a : BitVec 6) (b : BitVec 6) (w : BitVec 2) : Statement (.minu d a b w) :=
  of_if rfl rfl (by simp) (by first | rfl | simp)
theorem maxu (d : BitVec 6) (a : BitVec 6) (b : BitVec 6) (w : BitVec 2) : Statement (.maxu d a b w) :=
  of_if rfl rfl (by simp) (by first | rfl | simp)
theorem slt (d : BitVec 6) (a : BitVec 6) (b : BitVec 6) (w : BitVec 2) : Statement (.slt d a b w) :=
  of_if rfl rfl (by simp) (by first | rfl | simp)
theorem sltu (d : BitVec 6) (a : BitVec 6) (b : BitVec 6) (w : BitVec 2) : Statement (.sltu d a b w) :=
  of_if rfl rfl (by simp) (by first | rfl | simp)
theorem seq (d : BitVec 6) (a : BitVec 6) (b : BitVec 6) (w : BitVec 2) : Statement (.seq d a b w) :=
  of_if rfl rfl (by simp) (by first | rfl | simp)
theorem sel (d : BitVec 6) (a : BitVec 6) (b : BitVec 6) (w : BitVec 2) : Statement (.sel d a b w) :=
  of_if rfl rfl (by simp) (by first | rfl | simp)
theorem clz (d : BitVec 6) (a : BitVec 6) (w : BitVec 2) : Statement (.clz d a w) :=
  of_if rfl rfl (by simp) (by first | rfl | simp)
theorem popc (d : BitVec 6) (a : BitVec 6) (w : BitVec 2) : Statement (.popc d a w) :=
  of_if rfl rfl (by simp) (by first | rfl | simp)
theorem sext (d : BitVec 6) (a : BitVec 6) (w : BitVec 2) : Statement (.sext d a w) :=
  of_if rfl rfl (by simp) (by first | rfl | simp)
theorem addi (d : BitVec 6) (a : BitVec 6) (i : BitVec 12) : Statement (.addi d a i) :=
  of_ok rfl rfl (by first | rfl | simp)
theorem andi (d : BitVec 6) (a : BitVec 6) (i : BitVec 12) : Statement (.andi d a i) :=
  of_ok rfl rfl (by first | rfl | simp)
theorem ori (d : BitVec 6) (a : BitVec 6) (i : BitVec 12) : Statement (.ori d a i) :=
  of_ok rfl rfl (by first | rfl | simp)
theorem xori (d : BitVec 6) (a : BitVec 6) (i : BitVec 12) : Statement (.xori d a i) :=
  of_ok rfl rfl (by first | rfl | simp)
theorem shli (d : BitVec 6) (a : BitVec 6) (i : BitVec 12) : Statement (.shli d a i) :=
  of_ok rfl rfl (by first | rfl | simp)
theorem shri (d : BitVec 6) (a : BitVec 6) (i : BitVec 12) : Statement (.shri d a i) :=
  of_ok rfl rfl (by first | rfl | simp)
theorem sari (d : BitVec 6) (a : BitVec 6) (i : BitVec 12) : Statement (.sari d a i) :=
  of_ok rfl rfl (by first | rfl | simp)
theorem li (d : BitVec 6) (i : BitVec 18) : Statement (.li d i) :=
  of_ok rfl rfl (by first | rfl | simp)
theorem lui (d : BitVec 6) (i : BitVec 18) : Statement (.lui d i) :=
  of_ok rfl rfl (by first | rfl | simp)
theorem fadd (d : BitVec 6) (a : BitVec 6) (b : BitVec 6) (r : BitVec 3) (f : BitVec 2) : Statement (.fadd d a b r f) :=
  of_if rfl rfl (by simp) (by first | rfl | simp)
theorem fsub (d : BitVec 6) (a : BitVec 6) (b : BitVec 6) (r : BitVec 3) (f : BitVec 2) : Statement (.fsub d a b r f) :=
  of_if rfl rfl (by simp) (by first | rfl | simp)
theorem fmul (d : BitVec 6) (a : BitVec 6) (b : BitVec 6) (r : BitVec 3) (f : BitVec 2) : Statement (.fmul d a b r f) :=
  of_if rfl rfl (by simp) (by first | rfl | simp)
theorem fma (d : BitVec 6) (a : BitVec 6) (b : BitVec 6) (r : BitVec 3) (f : BitVec 2) : Statement (.fma d a b r f) :=
  of_if rfl rfl (by simp) (by first | rfl | simp)
theorem fmin (d : BitVec 6) (a : BitVec 6) (b : BitVec 6) (f : BitVec 2) : Statement (.fmin d a b f) :=
  of_if rfl rfl (by simp) (by first | rfl | simp)
theorem fmax (d : BitVec 6) (a : BitVec 6) (b : BitVec 6) (f : BitVec 2) : Statement (.fmax d a b f) :=
  of_if rfl rfl (by simp) (by first | rfl | simp)
theorem fcmp (d : BitVec 6) (a : BitVec 6) (b : BitVec 6) (c : BitVec 3) (f : BitVec 2) : Statement (.fcmp d a b c f) :=
  of_if rfl rfl (by simp) (by first | rfl | simp)
theorem fcvt (d : BitVec 6) (a : BitVec 6) (k : BitVec 2) (t : BitVec 4) (s : BitVec 3) (r : BitVec 3) : Statement (.fcvt d a k t s r) :=
  of_ok rfl rfl (by first | rfl | simp)
theorem fsgn (d : BitVec 6) (a : BitVec 6) (b : BitVec 6) (o : BitVec 3) (f : BitVec 2) : Statement (.fsgn d a b o f) :=
  of_if rfl rfl (by simp) (by first | rfl | simp)
theorem fclass (d : BitVec 6) (a : BitVec 6) (f : BitVec 2) : Statement (.fclass d a f) :=
  of_if rfl rfl (by simp) (by first | rfl | simp)
theorem frnd (d : BitVec 6) (a : BitVec 6) (r : BitVec 3) (f : BitVec 2) : Statement (.frnd d a r f) :=
  of_if rfl rfl (by simp) (by first | rfl | simp)
theorem epb (a : BitVec 6) (c : BitVec 2) : Statement (.epb a c) :=
  of_if rfl rfl (by simp) (by first | rfl | simp)
theorem ebnz (a : BitVec 6) (s : BitVec 1) (o : BitVec 12) : Statement (.ebnz a s o) :=
  of_if rfl rfl (by simp) (by first | rfl | simp)
theorem vadd (d : BitVec 6) (a : BitVec 6) (b : BitVec 6) (m : BitVec 3) (k : BitVec 1) (w : BitVec 2) : Statement (.vadd d a b m k w) :=
  of_ok rfl rfl (by first | rfl | simp)
theorem vsub (d : BitVec 6) (a : BitVec 6) (b : BitVec 6) (m : BitVec 3) (k : BitVec 1) (w : BitVec 2) : Statement (.vsub d a b m k w) :=
  of_ok rfl rfl (by first | rfl | simp)
theorem vmul (d : BitVec 6) (a : BitVec 6) (b : BitVec 6) (m : BitVec 3) (k : BitVec 1) (w : BitVec 2) : Statement (.vmul d a b m k w) :=
  of_ok rfl rfl (by first | rfl | simp)
theorem vmulh (d : BitVec 6) (a : BitVec 6) (b : BitVec 6) (m : BitVec 3) (k : BitVec 1) (w : BitVec 2) : Statement (.vmulh d a b m k w) :=
  of_ok rfl rfl (by first | rfl | simp)
theorem vmin (d : BitVec 6) (a : BitVec 6) (b : BitVec 6) (m : BitVec 3) (k : BitVec 1) (w : BitVec 2) : Statement (.vmin d a b m k w) :=
  of_ok rfl rfl (by first | rfl | simp)
theorem vmax (d : BitVec 6) (a : BitVec 6) (b : BitVec 6) (m : BitVec 3) (k : BitVec 1) (w : BitVec 2) : Statement (.vmax d a b m k w) :=
  of_ok rfl rfl (by first | rfl | simp)
theorem vminu (d : BitVec 6) (a : BitVec 6) (b : BitVec 6) (m : BitVec 3) (k : BitVec 1) (w : BitVec 2) : Statement (.vminu d a b m k w) :=
  of_ok rfl rfl (by first | rfl | simp)
theorem vmaxu (d : BitVec 6) (a : BitVec 6) (b : BitVec 6) (m : BitVec 3) (k : BitVec 1) (w : BitVec 2) : Statement (.vmaxu d a b m k w) :=
  of_ok rfl rfl (by first | rfl | simp)
theorem vand (d : BitVec 6) (a : BitVec 6) (b : BitVec 6) (m : BitVec 3) (k : BitVec 1) (w : BitVec 2) : Statement (.vand d a b m k w) :=
  of_ok rfl rfl (by first | rfl | simp)
theorem vor (d : BitVec 6) (a : BitVec 6) (b : BitVec 6) (m : BitVec 3) (k : BitVec 1) (w : BitVec 2) : Statement (.vor d a b m k w) :=
  of_ok rfl rfl (by first | rfl | simp)
theorem vxor (d : BitVec 6) (a : BitVec 6) (b : BitVec 6) (m : BitVec 3) (k : BitVec 1) (w : BitVec 2) : Statement (.vxor d a b m k w) :=
  of_ok rfl rfl (by first | rfl | simp)
theorem vshl (d : BitVec 6) (a : BitVec 6) (b : BitVec 6) (m : BitVec 3) (k : BitVec 1) (w : BitVec 2) : Statement (.vshl d a b m k w) :=
  of_ok rfl rfl (by first | rfl | simp)
theorem vshr (d : BitVec 6) (a : BitVec 6) (b : BitVec 6) (m : BitVec 3) (k : BitVec 1) (w : BitVec 2) : Statement (.vshr d a b m k w) :=
  of_ok rfl rfl (by first | rfl | simp)
theorem vsar (d : BitVec 6) (a : BitVec 6) (b : BitVec 6) (m : BitVec 3) (k : BitVec 1) (w : BitVec 2) : Statement (.vsar d a b m k w) :=
  of_ok rfl rfl (by first | rfl | simp)
theorem vsadd (d : BitVec 6) (a : BitVec 6) (b : BitVec 6) (m : BitVec 3) (k : BitVec 1) (w : BitVec 2) : Statement (.vsadd d a b m k w) :=
  of_ok rfl rfl (by first | rfl | simp)
theorem vsaddu (d : BitVec 6) (a : BitVec 6) (b : BitVec 6) (m : BitVec 3) (k : BitVec 1) (w : BitVec 2) : Statement (.vsaddu d a b m k w) :=
  of_ok rfl rfl (by first | rfl | simp)
theorem vcmp (d : BitVec 6) (a : BitVec 6) (b : BitVec 6) (c : BitVec 3) (w : BitVec 2) : Statement (.vcmp d a b c w) :=
  of_if rfl rfl (by simp) (by first | rfl | simp)
theorem vsel (d : BitVec 6) (a : BitVec 6) (b : BitVec 6) (m : BitVec 3) (w : BitVec 2) : Statement (.vsel d a b m w) :=
  of_if rfl rfl (by simp) (by first | rfl | simp)
theorem vfadd (d : BitVec 6) (a : BitVec 6) (b : BitVec 6) (m : BitVec 3) (k : BitVec 1) (w : BitVec 2) : Statement (.vfadd d a b m k w) :=
  of_ok rfl rfl (by first | rfl | simp)
theorem vfsub (d : BitVec 6) (a : BitVec 6) (b : BitVec 6) (m : BitVec 3) (k : BitVec 1) (w : BitVec 2) : Statement (.vfsub d a b m k w) :=
  of_ok rfl rfl (by first | rfl | simp)
theorem vfmul (d : BitVec 6) (a : BitVec 6) (b : BitVec 6) (m : BitVec 3) (k : BitVec 1) (w : BitVec 2) : Statement (.vfmul d a b m k w) :=
  of_ok rfl rfl (by first | rfl | simp)
theorem vfma (d : BitVec 6) (a : BitVec 6) (b : BitVec 6) (m : BitVec 3) (k : BitVec 1) (w : BitVec 2) : Statement (.vfma d a b m k w) :=
  of_ok rfl rfl (by first | rfl | simp)
theorem vfmin (d : BitVec 6) (a : BitVec 6) (b : BitVec 6) (m : BitVec 3) (k : BitVec 1) (w : BitVec 2) : Statement (.vfmin d a b m k w) :=
  of_ok rfl rfl (by first | rfl | simp)
theorem vfmax (d : BitVec 6) (a : BitVec 6) (b : BitVec 6) (m : BitVec 3) (k : BitVec 1) (w : BitVec 2) : Statement (.vfmax d a b m k w) :=
  of_ok rfl rfl (by first | rfl | simp)
theorem vfcmp (d : BitVec 6) (a : BitVec 6) (b : BitVec 6) (c : BitVec 3) (f : BitVec 2) : Statement (.vfcmp d a b c f) :=
  of_if rfl rfl (by simp) (by first | rfl | simp)
theorem vfcvt (d : BitVec 6) (a : BitVec 6) (p : BitVec 2) (t : BitVec 4) (s : BitVec 3) (r : BitVec 3) : Statement (.vfcvt d a p t s r) :=
  of_ok rfl rfl (by first | rfl | simp)
theorem vfsgn (d : BitVec 6) (a : BitVec 6) (b : BitVec 6) (o : BitVec 3) (f : BitVec 2) : Statement (.vfsgn d a b o f) :=
  of_if rfl rfl (by simp) (by first | rfl | simp)
theorem vfclass (d : BitVec 6) (a : BitVec 6) (f : BitVec 2) : Statement (.vfclass d a f) :=
  of_if rfl rfl (by simp) (by first | rfl | simp)
theorem vfred (d : BitVec 6) (a : BitVec 6) (o : BitVec 2) (f : BitVec 2) : Statement (.vfred d a o f) :=
  of_if rfl rfl (by simp) (by first | rfl | simp)
theorem vdot (d : BitVec 6) (a : BitVec 6) (b : BitVec 6) (r : BitVec 3) (t : BitVec 3) : Statement (.vdot d a b r t) :=
  of_ok rfl rfl (by first | rfl | simp)
theorem voptw (d : BitVec 6) (a : BitVec 6) (b : BitVec 6) (p : BitVec 6) : Statement (.voptw d a b p) :=
  of_ok rfl rfl rfl
theorem vmov (d : BitVec 6) (a : BitVec 6) (m : BitVec 3) (k : BitVec 1) (w : BitVec 2) : Statement (.vmov d a m k w) :=
  of_ok rfl rfl (by first | rfl | simp)
theorem vsplat (d : BitVec 6) (a : BitVec 6) (m : BitVec 3) (k : BitVec 1) (w : BitVec 2) : Statement (.vsplat d a m k w) :=
  of_ok rfl rfl (by first | rfl | simp)
theorem vext (d : BitVec 6) (a : BitVec 6) (w : BitVec 2) (k : BitVec 4) : Statement (.vext d a w k) :=
  of_ok rfl rfl (by first | rfl | simp)
theorem vins (d : BitVec 6) (a : BitVec 6) (w : BitVec 2) (k : BitVec 4) : Statement (.vins d a w k) :=
  of_ok rfl rfl (by first | rfl | simp)
theorem vperm (d : BitVec 6) (a : BitVec 6) (b : BitVec 6) (m : BitVec 3) (k : BitVec 1) (w : BitVec 2) : Statement (.vperm d a b m k w) :=
  of_ok rfl rfl (by first | rfl | simp)
theorem vshuf (d : BitVec 6) (a : BitVec 6) (b : BitVec 6) (o : BitVec 3) (w : BitVec 2) : Statement (.vshuf d a b o w) :=
  of_if rfl rfl (by simp) (by first | rfl | simp)
theorem vnarrow (d : BitVec 6) (a : BitVec 6) (b : BitVec 6) (m : BitVec 2) (w : BitVec 2) : Statement (.vnarrow d a b m w) :=
  of_if rfl rfl (by simp) (by first | rfl | simp)
theorem vwiden (d : BitVec 6) (a : BitVec 6) (h : BitVec 1) (s : BitVec 1) (w : BitVec 2) : Statement (.vwiden d a h s w) :=
  of_if rfl rfl (by simp) (by first | rfl | simp)
theorem vslide (d : BitVec 6) (a : BitVec 6) (b : BitVec 6) (w : BitVec 2) (s : BitVec 4) : Statement (.vslide d a b w s) :=
  of_ok rfl rfl (by first | rfl | simp)
theorem vqpack (d : BitVec 6) (a : BitVec 6) (b : BitVec 6) (p : BitVec 2) (t : BitVec 2) (f : BitVec 2) : Statement (.vqpack d a b p t f) :=
  of_ok rfl rfl (by first | rfl | simp)
theorem vqunpk (d : BitVec 6) (a : BitVec 6) (b : BitVec 6) (p : BitVec 2) (t : BitVec 2) (f : BitVec 2) : Statement (.vqunpk d a b p t f) :=
  of_ok rfl rfl (by first | rfl | simp)
theorem vscale (d : BitVec 6) (a : BitVec 6) (t : BitVec 2) (f : BitVec 2) : Statement (.vscale d a t f) :=
  of_if rfl rfl (by simp) (by first | rfl | simp)
theorem vmpop (d : BitVec 6) (a : BitVec 6) (m : BitVec 3) (w : BitVec 2) : Statement (.vmpop d a m w) :=
  of_if rfl rfl (by simp) (by first | rfl | simp)
theorem vmfirst (d : BitVec 6) (a : BitVec 6) (m : BitVec 3) (w : BitVec 2) : Statement (.vmfirst d a m w) :=
  of_if rfl rfl (by simp) (by first | rfl | simp)
theorem vrot (d : BitVec 6) (a : BitVec 6) (b : BitVec 6) (r : BitVec 1) (w : BitVec 2) : Statement (.vrot d a b r w) :=
  of_if rfl rfl (by simp) (by first | rfl | simp)
theorem cord (d : BitVec 6) (a : BitVec 6) (n : BitVec 5) (f : BitVec 4) : Statement (.cord d a n f) :=
  of_if rfl rfl (by simp) (by first | rfl | simp)
theorem vcord (d : BitVec 6) (a : BitVec 6) (n : BitVec 5) (f : BitVec 4) : Statement (.vcord d a n f) :=
  of_if rfl rfl (by simp) (by first | rfl | simp)
theorem sset (d : BitVec 6) (a : BitVec 6) (c : BitVec 4) : Statement (.sset d a c) :=
  of_if rfl rfl (by simp) (by first | rfl | simp)
theorem sread (d : BitVec 6) (a : BitVec 6) : Statement (.sread d a) :=
  of_ok rfl rfl rfl
theorem sadd (d : BitVec 6) (a : BitVec 6) (b : BitVec 6) (r : BitVec 3) : Statement (.sadd d a b r) :=
  of_if rfl rfl (by simp) (by first | rfl | simp)
theorem smrg (d : BitVec 6) (a : BitVec 6) (b : BitVec 6) (r : BitVec 3) : Statement (.smrg d a b r) :=
  of_if rfl rfl (by simp) (by first | rfl | simp)
theorem vsread (d : BitVec 6) (a : BitVec 6) : Statement (.vsread d a) :=
  of_ok rfl rfl rfl
theorem vsaddStamped (d : BitVec 6) (a : BitVec 6) (b : BitVec 6) (r : BitVec 3) : Statement (.vsaddStamped d a b r) :=
  of_if rfl rfl (by simp) (by first | rfl | simp)
theorem vsmrg (d : BitVec 6) (a : BitVec 6) (b : BitVec 6) (r : BitVec 3) : Statement (.vsmrg d a b r) :=
  of_if rfl rfl (by simp) (by first | rfl | simp)
theorem rsld (d : BitVec 6) (b : BitVec 6) (o : BitVec 9) (s : BitVec 3) : Statement (.rsld d b o s) :=
  of_ok rfl rfl (by first | rfl | simp)
theorem rsst (d : BitVec 6) (b : BitVec 6) (o : BitVec 9) (s : BitVec 3) : Statement (.rsst d b o s) :=
  of_ok rfl rfl (by first | rfl | simp)
theorem tvld (a : BitVec 6) (n : BitVec 4) : Statement (.tvld a n) :=
  of_if rfl rfl (by simp) (by first | rfl | simp)
theorem mloadn (d : BitVec 6) (n : BitVec 4) : Statement (.mloadn d n) :=
  of_if rfl rfl (by simp) (by first | rfl | simp)
theorem mloadw (d : BitVec 6) (n : BitVec 4) : Statement (.mloadw d n) :=
  of_if rfl rfl (by simp) (by first | rfl | simp)
theorem mjob (d : BitVec 6) (a : BitVec 6) : Statement (.mjob d a) :=
  of_ok rfl rfl rfl
theorem mwait (d : BitVec 6) (a : BitVec 6) : Statement (.mwait d a) :=
  of_ok rfl rfl rfl
theorem mpoll (d : BitVec 6) (a : BitVec 6) : Statement (.mpoll d a) :=
  of_ok rfl rfl rfl
theorem mpub (d : BitVec 6) (a : BitVec 6) (n : BitVec 4) : Statement (.mpub d a n) :=
  of_if rfl rfl (by simp) (by first | rfl | simp)
theorem msub (d : BitVec 6) (a : BitVec 6) (b : BitVec 6) : Statement (.msub d a b) :=
  of_ok rfl rfl rfl
theorem munsub (a : BitVec 6) : Statement (.munsub a) :=
  of_ok rfl rfl rfl
theorem mchain (d : BitVec 6) (a : BitVec 6) (n : BitVec 3) : Statement (.mchain d a n) :=
  of_if rfl rfl (by simp) (by first | rfl | simp)
theorem msend (d : BitVec 6) (a : BitVec 6) (b : BitVec 6) : Statement (.msend d a b) :=
  of_ok rfl rfl rfl
theorem mcap (d : BitVec 6) (a : BitVec 6) (b : BitVec 6) : Statement (.mcap d a b) :=
  of_ok rfl rfl rfl
theorem mhnd (d : BitVec 6) : Statement (.mhnd d) :=
  of_ok rfl rfl rfl
theorem mdone (d : BitVec 1) (a : BitVec 1) (m : BitVec 3) : Statement (.mdone d a m) :=
  of_if rfl rfl (by simp) (by first | rfl | simp)
theorem bgemv (d : BitVec 6) (a : BitVec 6) : Statement (.bgemv d a) :=
  of_ok rfl rfl rfl
theorem bwait (d : BitVec 6) (a : BitVec 6) : Statement (.bwait d a) :=
  of_ok rfl rfl rfl
theorem coll (d : BitVec 6) (a : BitVec 6) : Statement (.coll d a) :=
  of_ok rfl rfl rfl
theorem cwait (d : BitVec 6) (a : BitVec 6) : Statement (.cwait d a) :=
  of_ok rfl rfl rfl
theorem csig (a : BitVec 6) (b : BitVec 6) (s : BitVec 3) (k : BitVec 3) : Statement (.csig a b s k) :=
  of_ok rfl rfl (by first | rfl | simp)
theorem bar (d : BitVec 6) (a : BitVec 6) (o : BitVec 3) (s : BitVec 2) : Statement (.bar d a o s) :=
  of_if rfl rfl (by simp) (by first | rfl | simp)
theorem vote (a : BitVec 6) (c : BitVec 1) (k : BitVec 2) : Statement (.vote a c k) :=
  of_if rfl rfl (by simp) (by first | rfl | simp)
theorem stepadv (a : BitVec 6) : Statement (.stepadv a) :=
  of_ok rfl rfl rfl
theorem fence (s : BitVec 3) (k : BitVec 3) : Statement (.fence s k) :=
  of_ok rfl rfl (by first | rfl | simp)
theorem fenceSc (s : BitVec 3) : Statement (.fenceSc s) :=
  of_if rfl rfl (by simp) (by first | rfl | simp)
theorem fenceBank : Statement (.fenceBank) :=
  of_ok rfl rfl rfl
theorem wait (d : BitVec 6) (a : BitVec 6) (b : BitVec 6) (s : BitVec 3) (c : BitVec 3) : Statement (.wait d a b s c) :=
  of_ok rfl rfl (by first | rfl | simp)
theorem csrr (d : BitVec 6) (c : BitVec 12) : Statement (.csrr d c) :=
  of_ok rfl rfl (by first | rfl | simp)
theorem csrw (d : BitVec 6) (c : BitVec 12) : Statement (.csrw d c) :=
  of_ok rfl rfl (by first | rfl | simp)
theorem csrs (d : BitVec 6) (c : BitVec 12) : Statement (.csrs d c) :=
  of_ok rfl rfl (by first | rfl | simp)
theorem csrc (d : BitVec 6) (c : BitVec 12) : Statement (.csrc d c) :=
  of_ok rfl rfl (by first | rfl | simp)
theorem trap (i : BitVec 24) : Statement (.trap i) :=
  of_ok rfl rfl (by first | rfl | simp)
theorem eret : Statement (.eret) :=
  of_ok rfl rfl rfl
theorem halt : Statement (.halt) :=
  of_ok rfl rfl rfl
theorem nop : Statement (.nop) :=
  of_ok rfl rfl rfl
theorem feat (d : BitVec 6) (a : BitVec 6) (t : BitVec 1) : Statement (.feat d a t) :=
  of_if rfl rfl (by simp) (by first | rfl | simp)
theorem dbrk (i : BitVec 24) : Statement (.dbrk i) :=
  of_ok rfl rfl (by first | rfl | simp)
theorem loop (a : BitVec 6) (i : BitVec 12) : Statement (.loop a i) :=
  of_ok rfl rfl (by first | rfl | simp)
theorem loopi (i : BitVec 18) : Statement (.loopi i) :=
  of_ok rfl rfl (by first | rfl | simp)
theorem loopw (f : BitVec 2) (w : BitVec 3) (i : BitVec 12) : Statement (.loopw f w i) :=
  of_if rfl rfl (by simp) (by first | rfl | simp)
theorem lbrk (n : BitVec 2) : Statement (.lbrk n) :=
  of_if rfl rfl (by simp) (by first | rfl | simp)
theorem himm (p : BitVec 24) : Statement (.himm p) :=
  of_ok rfl rfl (by first | rfl | simp)
theorem hmod (e : BitVec 16) (s : BitVec 1) (n : BitVec 1) (c : BitVec 3) (k : BitVec 3) : Statement (.hmod e s n c k) :=
  of_ok rfl rfl (by first | rfl | simp)
theorem hsched (x : BitVec 19) (k : BitVec 1) (r : BitVec 2) (l : BitVec 2) : Statement (.hsched x k r l) :=
  of_ok rfl rfl (by first | rfl | simp)
theorem nopHint (op : BitVec 2) (p : BitVec 24) : Statement (.nopHint op p) := by
  intro w h
  cases h
  match op, nop_cases op with
  | _, .inl rfl => rw [decode_join]; exact congrArg Except.ok (by simp)
  | _, .inr (.inl rfl) => rw [decode_join]; exact congrArg Except.ok (by simp)
  | _, .inr (.inr (.inl rfl)) => rw [decode_join]; exact congrArg Except.ok (by simp)
  | _, .inr (.inr (.inr rfl)) => rw [decode_join]; exact congrArg Except.ok (by simp)
theorem illegalInstruction (w : BitVec 32) : Statement (.illegalInstruction w) := of_none rfl
theorem fetchDeliver (core ctx : Nat) : Statement (.fetchDeliver core ctx) := of_none rfl
theorem walkerFetch (core ctx walker : Nat) : Statement (.walkerFetch core ctx walker) := of_none rfl
theorem walkerStoreWrite (core ctx walker : Nat) : Statement (.walkerStoreWrite core ctx walker) := of_none rfl
theorem translationWalk (core page : Nat) (write : Bool) : Statement (.translationWalk core page write) := of_none rfl
theorem pageBringUp (tenant page : Nat) : Statement (.pageBringUp tenant page) := of_none rfl
theorem backgroundScrub (frame : Nat) : Statement (.backgroundScrub frame) := of_none rfl
theorem startMessage (core : Nat) (pc arg : BitVec 64) : Statement (.startMessage core pc arg) := of_none rfl
theorem coreArrive (core slot : Nat) : Statement (.coreArrive core slot) := of_none rfl
theorem risingPennant (dom : Nat) : Statement (.risingPennant dom) := of_none rfl
theorem pollTimer (dom : Nat) : Statement (.pollTimer dom) := of_none rfl
theorem poll (dom : Nat) (who : Party) : Statement (.poll dom who) := of_none rfl
theorem corePark (core : Nat) : Statement (.corePark core) := of_none rfl
theorem decideCommit (dom : Nat) (who : Party) : Statement (.decideCommit dom who) := of_none rfl
theorem decideAbort (dom : Nat) (who : Party) : Statement (.decideAbort dom who) := of_none rfl
theorem donePennant (dom : Nat) : Statement (.donePennant dom) := of_none rfl
theorem resume (core : Nat) : Statement (.resume core) := of_none rfl
theorem watchdogExpiry (dom : Nat) : Statement (.watchdogExpiry dom) := of_none rfl
theorem deltaArrive (core seq : Nat) : Statement (.deltaArrive core seq) := of_none rfl
theorem matrixJobStart (team : Nat) : Statement (.matrixJobStart team) := of_none rfl
theorem drainRow (team : Nat) : Statement (.drainRow team) := of_none rfl
theorem matrixJobComplete (team : Nat) : Statement (.matrixJobComplete team) := of_none rfl
theorem chainForward (cluster : Nat) : Statement (.chainForward cluster) := of_none rfl
theorem streamPublishRead (cluster sid : Nat) : Statement (.streamPublishRead cluster sid) := of_none rfl
theorem copyReusable (core id : Nat) : Statement (.copyReusable core id) := of_none rfl
theorem copyVisible (core id : Nat) : Statement (.copyVisible core id) := of_none rfl
theorem copyFault (core id : Nat) : Statement (.copyFault core id) := of_none rfl
theorem pfeRun (team : Nat) : Statement (.pfeRun team) := of_none rfl
theorem pfeLand (team : Nat) : Statement (.pfeLand team) := of_none rfl
theorem sweepComplete (core id : Nat) : Statement (.sweepComplete core id) := of_none rfl
theorem bgemvComplete (core id : Nat) : Statement (.bgemvComplete core id) := of_none rfl
theorem nbuFault (core id : Nat) : Statement (.nbuFault core id) := of_none rfl
theorem collStart (die slot : Nat) : Statement (.collStart die slot) := of_none rfl
theorem collComplete (die slot : Nat) : Statement (.collComplete die slot) := of_none rfl
theorem collTimeout (die slot : Nat) : Statement (.collTimeout die slot) := of_none rfl
theorem timingReplay (engine : Bool) (unit : Nat) : Statement (.timingReplay engine unit) := of_none rfl
theorem currentLimit (die : Nat) : Statement (.currentLimit die) := of_none rfl
theorem thermalTrip (hbm : Bool) (unit temp : Nat) : Statement (.thermalTrip hbm unit temp) := of_none rfl
theorem derate (engine : Bool) (unit : Nat) : Statement (.derate engine unit) := of_none rfl
theorem lwpost (vf : Nat) (v : BitVec 64) : Statement (.lwpost vf v) := of_none rfl
theorem lwcancel (vf : Nat) (v : BitVec 64) : Statement (.lwcancel vf v) := of_none rfl
theorem lwcqhead (vf : Nat) (v : BitVec 64) : Statement (.lwcqhead vf v) := of_none rfl
theorem registerWrite (vf off : Nat) (v : BitVec 64) : Statement (.registerWrite vf off v) := of_none rfl
theorem launchSelect (node : Nat) : Statement (.launchSelect node) := of_none rfl
theorem gatePass (node : Nat) : Statement (.gatePass node) := of_none rfl
theorem recomputeDrop (node : Nat) : Statement (.recomputeDrop node) := of_none rfl
theorem split (node : Nat) : Statement (.split node) := of_none rfl
theorem merge (node : Nat) : Statement (.merge node) := of_none rfl
theorem release (node : Nat) : Statement (.release node) := of_none rfl
theorem paddockConfigWrite (node off : Nat) (v : BitVec 64) : Statement (.paddockConfigWrite node off v) := of_none rfl
theorem vfBind (vf : Nat) (v : BitVec 64) : Statement (.vfBind vf v) := of_none rfl
theorem setpte : Statement (.setpte) := of_none rfl
theorem fetch : Statement (.fetch) := of_none rfl
theorem evict : Statement (.evict) := of_none rfl
theorem hwrite : Statement (.hwrite) := of_none rfl
theorem hread : Statement (.hread) := of_none rfl
theorem shres : Statement (.shres) := of_none rfl
theorem saveSignal (core : Nat) : Statement (.saveSignal core) := of_none rfl
theorem copySaveDone (dom : Nat) : Statement (.copySaveDone dom) := of_none rfl
theorem restoreDone (dom : Nat) : Statement (.restoreDone dom) := of_none rfl
theorem exportTenant : Statement (.exportTenant) := of_none rfl
theorem importTenant (fabricOk : Bool) : Statement (.importTenant fabricOk) := of_none rfl
theorem importConfirm (vf : Nat) : Statement (.importConfirm vf) := of_none rfl
theorem abandon : Statement (.abandon) := of_none rfl
theorem warmReset (cause : Nat) (failed : BitVec 64) : Statement (.warmReset cause failed) := of_none rfl
theorem warmResetOverrun : Statement (.warmResetOverrun) := of_none rfl
theorem wrcmdResume (v : BitVec 64) : Statement (.wrcmdResume v) := of_none rfl
theorem wdbudget (v : BitVec 64) : Statement (.wdbudget v) := of_none rfl
theorem start (found : StartInput) : Statement (.start found) := of_none rfl
theorem membershipLoad : Statement (.membershipLoad) := of_none rfl
theorem d2dFlitReceive (edge dir : Nat) (seq : BitVec 8) (crcOk : Bool) : Statement (.d2dFlitReceive edge dir seq crcOk) := of_none rfl
theorem d2dNak (edge dir : Nat) : Statement (.d2dNak edge dir) := of_none rfl
theorem moduleRetrain (edge module : Nat) : Statement (.moduleRetrain edge module) := of_none rfl
theorem edgeDown (edge : Nat) : Statement (.edgeDown edge) := of_none rfl
theorem llynnalFlitReceive (port : Nat) (header : BitVec 64) (payload : List (BitVec 64)) (crc : BitVec 64) : Statement (.llynnalFlitReceive port header payload crc) := of_none rfl
theorem portRetrain (port : Nat) : Statement (.portRetrain port) := of_none rfl
theorem heartbeatFlit (port errNs : Nat) : Statement (.heartbeatFlit port errNs) := of_none rfl
theorem deviceFailed (dom dev : Nat) : Statement (.deviceFailed dom dev) := of_none rfl
theorem pwcmd (v : BitVec 64) : Statement (.pwcmd v) := of_none rfl
theorem powerStateApply (node : Nat) : Statement (.powerStateApply node) := of_none rfl
theorem pwgate (v : BitVec 64) : Statement (.pwgate v) := of_none rfl
theorem pwhbm (v : BitVec 64) : Statement (.pwhbm v) := of_none rfl
theorem stage : Statement (.stage) := of_none rfl
theorem commitSvn : Statement (.commitSvn) := of_none rfl
theorem getVersion (fn : Nat) : Statement (.getVersion fn) := of_none rfl
theorem getCapabilities (fn : Nat) : Statement (.getCapabilities fn) := of_none rfl
theorem negotiateAlgorithms (fn : Nat) (mlDsa87 sha3 mlKem1024 aesGcm : Bool) : Statement (.negotiateAlgorithms fn mlDsa87 sha3 mlKem1024 aesGcm) := of_none rfl
theorem getCertificate (fn : Nat) : Statement (.getCertificate fn) := of_none rfl
theorem challenge (fn nonce : Nat) : Statement (.challenge fn nonce) := of_none rfl
theorem getMeasurements (fn index : Nat) : Statement (.getMeasurements fn index) := of_none rfl
theorem keyExchange (fn share : Nat) : Statement (.keyExchange fn share) := of_none rfl
theorem finish (fn mac : Nat) : Statement (.finish fn mac) := of_none rfl
theorem setkey (vf : Nat) (key : BitVec 512) : Statement (.setkey vf key) := of_none rfl
theorem tdispLockInterface (vf : Nat) : Statement (.tdispLockInterface vf) := of_none rfl
theorem tdispStartInterface (vf : Nat) : Statement (.tdispStartInterface vf) := of_none rfl
theorem stopInterface (vf : Nat) : Statement (.stopInterface vf) := of_none rfl
theorem decideProceed (core slot : Nat) : Statement (.decideProceed core slot) := of_none rfl
theorem globalAccessPerformed (core : Nat) : Statement (.globalAccessPerformed core) := of_none rfl
theorem moduleRetrainDone (edge module : Nat) (lanes0 lanes1 : List Nat) : Statement (.moduleRetrainDone edge module lanes0 lanes1) := of_none rfl
theorem portRetrainDone (port : Nat) (ok : Bool) : Statement (.portRetrainDone port ok) := of_none rfl
theorem currentFallsBack (die : Nat) : Statement (.currentFallsBack die) := of_none rfl
theorem debuggerAttach (core ctx : Nat) (attach : Bool) : Statement (.debuggerAttach core ctx attach) := of_none rfl
theorem debuggerResume (core ctx : Nat) : Statement (.debuggerResume core ctx) := of_none rfl
theorem recoverySelfTest (engine : Bool) (unit : Nat) : Statement (.recoverySelfTest engine unit) := of_none rfl
theorem rovasCommand : Statement (.rovasCommand) := of_none rfl
theorem elhead (v : BitVec 64) : Statement (.elhead v) := of_none rfl

end Sys2Proof.Laws.RoundTrip
end

