-- ==== Sys2Proof/Machine/Registers.lean ====
section
/-!
DEFINITION. What the host reads from the PF and VF BAR0 registers (00 R3, 20 R352, R353, R359, R360, and the register maps
of chapters 21 to 26). A read changes no state, so it is no step. See log 61.
-/

namespace Sys2Proof.Machine

open Sys2Proof

/-- A register from its fields, each a value, the bit it starts at and its width; every other bit reads zero (R3). -/
def fields (l : List (Nat × Nat × Nat)) : W64 := w64 ((l.map (fun x => (x.1 % 2 ^ x.2.2) * 2 ^ x.2.1)).sum)

/-- FWVER, FWADDR, FWLEN and FWSTAT (26 R422); FWCMD is write only. -/
def Platform.readFirmware (p : Platform) (off : Nat) (pf : Nat → W64) : W64 :=
  if off = 0 then fields [(p.running.svn.toNat, 0, 16), (p.svnFloor.toNat, 16, 16), (b2n p.active, 32, 1), (b2n p.altBoot, 33, 1)]
  else if off = 0x10 ∨ off = 0x18 then pf off
  else if off = 0x20 then fields [(b2n p.writing.isSome, 0, 1), (p.fwResult, 4, 4)]
  else 0

/-- STATE of PSTAT (20 R359). -/
def NodeState.code (k : NodeState) : Nat := match k with | .covered => 0 | .split => 1 | .idle => 2 | .active => 3 | .held => 4

/-- A node's registers (20 R359); PFREE is in whole units of 64 MiB, rounded down. -/
def State.readNode (s : State) (n off : Nat) : W64 :=
  let x := s.node n
  if off = 0x08 then fields [(x.state.code, 0, 3), (b2n x.scrub, 3, 1), (x.result, 4, 4), ((s.plat.vfs.filter (fun p => p.2.node == n)).length, 8, 8)]
  else if off = 0x10 then fields [(x.ppol.toNat, 0, 48)]
  else if off = 0x18 then x.pcfg
  else if off = 0x20 then x.pmem
  else if off = 0x28 then fields [(s.freeOf n / 1024, 0, 15)]
  else if off = 0x30 then fields [(x.ppool.toNat, 0, 16)]
  else 0

/-- A tenant's registers of the tier engine (21 R377). -/
def Vf.readTenant (t : Vf) (off : Nat) : W64 :=
  if off = 0 then fields [(t.setPages, 0, 32), (t.setResident, 32, 32)]
  else if off = 0x08 then fields [(t.keyid, 0, 8)]
  else if off = 0x10 then t.tback
  else if off = 0x18 then t.tblen
  else 0

/-- Tier-engine registers (21 R377): TEGO is write only, BUSY is 0 between commands, reserved bits of TECMD read zero. -/
def State.readTier (s : State) (off : Nat) : W64 :=
  if off < 0x104000 then (let n := (off - 0x100000) / 0x40; if n = 0 ∨ Config.vfs < n then 0 else (s.vf n).readTenant (off % 0x40))
  else if off = 0x108000 then s.pf off &&& 0x1FFFF0F#64
  else if off = 0x108008 ∨ off = 0x108010 ∨ off = 0x108018 ∨ off = 0x108028 ∨ off = 0x108030 then s.pf off
  else 0

/-- The watchdog of the node in WDSEL (22 R385): its running launch's count and budget, zero when none runs. -/
def State.readWatchdog (s : State) (off : Nat) : W64 :=
  match (s.node (bf (s.pf 0x200200) 0 7)).running with
  | none => 0
  | some d => fields [(if off = 0x200208 then (s.domain d).wdCount else (s.domain d).wdRaise.getD (s.domain d).wdBudget, 0, 40)]

/-- The start record (22 R389). -/
def Platform.readStart (p : Platform) (off : Nat) : W64 :=
  let k := (off - 0x201000) / 8
  let x := tget p.steps k {}
  if k = 0 then fields [(p.failCnt.toNat, 0, 8), (p.lastFail, 8, 8), (b2n p.safe, 16, 1), (p.starts.toNat, 32, 32)]
  else if 16 < k then 0
  else fields [(x.attempts.toNat, 0, 8), (x.outcome, 8, 2), (b2n x.alt, 10, 1), (b2n x.ext, 11, 1), (x.time.toNat, 16, 32)]

/-- Migration, warm-reset, watchdog and start-record registers (22 R385, R389); MGCMD and WRCMD are write only. -/
def State.readMigration (s : State) (off : Nat) : W64 :=
  let p := s.plat
  if off = 0x200008 ∨ (0x200020 ≤ off ∧ off < 0x200040) ∨ off = 0x200200 then s.pf off
  else if off = 0x200010 then fields [(p.migResult, 4, 4), (p.imported.toNat, 16, 32)]
  else if off = 0x200108 then fields [(p.wrCause, 0, 4), (b2n p.wrMixed, 4, 1), (p.wrResult, 8, 8), (p.wrTime.toNat, 16, 32), (p.wrCount.toNat, 48, 16)]
  else if off = 0x200110 then p.wrFail
  else if off = 0x200208 ∨ off = 0x200210 then s.readWatchdog off
  else if 0x201000 ≤ off then p.readStart off
  else 0

/-- A module carries flits, and its lanes (R390, R392). -/
def Ucie.lanes (u : Ucie) : Nat := if u.mstate = 1 then 64 else if u.mstate = 2 then 32 else 0
/-- STATE of DLSTAT (R394): an edge without an active module is down, or training while one of its modules retrains. -/
def Edge.status (e : Edge) : Nat :=
  let ms := (List.range 8).map e.module
  if e.down then 0
  else if ms.all (fun u => u.lanes == 0) then (if ms.any (fun u => u.mstate == 3) then 1 else 0)
  else if ms.all (fun u => u.lanes == 64) then 2
  else 3
/-- A mask over the modules. -/
def Edge.mask (e : Edge) (f : Ucie → Bool) : Nat := ((List.range 8).map (fun m => b2n (f (e.module m)) * 2 ^ m)).sum

/-- An edge's registers (23 R394); a module at 64 lanes carries 256 GB/s, and one at 32 lanes half of it (R390). -/
def Edge.read (e : Edge) (off : Nat) : W64 :=
  if off = 0 then
    let lanes := if e.down then 0 else ((List.range 8).map (fun m => (e.module m).lanes)).sum
    fields [(e.status, 0, 2), (if e.down then 0 else e.mask (fun u => u.lanes != 0), 2, 8), (e.mask (fun u => u.mstate == 2), 10, 8), (4 * lanes, 32, 12)]
  else if off = 0x08 then fields [(e.dir0.txNext.toNat, 0, 8), (e.dir0.acked.toNat, 8, 8), (e.dir0.rxNext.toNat, 16, 8),
    (e.dir1.txNext.toNat, 32, 8), (e.dir1.acked.toNat, 40, 8), (e.dir1.rxNext.toNat, 48, 8)]
  else if off = 0x10 then fields [(e.dir0.crc.toNat, 0, 16), (e.dir1.crc.toNat, 16, 16), (e.dir0.rpl.toNat, 32, 16), (e.dir1.rpl.toNat, 48, 16)]
  else if off = 0x18 then fields [(e.repairs.toNat, 0, 8), (e.lane, 8, 6), (e.lmodule, 14, 3), (e.ldir, 17, 1)]
  else if 0x40 ≤ off ∧ off < 0x80 then
    let u := e.module ((off - 0x40) / 8)
    fields [(u.mstate, 0, 2), (u.spare0, 2, 3), (u.spare1, 5, 3), (u.half, 8, 1)]
  else 0

/-- A port's registers (23 R404). -/
def Port.read (p : Port) (off : Nat) : W64 :=
  if off = 0 then fields [(p.state, 0, 2), (p.peer, 2, 12), (p.pport, 14, 5), (p.txNext.toNat, 19, 12), (p.rxNext.toNat, 31, 12)]
  else if off = 8 then fields [(p.crc.toNat, 0, 16), (p.rpl.toNat, 16, 16), (p.retrains.toNat, 32, 8)]
  else 0

/-- A die's collective-engine registers (23 R403). -/
def State.readColl (s : State) (k off : Nat) : W64 :=
  let d := s.die k
  let mask := fun (f : Coll → Bool) => ((List.range Config.collSlots).map (fun i => b2n (((tfind d.colls i).map f).getD false) * 2 ^ i)).sum
  if off = 0 then fields [(mask (fun _ => true), 0, 8), (mask s.collHeld, 8, 8), (d.ceDone.toNat, 16, 32), (d.ceRestart.toNat, 48, 8)]
  else if off = 8 then fields [(d.ceMismatch.toNat, 0, 16), (d.ceTmo.toNat, 16, 16)]
  else 0

/-- Link, membership, collective and fabric registers (23 R394, R397, R403, R404); MBGO is write only. -/
def State.readLink (s : State) (off : Nat) : W64 :=
  let p := s.plat
  if off < 0x300400 then (tget p.edges ((off - 0x300000) / 0x100) {}).read (off % 0x100)
  else if 0x301000 ≤ off ∧ off < 0x301800 then (tget p.ports ((off - 0x301000) / 0x40) {}).read (off % 0x40)
  else if off = 0x308000 ∨ off = 0x308008 ∨ off = 0x308010 then s.pf off
  else if off = 0x308020 then
    let m := (p.members.find? (fun m => m.job == bf (s.pf 0x308000) 0 32)).getD {}
    fields [(p.mbResult, 0, 4), (m.epoch, 4, 4), ((m.devices.filter (fun d => !m.absent.contains d)).length, 8, 13)]
  else if 0x309000 ≤ off ∧ off < 0x309100 then s.readColl ((off - 0x309000) / 0x40) (off % 0x40)
  else if off = 0x30A000 then fields [(p.pdisc.toNat, 0, 16), (p.fdisc.toNat, 16, 16), (b2n p.sync, 32, 1), (p.master.toNat, 33, 12)]
  else 0

/-- A unit's word of the speed table (25 R411). -/
def State.speedWord (s : State) (engine : Bool) (u : Nat) : Nat :=
  let x := s.speedOf engine u
  x.code.toNat + 64 * b2n (s.unitAbsent engine u) + 128 * b2n x.derated + 256 * x.binned.toNat
/-- The mean clock of the engines not absent, MHz, rounded down (25 R412). -/
def State.meanOf (s : State) (code : Speed → BitVec 6) : Nat :=
  let l := ((List.range Config.teams).filter (fun u => !s.unitAbsent true u)).map (s.speedOf true)
  (l.map (fun x => 940 + 5 * (code x).toNat)).sum / l.length

/-- The speed table, read four entries at a time, and the speed-control registers (25 R411, R412). -/
def State.readSpeed (s : State) (off : Nat) : W64 :=
  let four := fun (engine : Bool) (u : Nat) => fields ((List.range 4).map (fun i => (s.speedWord engine (u + i), 16 * i, 16)))
  if off < 0x404000 then four false ((off - 0x400000) / 2)
  else if off < 0x404800 then four true ((off - 0x404000) / 2)
  else if off = 0x408000 then fields [(s.meanOf (fun x => x.code), 0, 11), (s.meanOf (fun x => x.binned), 11, 11)]
  else if off = 0x408008 then s.pf off
  else if off = 0x408010 then
    fields [((s.pf off).toNat, 0, 32), (((s.plat.coreSpeed ++ s.plat.teamSpeed).filter (fun p => p.2.pending)).length, 32, 16)]
  else 0

/-- Log, power and temperature registers (25 R416, R419); PWCMD is write only. -/
def State.readPower (s : State) (off : Nat) : W64 :=
  let n := s.node s.pwNode
  if off < 0x410000 then s.readSpeed off
  else if off = 0x410000 ∨ off = 0x410008 ∨ off = 0x410010 ∨ off = 0x410018 ∨ off = 0x410020 ∨ off = 0x420000 ∨ off = 0x420020 then s.pf off
  else if off = 0x420010 then fields [(n.power, 0, 3), (n.powerResult, 4, 3), (b2n n.egate, 7, 1)]
  else if off = 0x420018 then fields [(b2n n.egate, 0, 1)]
  else if 0x420028 ≤ off ∧ off < 0x420048 then
    let d := s.die ((off - 0x420028) / 8)
    fields [(d.clTicks.toNat, 0, 32), (b2n d.clHit, 32, 1)]
  else if 0x420048 ≤ off ∧ off < 0x420068 then
    let d := s.die ((off - 0x420048) / 8)
    fields [(d.temp.toNat, 0, 8), (d.tempMax.toNat, 8, 8)]
  else 0

/-- A read of the 8 bytes at an aligned offset of the PF BAR0: an unlisted offset reads zero (20 R352); in a safe start only
the identity and mailbox region answers (22 R388). -/
def State.readPf (s : State) (off : Nat) : W64 :=
  if off % 8 ≠ 0 then 0
  else if off < 0x010000 then s.plat.readFirmware off s.pf
  else if s.plat.safe then 0
  else if 0x010100 ≤ off ∧ off < 0x018000 then s.readNode ((off - 0x010000) / 0x100) (off % 0x100)
  else if 0x020008 ≤ off ∧ off < 0x020608 then (let t := s.vf ((off - 0x020000) / 8); fields [(t.node, 0, 7), (t.bindResult, 8, 3)])
  else if 0x100000 ≤ off ∧ off < 0x200000 then s.readTier off
  else if 0x200000 ≤ off ∧ off < 0x300000 then s.readMigration off
  else if 0x300000 ≤ off ∧ off < 0x400000 then s.readLink off
  else if 0x400000 ≤ off ∧ off < 0x500000 then s.readPower off
  else 0

/-- The LID of a tenant's running launch (20 R353), until the end of COPYING when it yields (22 R378); 0xFFFF with none. -/
def Vf.runLid (t : Vf) : Nat :=
  ((t.records.find? (fun r => r.state == .running || r.state == .saving || r.state == .copying)).map (fun r => r.lid)).getD 0xFFFF

/-- A read of the 8 bytes at an aligned offset of a VF BAR0 (20 R353): LWPOST and LWCANCEL are write only, and a function that
is not bound, or any during a warm reset (22 R383), reads zero. -/
def State.readVf (s : State) (v off : Nat) : W64 :=
  let t := s.vf v
  if t.node = 0 ∨ s.plat.warm ∨ s.plat.safe ∨ off % 8 ≠ 0 then 0
  else if off < 0x8000 then w64 (gather (fun a => tget t.slots a 0) off 8)
  else if off = 0x100008 then fields [(t.posted.toNat, 0, 32), (t.result, 32, 4)]
  else if off = 0x100010 then t.cqBase
  else if off = 0x100018 then t.cqCfg
  else if off = 0x100020 then fields [(t.cqHead.toNat, 0, 16)]
  else if off = 0x100028 then fields [(t.cqTail.toNat, 0, 16)]
  else if off = 0x100038 then fields [(t.node, 0, 7), (v, 8, 8), (t.runLid, 16, 16), (t.stored.length, 32, 16)]
  else 0

/-- A host's read of a function's BAR0 register (R3); function 0 is the PF. -/
def State.registerRead (s : State) (fn off : Nat) : W64 := if fn = 0 then s.readPf off else if Config.vfs < fn then 0 else s.readVf fn off

end Sys2Proof.Machine
end

