-- ==== Sys2Proof/Safety.lean ====
section
/-!
DEFINITION. The terms in which statements about the machine are made: what a run that does not stop is, what holds of
every state between steps, and when an instruction word issues with nothing in its way.
-/

namespace Sys2Proof.Machine

open Sys2Proof

/-- HBM is a canonical list: addresses strictly rising, and no entry equal to what an unlisted address reads as. -/
abbrev Memory.wf (m : List Host.Cell) : Prop := tsorted m = true ∧ m.all (fun p => p.2 != 0) = true

/-- Between steps no instruction is half executed. -/
abbrev State.atRest (s : State) : Prop := s.issue = {}

/-- n steps run without a fault and without an event that cannot occur. -/
def State.runs (n : Nat) (s : State) : Prop :=
  match n with
  | 0 => True
  | k + 1 => match step s with
    | .next t => t.runs k
    | _ => False

/-! ### An instruction word that issues -/

/-- A part of a meaning, begun in s, answers x and goes on in t: it neither waits nor traps. -/
def Gives (m : M α) (s : State) (x : α) (t : State) : Prop := m.run s = .ok (x, t)
/-- The same of a part that answers nothing. -/
abbrev Does (m : M Unit) (s t : State) : Prop := Gives m s () t

/-- The word of i issues for the first time, with its hint group (R168-R170), and the encoding, the extended immediate and
the HMOD are legal for it (R169, R173, R428): causes 1 and 3 are not raised before its own conditions. -/
def State.clear (s : State) (i : Instr) : Prop :=
  s.issue.ign = [] ∧ s.issue.low = none ∧ s.issue.bad = none ∧ badAtDecode s.issue.himm i = false ∧
    s.issue.hmod.length ≤ 1 ∧ s.issue.hmod.all (modLegal (modClass i)) = true

/-- Nothing that has been read carries a poison mark (R242), and no register-store parity error is due (R225, 25 R413). -/
def State.readsOk (t : State) : Prop :=
  t.issue.bad = none ∧ (t.issue.low = none ∨ (t.ctx t.issue.core t.issue.ctx).parityDue = false)

/-- The issuing context. -/
def State.cur (s : State) : Ctx := s.ctx s.issue.core s.issue.ctx
/-- The issuing context changed. -/
def State.onCur (s : State) (f : Ctx → Ctx) : State := s.modCtx s.issue.core s.issue.ctx f
/-- The issuing core changed. -/
def State.onCore (s : State) (f : Core → Core) : State := s.modCore s.issue.core f
/-- An x register or nothing written, by operand code (R16, R158). -/
def State.putX (s : State) (d : BitVec 6) (v : W64) : State := if d.toNat < 32 then s.onCur (fun c => c.setX d.toNat v) else s
/-- Flags added to FCSR (R131). -/
def State.addFlags (s : State) (fl : Nat) : State := s.onCur (fun c => { c with fcsr := c.fcsr ||| w64 (fl % 128) })

/-- A poison mark that an operand carried is noted. -/
def State.noted (s : State) (m : Option Mark) : State :=
  match m with
  | none => s
  | some m => { s with issue := { s.issue with bad := some (s.issue.bad.getD (2048, m)) } }

/-- Every earlier access of the issuing context is performed: its global requests, its local stores, those of its store walkers
among them, and the walker, channel and mailbox accesses of delivered EH instructions (R111-R113). -/
def State.settledNow (s : State) : Prop :=
  s.mine = false ∧ s.owed s.issue.core s.issue.ctx = false ∧ s.cur.unwritten.isEmpty = true ∧
    s.cur.eh.any (fun sl => decide (sl.iss.seq < s.issue.seq) && ehAccess sl.instr) = false

/-- What the release fences of the issuing context hold its later stores for has been performed (R112); with inCore, for a store that
a party of the core sees (R107). -/
def State.pointPassed (s : State) (inCore : Bool) : Prop :=
  s.afterDone s.issue.core s.issue.ctx (if inCore then s.cur.point.inCore else s.cur.point) = true
/-- What a release of the issuing context at a scope waits for has been performed (R111). -/
def State.released (s : State) (scope : Nat) : Prop :=
  s.afterDone s.issue.core s.issue.ctx (s.cur.point.release scope (s.core s.issue.core).accesses s.issue.seq).inCore = true
/-- A FENCE.SC of the issuing context opens after its instruction (R113). -/
def State.fencing (s : State) (scope : Nat) : State :=
  (s.onCur (fun c => { c with sc := some { seq := s.issue.seq, scope := scope } })).pend [.scFence s.issue.core s.issue.ctx]
/-- What an access of a kind and a scope leaves open after it (R111). -/
def State.fencedAfter (s : State) (kind scope : Nat) : State := if kind = 4 then s.fencing scope else s
/-- The FENCE.SC before an SC access of the issuing instruction has been passed (R111). -/
def State.fencePassed (s : State) : Prop := s.kind = 4 → s.cur.scPass = some s.issue.seq
/-- A local store of the issuing context that waits to be performed (R108): its place, size, value, delta and what it waits for. -/
def State.holding (s t : State) (l : Loc) (n v q : Nat) (w : After → Nat → After) : Held :=
  { id := (t.core s.issue.core).accesses, loc := l, size := n, data := BitVec.ofNat 128 v, seq := q,
    after := (w s.cur.point (t.core s.issue.core).accesses).inCore }

/-- Nothing makes an access of n bytes at a place wait: no absent window (R74), no local store that is not performed (R108, R191), no
range-scoreboard entry (R93), no earlier walker access of a delivered EH instruction (R108). -/
def State.freeAt (s : State) (l : Loc) (n : Nat) : Prop :=
  (∀ k w, l ≠ .absent k w) ∧ s.heldOver s.issue.core s.issue.ctx l n = false ∧ (s.core s.issue.core).busy l n = false ∧
    s.walkerAhead l n true = false

/-- A read of n bytes at a place meets no error of the memory that cannot be corrected and no poison mark (25 R413, R242). -/
def State.soundAt (s : State) (l : Loc) (addr n : Nat) : Prop :=
  s.meetsError s.issue.core l n = false ∧ s.localMark s.issue.core l addr n = none

/-- An access to an unconfigured window is counted (R74, R76); another leaves the machine as it is. -/
def State.touched (s : State) (l : Loc) : State := if l = .unconf then s.onCore (fun c => c.diag 0 1) else s

/-- Nothing that has been read is held against the word. -/
def State.unread (t : State) : Prop := t.issue.bad = none ∧ t.issue.low = none

/-- A walker of the issuing context changed. -/
def State.onWalker (s : State) (w : Nat) (f : Walker → Walker) : State := s.onCur (fun c => { c with walkers := tmod c.walkers w {} f })

/-- A delta of the issuing core under its next sequence number (R89). -/
def State.sends (s : State) (bytes : Nat) (kind : DeltaKind) (target : Target) : State :=
  (s.takeSeq s.issue.core).2.emit s.issue.core (s.takeSeq s.issue.core).1 bytes kind target

/-- The word runs to its end: the machine goes on in t, with nothing half executed. -/
abbrev Completes (i : Instr) (s t : State) : Prop := exec i s = .next t.quiet

/-- The word cannot complete yet: it stands in its buffer again, and the steps that it needs are caused. -/
abbrev Waits (i : Instr) (s : State) (l : List Chore) : Prop :=
  exec i s = .next ((s.onCur (fun c => c.pushBack (s.slot i))).quiet.pend l)

/-- A job put on the queue of engine t under the issuing core's next identifier, which names its record (R267, R272). -/
def State.submitted (s : State) (t : Nat) (j : Job) : State :=
  ((s.onCore (fun c => { c with
      jobNext := (c.jobNext + 1) % 2 ^ 16
      recs := tput c.recs c.jobNext { team := t, key := (s.team t).jobKey } })).modTeam t (fun x =>
    { x with queue := x.queue ++ [{ j with id := (s.core s.issue.core).jobNext, key := x.jobKey }], jobKey := x.jobKey + 1 })).pend [.matrixJobStart t]

/-- TECMD holds this command, with its reserved bits zero and a tenant's number, and no reset is under way (R373, R377). -/
def State.commandIs (s : State) (op : Nat) : Prop :=
  s.teOp = op ∧ s.plat.warm = false ∧ s.teReserved = false ∧ (op ≠ 6 → s.teVf ≠ 0 ∧ s.teVf ≤ Config.vfs)

/-- The state in which a trap of the issuing instruction i has gone to the handler (R228). -/
def State.trapsTo (s : State) (i : Instr) (half : Half) (cause : Nat) (tval : W64) : State :=
  s.onCur (fun c => (c.report half s.issue.first cause tval).enterHandler (some (s.slot i)))

/-! ### What an instruction leaves as it is -/

/-- A byte of core c's own TCM that a store of n bytes at a place writes. -/
def Loc.coversTcm (l : Loc) (n a : Nat) : Prop := ∃ off, l = .tcm off ∧ off ≤ a ∧ a < off + n
/-- A byte of core c's scratchpad that a store of n bytes at a place writes at once: a scratch window, or one the core owns; a
stage window and another core's window are not written by the store itself (R82, R85). -/
def Loc.coversPad (l : Loc) (c n a : Nat) : Prop :=
  ∃ off cls owner win woff, l = .pad off cls owner win woff ∧ (cls = 0 ∨ cls ≠ 2 ∧ owner = inCluster c) ∧ ∃ j, j < n ∧ a = (off + j) % Config.padBytes

/-- No byte of memory has changed: HBM, host memory, every TCM and every scratchpad, and their kept lines. -/
def State.sameMemory (s t : State) : Prop :=
  t.hbm = s.hbm ∧ t.plat = s.plat ∧ t.clusters = s.clusters ∧ t.dies = s.dies ∧
    ∀ c, (t.core c).tcm = (s.core c).tcm ∧ (t.core c).scratch = (s.core c).scratch ∧ (t.core c).undo = (s.core c).undo ∧
      (t.core c).tcmcfg = (s.core c).tcmcfg ∧ (t.core c).flight = (s.core c).flight ∧ (t.core c).gstores = (s.core c).gstores

/-- Nothing outside the issuing context has changed, and no byte of memory. -/
def State.onlyCur (s t : State) : Prop :=
  s.sameMemory t ∧ t.teams = s.teams ∧ t.domains = s.domains ∧ t.sched = s.sched ∧
    (∀ c k, c ≠ s.issue.core ∨ k ≠ s.issue.ctx → t.ctx c k = s.ctx c k) ∧
    ∀ c, { t.core c with ctxs := [] } = { s.core c with ctxs := [] }

/-- Register-only operands of the access half. -/
def ahPlain (c : BitVec 6) : Bool := xOrZero c
/-- Register-only operands of the execute half. -/
def ehPlain (c : BitVec 6) : Bool := gOrZero c

/-! ### Shapes of instruction words

Each says of one instruction: on every state and operand whose operand codes are legal, whose operands can be read and
whose result can be written, the word answers the state in which its result is written. -/

/-- An access-half word that pops A and B and pushes a result to D. -/
def AccessPair (i : Instr) (d a b : BitVec 6) (result : State → W128 → W128 → W64) : Prop :=
  ∀ (s s1 s2 t : State) (x y : W128), s.clear i → aBad d [a, b] = false → Gives (ahPop a) s x s1 → Gives (ahPop b) s1 y s2 →
    Does (ahPush d (result s x y)) s2 t → t.readsOk → Completes i s t

/-- An access-half word that pops A and pushes a result to D. -/
def AccessOne (i : Instr) (d a : BitVec 6) (result : State → W128 → W64) : Prop :=
  ∀ (s s1 t : State) (x : W128), s.clear i → aBad d [a] = false → Gives (ahPop a) s x s1 →
    Does (ahPush d (result s x)) s1 t → t.readsOk → Completes i s t

/-- An access-half branch that pops A and B. -/
def AccessBranch (i : Instr) (a b : BitVec 6) (o : BitVec 12) (taken : W64 → W64 → Bool) : Prop :=
  ∀ (s s1 s2 : State) (x y : W128), s.clear i → ahSrc a = true → ahSrc b = true → Gives (ahPop a) s x s1 →
    Gives (ahPop b) s1 y s2 → s2.readsOk →
    exec i s = .next (s2.onCur (fun c =>
      if taken (x.setWidth 64) (y.setWidth 64) then { c with pc := s.issue.addr + wi (4 * s.imm o), edge := none }
      else c.follow s.issue.addr c.eh.isEmpty)).quiet

/-- An execute-half word that reads two operands, in this order, and writes a result. -/
def ExecuteWord (i : Instr) (legal : State → Bool) (readA : M α) (readB : M β) (write : State → α → β → M Unit) : Prop :=
  ∀ (s s1 s2 t : State) (x : α) (y : β), s.clear i → legal s = true → Gives readA s x s1 → Gives readB s1 y s2 →
    Does (write s x y) s2 t → t.readsOk → Completes i s t

/-- The same of a word that also adds flags to FCSR. -/
def ExecuteFlagged (i : Instr) (legal : State → Bool) (readA : M α) (readB : M β) (write : State → α → β → M Unit)
    (flags : State → α → β → Nat) : Prop :=
  ∀ (s s1 s2 t : State) (x : α) (y : β), s.clear i → legal s = true → Gives readA s x s1 → Gives readB s1 y s2 →
    Does (write s x y) s2 t → t.readsOk → Completes i s (t.addFlags (flags s x y))

/-- A two-source scalar word of the floating point family: its lane gives a code and flags (R131). -/
def FloatPair (i : Instr) (d a b : BitVec 6) (lane : State → Nat → Nat → Lane) : Prop :=
  ExecuteFlagged i (fun s => !s.gBad d [a, b]) (gPop a) (gPop b) (fun s x y => gPush d (w64 (lane s x.toNat y.toNat).1))
    (fun s x y => (lane s x.toNat y.toNat).2)

/-- A one-source scalar word of the floating point family. -/
def FloatOne (i : Instr) (d a : BitVec 6) (lane : State → Nat → Lane) : Prop :=
  ExecuteFlagged i (fun s => !s.gBad d [a]) (gPop a) (pure ()) (fun s x _ => gPush d (w64 (lane s x.toNat).1))
    (fun s x _ => (lane s x.toNat).2)

/-- A masked two-source vector word (R240): lanes of w bits, each the lane function of its number and its operands' lanes;
inactive lanes keep the destination or become zero. -/
def VectorMasked (i : Instr) (d a b : BitVec 6) (m : BitVec 3) (k : BitVec 1) (w : Nat) (lane : State → Nat → Nat → Nat → Lane) : Prop :=
  ∀ (s s1 s2 s3 s4 t : State) (act : List Bool) (old : Nat) (x y : W128),
    let r := (List.range (128 / w)).map (fun j => lane s j (laneOf w x.toNat j) (laneOf w y.toNat j))
    s.clear i → s.vBad d [a, b] = false → Gives (activeLanes m k w) s act s1 → Gives (oldLanes d m k) s1 old s2 →
    Gives (vPop a) s2 x s3 → Gives (vPop b) s3 y s4 →
    Does (vPush d (BitVec.ofNat 128 (mergeLanes w act (r.map (fun l => l.1)) old))) s4 t → t.readsOk →
    Completes i s (t.addFlags (mergeFlags act (r.map (fun l => l.2))))

/-- An unmasked two-source vector word on lanes of w bits. -/
def VectorLanes (i : Instr) (d a b : BitVec 6) (w : Nat) (lane : State → Nat → Nat → Nat → Lane) : Prop :=
  ExecuteFlagged i (fun s => !s.vBad d [a, b]) (vPop a) (vPop b)
    (fun s x y => vPush d (BitVec.ofNat 128 (packLanes w (((List.range (128 / w)).map (fun j =>
      lane s j (laneOf w x.toNat j) (laneOf w y.toNat j))).map (fun l => l.1)))))
    (fun s x y => ((List.range (128 / w)).map (fun j => lane s j (laneOf w x.toNat j) (laneOf w y.toNat j))).foldl (fun f l => f ||| l.2) 0)

/-- An unmasked one-source vector word: a result and flags. -/
def VectorOne (i : Instr) (d a : BitVec 6) (f : State → Nat → Nat × Nat) : Prop :=
  ExecuteFlagged i (fun s => !s.vBad d [a]) (vPop a) (pure ()) (fun s x _ => vPush d (BitVec.ofNat 128 (f s x.toNat).1))
    (fun s x _ => (f s x.toNat).2)

/-- A two-source word of whole vectors without flags. -/
def VectorBoth (i : Instr) (d a b : BitVec 6) (f : Nat → Nat → Nat) : Prop :=
  ExecuteWord i (fun s => !s.vBad d [a, b]) (vPop a) (vPop b) (fun _ x y => vPush d (BitVec.ofNat 128 (f x.toNat y.toNat)))

/-- A part form (R248): with the old destination where the result fills a part of it only. -/
def VectorPart (i : Instr) (d a : BitVec 6) (extra : Option (BitVec 6)) (sw dw p : Nat) (f : State → W128 → Nat → Nat → Lane) : Prop :=
  ∀ (s s1 s2 s3 t : State) (old : Nat) (x y : W128), s.clear i → s.vBad d (a :: extra.toList) = false →
    Gives (if dw < sw ∧ d.toNat < 48 then rsRead (vAddr s.issue.view d.toNat) 16 else pure 0) s old s1 → Gives (vPop a) s1 x s2 →
    Gives (match extra with | some b => vPop b | none => pure 0) s2 y s3 →
    Does (vPush d (BitVec.ofNat 128 (partMap sw dw p (f s y) x.toNat old).1)) s3 t → t.readsOk →
    Completes i s (t.addFlags (partMap sw dw p (f s y) x.toNat old).2)

/-- A loop instruction with a body of len words: a level opens whose body starts at the next word, inside the open level's body if
there is one; a count of 0 goes on behind the body (R217). -/
def LoopWord (i : Instr) (legal : State → Bool) (len : State → Nat) (walk : Bool) (walker flag : Nat) (count : State → W64) : Prop :=
  ∀ s : State, let n := len s; let start := s.issue.addr + 4; let last := start + w64 (4 * (n - 1)); let l := s.cur.loops
    s.clear i → legal s = true → n ≤ 256 → l.depth < 3 →
    (l.depth ≠ 0 → (l.addr (l.depth - 1)).toNat ≤ start.toNat ∧ last.toNat ≤ (l.addr (l.depth - 1)).toNat + 4 * l.len (l.depth - 1)) →
    Gives (hintAt last) s false s →
    (walk = false → count s = 0 → Completes i s (s.onCur (fun c => { c with pc := last + 4, edge := none }))) ∧
    (walk = true ∨ count s ≠ 0 → let f := fun (c : Ctx) => { c with loops := c.loops.openAt start n walk walker flag (count s) }
      Completes i s (s.onCur (fun c => (f c).follow s.issue.addr c.eh.isEmpty)))

/-- The writing forms of a CSR (R222): the value written, of the old one and the operand, and whether bits of a W1C CSR that are
written as 1 are lost (R223). -/
def csrForms : List ((BitVec 6 → BitVec 12 → Instr) × (W64 → W64 → W64) × Bool) :=
  [(.csrw, fun _ v => v, true), (.csrs, fun o v => o ||| v, true), (.csrc, fun o v => o &&& ~~~v, false)]

/-- The CSRs of a context that a write gives a value, by the maps of their chapters: RW or, in part, RO (R224). -/
def csrWritable : List Nat := [1, 2, 4, 5, 6, 7, 0xC, 0xD, 0xE, 0x20, 0x24, 0x25, 0x30, 0x46, 0x60, 0x61, 0xC8] ++ (List.range 16).map (fun i => 0x50 + i)

/-- The CSR as an instruction that the context is delivered next reads it (R223). -/
def State.csrNow (s : State) (n : Nat) : W64 := s.csr s.cur.view s.cur.loops n

/-- The AH integer instructions of R180 that take two sources, with the operation of each. -/
def accessAlu : List ((BitVec 6 → BitVec 6 → BitVec 6 → BitVec 2 → Instr) × IntOp) :=
  [(.aadd, .add), (.asub, .sub), (.aand, .and), (.aorr, .or), (.axor, .xor), (.ashl, .shl), (.ashr, .shr), (.asar, .sar),
   (.amul, .mul), (.amin, .min), (.amax, .max), (.aminu, .minu), (.amaxu, .maxu), (.aslt, .slt), (.asltu, .sltu)]

/-- The AH instructions with an immediate (R181). -/
def accessImm : List ((BitVec 6 → BitVec 6 → BitVec 12 → Instr) × IntOp) :=
  [(.aaddi, .add), (.aandi, .and), (.ashli, .shl), (.ashri, .shr), (.asari, .sar)]

/-- The AH branches on two sources (R183). -/
def accessBranches : List ((BitVec 6 → BitVec 6 → BitVec 12 → Instr) × (W64 → W64 → Bool)) :=
  [(.abeq, fun x y => x == y), (.abne, fun x y => x != y), (.ablt, fun x y => x.slt y), (.abge, fun x y => !x.slt y),
   (.abltu, fun x y => x.ult y), (.abgeu, fun x y => !x.ult y)]

/-- The EH integer instructions of R206 that take two sources, with the operation of each. -/
def executeAlu : List ((BitVec 6 → BitVec 6 → BitVec 6 → BitVec 2 → Instr) × IntOp) :=
  [(.add, .add), (.sub, .sub), (.mul, .mul), (.mulh, .mulh), (.mulhu, .mulhu), (.and, .and), (.or, .or), (.xor, .xor),
   (.shl, .shl), (.shr, .shr), (.sar, .sar), (.min, .min), (.max, .max), (.minu, .minu), (.maxu, .maxu), (.slt, .slt),
   (.sltu, .sltu), (.seq, .seq)]

/-- The divisions of R206: whether signed, and whether the remainder is written. -/
def executeDivisions : List ((BitVec 6 → BitVec 6 → BitVec 6 → BitVec 2 → Instr) × Bool × Bool) :=
  [(.div, true, false), (.divu, false, false), (.rem, true, true), (.remu, false, true)]

/-- The EH instructions with an immediate (R207). -/
def executeImm : List ((BitVec 6 → BitVec 6 → BitVec 12 → Instr) × IntOp) :=
  [(.addi, .add), (.andi, .and), (.ori, .or), (.xori, .xor), (.shli, .shl), (.shri, .shr), (.sari, .sar)]

/-- The integer lane instructions of R243. -/
def vectorAlu : List ((BitVec 6 → BitVec 6 → BitVec 6 → BitVec 3 → BitVec 1 → BitVec 2 → Instr) × IntOp) :=
  [(.vadd, .add), (.vsub, .sub), (.vmul, .mul), (.vmulh, .mulh), (.vmin, .min), (.vmax, .max), (.vminu, .minu), (.vmaxu, .maxu),
   (.vand, .and), (.vor, .or), (.vxor, .xor), (.vshl, .shl), (.vshr, .shr), (.vsar, .sar), (.vsadd, .sadd), (.vsaddu, .saddu)]

end Sys2Proof.Machine
end

