-- ==== Sys2Proof/Certificates/Slice0/Obligations.lean ====
section
/-!
DEFINITION. The statements about the machine, for the provers.
-/

open Sys2Proof Sys2Proof.Machine

/-- Encoding and decoding agree: every well-formed instruction that has a word decodes from it (R166, R165, R172). -/
def Obligations.EncodedWordDecodesToItsInstruction : Prop := ∀ i : Instr, Sys2Proof.Laws.RoundTrip.Statement i

/-- R165, R171-R173: no bit of a word is dropped: a word that decodes is the word of its instruction. -/
def Obligations.DecodedWordEncodesBack : Prop := ∀ (w : BitVec 32) (i : Instr), decode w = .ok i → encode i = some w

/-- Words that the manual's own examples write out (R169, R213, R231, R263 and the examples of the engines), and reserved ones. -/
def Obligations.WordsOfTheSpecDecode : Prop :=
  decode 0xE4000005#32 = .ok (.trap 5) ∧ decode 0x11140345#32 = .ok (.aaddi 5 0 0x345) ∧ decode 0xF8000012#32 = .ok (.himm 0x12) ∧
  decode 0xB714200B#32 = .ok (.rsld 5 2 1 3) ∧ decode 0x1E040005#32 = .ok (.abq 1 5) ∧ decode 0x7E004000#32 = .ok (.epb 4 0) ∧
  decode 0xE0101000#32 = .ok (.csrr 4 0x40) ∧ decode 0xD200416A#32 = .ok (.csig 4 5 5 2) ∧ decode 0x23140006#32 = .ok (.tnext 5 6) ∧
  decode 0xD4000002#32 = .ok (.vote 0 0 2) ∧ decode 0xD4004006#32 = .ok (.vote 4 1 2) ∧ decode 0x7A146140#32 = .ok (.fcvt 5 6 0 5 0 0) ∧
  decode 0xC4248000#32 = .ok (.mwait 9 8) ∧
  decode 0x00000000#32 = .error .reservedOpcode ∧ decode 0xFF000000#32 = .error .reservedOpcode ∧ decode 0x01000004#32 = .error .reservedBits

/-! ### A step and the state after reset -/

/-- R162, R168, R186: a context whose buffers are empty, with no FENCE.SC open (R113), no row just ended (R287) and its node's clocks not gated (R418), fetches the word at its pc, from its tenant's code pages, and issues the
instruction that it decodes to, with its hint group and with the fetch point moved on behind it (R218, unless the word is a transfer
that moves it itself); a hint issues without joining the order; a word that is none is an illegal instruction; a buffered instruction
issues from its half; and a step of the device runs as such. -/
def Obligations.StepRunsTheDecodedInstruction : Prop :=
  ∀ (s : State) r, let b := s.beat; let u := { b with sched := { b.sched with turns := r } }
    (∀ c k, b.sched.turns = .context c k :: r → c < Config.cores → k < 5 → (u.core c).turns k = true → u.gated (clusterOf c) = false →
      let x := u.ctx c k; let u1 := u.modCtx c k (fun y => { y with skip := (y.skip + 1) % 6 })
      (x.ah = [] → x.eh = [] → x.edge = none → x.sc = none → x.rowEnded = false → ∀ w t, u1.fetch c x.pc = .word w t →
        (∀ i, decode w = .ok i → isHint i = false →
          step s = exec i { (t.delivered c k x.pc i).2 with issue := (t.delivered c k x.pc i).1.iss }) ∧
        (∀ i, decode w = .ok i → isHint i = true → step s = exec i
          { (t.modCtx c k (fun y => { y.follow x.pc y.eh.isEmpty with hfirst := some (y.hfirst.getD x.pc) })) with
            issue := { core := c, ctx := k, addr := x.pc } }) ∧
        ∀ e, decode w = .error e → let i := Instr.illegalInstruction w
          step s = exec i { (t.delivered c k x.pc i).2 with issue := (t.delivered c k x.pc i).1.iss }) ∧
      (∀ sl rest, x.ah = sl :: rest → x.eh = [] → x.mayDeliver = false → x.scLets sl = true →
        step s = exec sl.instr { (u1.modCtx c k (fun y => { y with ah := rest })) with issue := sl.iss }) ∧
      ∀ sl rest, x.eh = sl :: rest → x.ah = [] → x.mayDeliver = false → x.scLets sl = true →
        step s = exec sl.instr { (u1.modCtx c k (fun y => { y with eh := rest })) with issue := sl.iss }) ∧
    (∀ i, b.sched.turns = .event i :: r → isStep i = true → i.wf = true → step s = exec i u) ∧
    ∀ c pc phys cls e, let v := u.tenantOf c; u.xlate v pc .fetch = .ok phys cls e →
      let t := (u.lookup c v pc false).scrubLine phys
      t.poisonAt phys = false → u.fetch c pc = .word (BitVec.ofNat 32 (t.hread phys 4)) t

/-- R162: a step ends with no instruction half executed, whatever it did. -/
def Obligations.EveryStepLeavesNoInstructionInProgress : Prop := ∀ s t : State, step s = .next t → t.atRest

/-- The memory of HBM is canonical data, and every step of the machine, whichever unit takes it, keeps it so: equal memories are
equal lists. The list form is the model's own (log entry 2). -/
def Obligations.EveryStepKeepsMemoryCanonical : Prop := ∀ s t : State, Memory.wf s.hbm → step s = .next t → Memory.wf t.hbm

/-- R19, R62, R358, R384, R387, R411 and the maps of R26, R54, R76, R131, R145, R220, R225, R229, R296: what reset leaves, as far as the
manual says it, and what each CSR reads then: CPOL the thread column of R55, RETRYMAX 3, BSTAT.CAUSE 0xF, MSHARE 8, COLLBW 0x448, VIEW
its two bases, the other mapped ones 0. Every register it gives no value for is the model's choice (log entry 1) and is not stated here. -/
def Obligations.ResetLeavesTheStatedValues : Prop :=
  (∀ c k, let x := State.reset.ctx c k
    x.active = false ∧ bf x.view 0 7 = 0x18 ∧ bf x.view 8 7 = 0x60 ∧ bf x.view 16 1 = 0 ∧ bf x.view 20 4 = 0 ∧ x.mshare = 8 ∧ x.collbw = 0x448 ∧
      x.shadow = none ∧ x.ah = [] ∧ x.eh = []) ∧
  (∀ c k, let x := State.reset.ctx c k; let csr := { State.reset with issue := { core := c, ctx := k } }.csr x.view x.loops
    (∀ n ∈ [0x01, 0x04, 0x05, 0x06, 0x07, 0x0C, 0x0D, 0x0E, 0x20, 0x21, 0x22, 0x23, 0x24, 0x25, 0x42, 0x43, 0x44, 0x81, 0xC0, 0xC2, 0xC4, 0xC8],
      csr n = 0) ∧ (∀ j, j < 16 → csr (0x50 + j) = 0) ∧ bf (csr 2) 0 7 = 0x18 ∧ bf (csr 2) 8 7 = 0x60 ∧ csr 0x46 = 3 ∧ bf (csr 0x47) 8 4 = 0xF ∧
      bf (csr 0x47) 0 8 = 0 ∧ csr 0x60 = 8 ∧ csr 0x61 = 0x448 ∧
      (∀ g, bf (csr 0x30) (2 * g) 2 = [3, 3, 1, 3, 1, 1, 3, 3].getD g 0)) ∧
  (State.reset.node 1).state = .idle ∧ (∀ n, n ≠ 1 → (State.reset.node n).state = .covered) ∧ State.reset.domains = [] ∧
  (∀ a, State.reset.hbyte a = 0) ∧ Memory.wf State.reset.hbm ∧ State.reset.atRest

/-- R14, R16, R17, R18, R158-R160, R191, R299: where an operand code reads from and where it writes to: a register, a queue, a walker
(48 to 55), a channel (58 to 61) or the mailbox. An empty queue, channel or mailbox, an element not fetched yet and a full destination
make the word wait. A push to a neighbour that has restored (log entry 23) is not stated here, and that a walker's value is read at its
pop, not at its fetch, is log entry 14. -/
def Obligations.OperandCodesReadAndWriteTheirPlace : Prop :=
  (∀ s : State, s.xval 0 = 0 ∧ s.xval 63 = 0 ∧ ∀ v, s.putX 0 v = s.onCur (fun c => c) ∧ s.putX 63 v = s) ∧
  (∀ (c : BitVec 6) (s : State), xOrZero c = true → Gives (ahPop c) s ((s.xval c).setWidth 128) s) ∧
  (∀ (d : BitVec 6) v (s : State), xOrZero d = true → Does (ahPush d v) s (s.putX d v)) ∧
  (∀ (d : BitVec 6) v (s : State), 0 < d.toNat → d.toNat < 32 → tsorted s.cur.x = true → (s.putX d v).xval d = v) ∧
  (∀ (d e : BitVec 6) v (s : State), d ≠ e → (s.putX d v).xval e = s.xval e) ∧
  (∀ (s : State) e r, (s.cur.xq = e :: r → Gives (ahPop 56) s e.data ((s.onCur (fun c => { c with xq := r })).noted e.mark)) ∧
    (s.cur.sq = e :: r → Gives (ahPop 57) s e.data ((s.onCur (fun c => { c with sq := r })).noted e.mark)) ∧
    (s.cur.lq = e :: r → Gives (gPop 56) s (w64 (e.data.toNat % 2 ^ 64)) ((s.onCur (fun c => { c with lq := r })).noted e.mark)) ∧
    (s.cur.lq = e :: r → Gives (vPop 56) s e.data ((s.onCur (fun c => { c with lq := r })).noted e.mark))) ∧
  (∀ s : State, (s.cur.xq = [] → (ahPop 56).run s = .error (.stall [])) ∧ (s.cur.sq = [] → (ahPop 57).run s = .error (.stall [])) ∧
    (s.cur.lq = [] → (gPop 56).run s = .error (.stall [])) ∧ ((s.core s.issue.core).mail = [] → (gPop 62).run s = .error (.stall []))) ∧
  (∀ (s : State) v, (s.cur.lq.length < 16 → Does (ahPush 57 v) s (s.onCur (fun c => { c with lq := s.cur.lq ++ [{ data := v.setWidth 128 }] }))) ∧
    (¬ s.cur.lq.length < 16 → (ahPush 57 v).run s = .error (.stall []))) ∧
  (∀ (s : State) v, s.readsOk → s.issue.ign = [] →
    (s.cur.sq.length < 16 → Does (gPush 57 v) s (s.onCur (fun c => { c with sq := s.cur.sq ++ [{ data := v.setWidth 128 }] }))) ∧
    (¬ s.cur.sq.length < 16 → (gPush 57 v).run s = .error (.stall [])) ∧
    (s.cur.xq.length < 8 → Does (gPush 62 v) s (s.onCur (fun c => { c with xq := s.cur.xq ++ [{ data := v.setWidth 128 }] }))) ∧
    (¬ s.cur.xq.length < 8 → (gPush 62 v).run s = .error (.stall []))) ∧
  (∀ (c : BitVec 6) (s : State), gOnly c = true → ∃ t, Gives (gPop c) s (w64 (s.cur.rsGet (8 * c.toNat) 8)) t ∧ t.quiet = s.quiet) ∧
  (∀ (c : BitVec 6) (s : State), gOnly c = true → ∃ t, Gives (vPop c) s (BitVec.ofNat 128 (s.cur.rsGet (vAddr s.issue.view c.toNat) 16)) t ∧
    t.quiet = s.quiet) ∧
  (∀ s : State, Gives (gPop 63) s 0 s ∧ Gives (vPop 63) s 0 s) ∧
  (∀ (d : BitVec 6) v (s : State), s.readsOk → s.issue.ign = [] → gOnly d = true →
    Does (gPush d v) s (s.onCur (fun c => c.rsPut (8 * d.toNat) 8 v.toNat))) ∧
  (∀ v (s : State), s.readsOk → s.issue.ign = [] → Does (gPush 63 v) s s) ∧
  (∀ (d : BitVec 6) v (s : State), s.readsOk → s.issue.ign = [] → gOnly d = true →
    Does (vPush d v) s (s.onCur (fun c => c.rsPut (vAddr s.issue.view d.toNat) 16 v.toNat))) ∧
  (∀ (s : State) d, d < 4 → let code := BitVec.ofNat 6 (58 + d)
    (∀ e r, (s.core s.issue.core).chan d = e :: r → let t := (s.onCore (fun c => c.setChan d r)).noted e.mark
      Gives (gPop code) s (w64 (e.data.toNat % 2 ^ 64)) t ∧ Gives (vPop code) s e.data t) ∧
    ((s.core s.issue.core).chan d = [] → (gPop code).run s = .error (.stall []) ∧ (vPop code).run s = .error (.stall []))) ∧
  (∀ (s : State) d m e, let code := BitVec.ofNat 6 (58 + d); let n := neighbour s.issue.core d; let b := (d + 2) % 4
    d < 4 → s.readsOk → s.issue.ign = [] → s.pointPassed false →
    (∃ v, m = gPush code v ∧ e = { data := v.setWidth 128 }) ∨ (∃ v, m = vPush code v ∧ e = { data := v }) →
    (s.coreAbsent n = true → Does m s (s.onCore (fun c => c.diag 3 1))) ∧
    (s.coreAbsent n = false → (s.core n).phase ≠ .restore → let t := s.modCore n (fun c => c.setChan b ((s.core n).chan b ++ [e]))
      (((s.core n).chan b).length < 8 → Does m s (if (s.core n).phase = .arrived ∧ (s.core n).slot = 0 then t.pend [.coreArrive n 0] else t)) ∧
      (8 ≤ ((s.core n).chan b).length → m.run s = .error (.stall [])))) ∧
  (∀ (s : State) w, let code := BitVec.ofNat 6 (48 + w); let k := s.walker w; let c := s.issue.core
    let a := k.addr k.index.toNat; let l := s.locate c a k.size
    let t := ((s.onWalker w (fun k => { k.advance with fetched := k.fetched - 1 })).touched l).pend [.walkerFetch c s.issue.ctx w]
    w < 8 → k.active = true →
    (k.count ≤ k.index.toNat → let u := s.onWalker w (fun k => { k with spent := true }); Gives (gPop code) s 0 u ∧ Gives (vPop code) s 0 u) ∧
    (k.index.toNat < k.count → (∀ i j, l ≠ .absent i j) → (s.core c).busy l k.size = false → s.ahAhead l k.size false = false →
      s.heldOver c s.issue.ctx l k.size = false →
      (k.fetched = 0 → (gPop code).run s = .error (.stall [.walkerFetch c s.issue.ctx w])) ∧
      (k.fetched ≠ 0 → s.soundAt l a k.size → Gives (gPop code) s (w64 (s.lreadAt c l k.size)) t ∧
        Gives (vPop code) s (BitVec.ofNat 128 (s.lreadAt c l k.size)) t))) ∧
  (∀ (s t : State) w m (v : W128) q, let code := BitVec.ofNat 6 (48 + w); let k := s.walker w; let c := s.issue.core
    let l := s.locate c (k.addr k.index.toNat) k.size; let h := s.holding t l k.size v.toNat q (fun p _ => p)
    w < 8 → k.active = true → s.readsOk → s.issue.ign = [] → (∃ x, m = gPush code x ∧ v = x.setWidth 128) ∨ m = vPush code v →
    (k.count ≤ k.index.toNat → Does m s (s.onWalker w (fun k => { k with spent := true }))) ∧
    (k.index.toNat < k.count → 8 ≤ k.held.length → m.run s = .error (.stall [.walkerStoreWrite c s.issue.ctx w])) ∧
    (k.index.toNat < k.count → k.held.length < 8 → (∀ i j, l ≠ .absent i j) → (s.core c).busy l k.size = false →
      s.ahAhead l k.size true = false → s.heldOver c s.issue.ctx l k.size = false → s.takeEntry c l = .ok (q, t) → t.issue = s.issue →
      Does m s (((t.onCore (fun co => { co with accesses := co.accesses + 1 })).onWalker w (fun k =>
        { k.advance with held := k.held ++ [h] })).pend [.walkerStoreWrite c s.issue.ctx w]))) ∧
  (∀ (s : State) v, s.readsOk → s.issue.ign = [] →
    (s.cur.sq.length < 16 → Does (vPush 57 v) s (s.onCur (fun c => { c with sq := s.cur.sq ++ [{ data := v }] }))) ∧
    (¬ s.cur.sq.length < 16 → (vPush 57 v).run s = .error (.stall []))) ∧
  ∀ (s : State) w r, (s.core s.issue.core).mail = w :: r → Gives (gPop 62) s w (s.onCore (fun c => { c with mail := r }))

/-- R16, R17, R180, R181, R206, R207: the arithmetic words with register operands change their destination register and
nothing else: no other register, queue, flag or CSR, no other context, and no byte of memory. -/
def Obligations.RegisterWordsChangeNothingElse : Prop :=
  (∀ (s : State) (i : Instr) (d : BitVec 6), s.clear i → xOrZero d = true →
    (∃ p ∈ accessAlu, ∃ a b w, i = p.1 d a b w ∧ ahPlain a = true ∧ ahPlain b = true) ∨ (∃ p ∈ accessImm, ∃ a im, i = p.1 d a im ∧ ahPlain a = true) →
    ∃ t, exec i s = .next t ∧ s.onlyCur t ∧ t.ctx s.issue.core s.issue.ctx = { s.cur with x := (t.ctx s.issue.core s.issue.ctx).x } ∧
      ∀ n, n ≠ d.toNat → (t.ctx s.issue.core s.issue.ctx).xreg n = s.cur.xreg n) ∧
  ∀ (s : State) (i : Instr) (d : BitVec 6), s.clear i → gOrZero d = true → s.cur.marks = [] → s.cur.parityDue = false →
    (∃ p ∈ executeAlu, ∃ a b w, i = p.1 d a b w ∧ ehPlain a = true ∧ ehPlain b = true) ∨ (∃ p ∈ executeImm, ∃ a im, i = p.1 d a im ∧ ehPlain a = true) →
    ∃ t, exec i s = .next t ∧ s.onlyCur t ∧ t.ctx s.issue.core s.issue.ctx = { s.cur with rs := (t.ctx s.issue.core s.issue.ctx).rs } ∧
      ∀ n, n < 2048 → ¬ (8 * d.toNat ≤ n ∧ n < 8 * d.toNat + 8) → tget (t.ctx s.issue.core s.issue.ctx).rs n 0 = tget s.cur.rs n 0

/-- R73, R82, R84, R85, R108, R187: an ST that issues changes no byte of any memory, no register and no other context: it joins its
context's store path, and where it lies is what the meaning itself takes. A store of the path that is performed is one that nothing holds
back (which of these is a free value, log entry 53): it leaves the path, and memory is then as its write at that place leaves it, which
changes the bytes there, so that they hold its value's low bytes, and no other byte. -/
def Obligations.StoresChangeOnlyTheirBytes : Prop :=
  (∀ d b o z (s t : State) q, let n := 2 ^ z.toNat; let c := s.issue.core; let l := s.locate c (s.localAddr b o z.toNat) n
    s.clear (.st d b o z) → storeBad d b z = false → xOnly d = true → s.freeAt l n → l ≠ .unconf → s.takeEntry c l = .ok (q, t) →
    let h := s.holding t l n ((s.xval d).toNat % 2 ^ (8 * n)) q (storeAfter s.kind (Nat.min s.scope (localReach (s.localAddr b o z.toNat))) s.issue.seq)
    ∃ u, exec (.st d b o z) s = .next u ∧ u.hbm = s.hbm ∧ u.plat = s.plat ∧ u.teams = s.teams ∧ u.domains = s.domains ∧ u.dies = s.dies ∧
      (∀ x y, x ≠ c ∨ y ≠ s.issue.ctx → u.ctx x y = s.ctx x y) ∧
      u.ctx c s.issue.ctx = { s.cur with stores := s.cur.stores ++ [h], sc := (u.ctx c s.issue.ctx).sc } ∧
      (s.kind ≠ 4 → (u.ctx c s.issue.ctx).sc = s.cur.sc) ∧
      (∀ k a, (u.core k).tcmByte k a = (s.core k).tcmByte k a) ∧ (∀ k a, (u.cluster k).padByte k a = (s.cluster k).padByte k a)) ∧
  (∀ (s u : State) c l n v q, s.lwriteAt c l n v (some q) = .ok u →
      u.hbm = s.hbm ∧ u.plat = s.plat ∧ u.teams = s.teams ∧ u.domains = s.domains ∧ u.dies = s.dies ∧ (∀ x y, u.ctx x y = s.ctx x y) ∧
      (∀ k a, (k = c → ¬ l.coversTcm n a) → (u.core k).tcmByte k a = (s.core k).tcmByte k a) ∧
      (∀ k a, (k = clusterOf c → ¬ l.coversPad c n a) → (u.cluster k).padByte k a = (s.cluster k).padByte k a) ∧
      (∀ off, l = .tcm off → tsorted (s.core c).tcm = true → ∀ j, j < n → (u.core c).tcmByte c (off + j) = byteOf v j) ∧
      ∀ off cls owner win woff, l = .pad off cls owner win woff → (cls = 0 ∨ cls ≠ 2 ∧ owner = inCluster c) → n ≤ Config.padBytes → ∀ j, j < n →
        (u.cluster (clusterOf c)).padByte (clusterOf c) ((off + j) % Config.padBytes) = byteOf v j) ∧
  (∀ (s u : State) c (p : Held), p.loc ≠ .unconf → s.lwriteAt c p.loc p.size (p.data.toNat % 2 ^ (8 * p.size)) (some p.seq) = .ok u →
      s.writeHeld c p = u) ∧
  (∀ (s t : State) c k, s.storeWrite c k = some t → ∃ h ∈ s.storesFree c k, let p := (h.split c).1; let l := s.storesFree c k
      let left := (s.ctx c k).stores.flatMap (fun g => if g.id = h.id then (h.split c).2.toList else [g])
      let u := (s.modCtx c k (fun x => { x with stores := left })).writeHeld c p
      l[Config.performChoice s.fresh % l.length]? = some h ∧ (t.ctx c k).stores = left ∧
      (∀ x a, (t.core x).tcmByte x a = (u.core x).tcmByte x a) ∧ (∀ x a, (t.cluster x).padByte x a = (u.cluster x).padByte x a) ∧
      (∀ x, (t.core x).flight = (u.core x).flight) ∧
      t.hbm = s.hbm ∧ (∀ x y, x ≠ c ∨ y ≠ k → t.ctx x y = s.ctx x y) ∧ t.ctx c k = { s.ctx c k with stores := (t.ctx c k).stores } ∧
      (∀ x a, (x = c → ¬ p.loc.coversTcm p.size a) → (t.core x).tcmByte x a = (s.core x).tcmByte x a) ∧
      (∀ x a, (x = clusterOf c → ¬ p.loc.coversPad c p.size a) → (t.cluster x).padByte x a = (s.cluster x).padByte x a)) ∧
  ∀ (s : State) a n v m, tsorted s.hbm = true → (∀ x, (∀ j, j < n → m.testBit j = true → x ≠ a + j) → (s.hwriteMask a n v m).hbyte x = s.hbyte x) ∧
    ∀ j, j < n → m.testBit j = true → (s.hwriteMask a n v m).hbyte (a + j) = byteOf v j

/-! ### The access half -/

/-- R180: the two-source arithmetic of the access half, of width W, sign-extended; AMAD adds its destination register. -/
def Obligations.AccessArithmeticWritesItsResult : Prop :=
  (∀ p ∈ accessAlu, ∀ d a b w, AccessPair (p.1 d a b w) d a b
    (fun _ x y => sext (widthOf w) (p.2.eval (widthOf w) x.toNat y.toNat))) ∧
  ∀ d a b w, xOrZero d = true → AccessPair (.amad d a b w) d a b
    (fun s x y => sext (widthOf w) ((s.xval d).toNat + x.toNat * y.toNat))

/-- R181, R182: the immediate forms and the two loads of an immediate. -/
def Obligations.AccessImmediatesWriteTheirResult : Prop :=
  (∀ p ∈ accessImm, ∀ d a im, AccessOne (p.1 d a im) d a (fun s x => w64 (p.2.eval 64 x.toNat (wi (s.imm im)).toNat))) ∧
  (∀ d im (s t : State), s.clear (.ali d im) → ahDst d = true → Does (ahPush d (wi (s.imm im))) s t → t.readsOk →
    Completes (.ali d im) s t) ∧
  ∀ d im (s : State), s.clear (.alui d im) → xOrZero d = true →
    exec (.alui d im) s = .next (s.putX d (w64 (bf (wi (s.imm im)) 0 32 * 2 ^ 32 + bf (s.xval d) 0 32))).quiet

/-- R183, R184: ABEQ to ABGEU pop A, then B, and go to their own address plus four times their immediate when the comparison holds, and
on when it does not; a code that is no access-half source is an illegal operand. ABQ does the same with the branch queue's head. -/
def Obligations.AccessBranchesChooseTheNextWord : Prop :=
  (∀ p ∈ accessBranches, ∀ a b o, AccessBranch (p.1 a b o) a b o p.2) ∧
  (∀ p ∈ accessBranches, ∀ a b o (s : State), s.clear (p.1 a b o) → ahSrc a = false ∨ ahSrc b = false → s.cur.handled 2 0 = true →
    exec (p.1 a b o) s = .next (s.trapsTo (p.1 a b o) .ah 2 (wordOf (p.1 a b o))).quiet) ∧
  (∀ (a b : BitVec 6) (o : BitVec 12), decode (0x18#8 ++ a ++ b ++ o) = .ok (.abeq a b o) ∧ decode (0x19#8 ++ a ++ b ++ o) = .ok (.abne a b o) ∧
    decode (0x1A#8 ++ a ++ b ++ o) = .ok (.ablt a b o) ∧ decode (0x1B#8 ++ a ++ b ++ o) = .ok (.abge a b o) ∧
    decode (0x1C#8 ++ a ++ b ++ o) = .ok (.abltu a b o) ∧ decode (0x1D#8 ++ a ++ b ++ o) = .ok (.abgeu a b o)) ∧
  ∀ z o (s : State) p r, s.clear (.abq z o) → s.cur.bq = p :: r →
    exec (.abq z o) s = .next (s.onCur (fun c =>
      let c := { c with bq := r }
      if p == (z == 1) then { c with pc := s.issue.addr + wi (4 * s.imm o), edge := none } else c.follow s.issue.addr c.eh.isEmpty)).quiet

/-- R185: AJMP, ACALL, ARET and AJR set the pc, ACALL the link x31 and AJR its D; AJR reads A before it writes D, and takes x registers
only. -/
def Obligations.JumpsAndCallsSetThePcAndTheLink : Prop :=
  (∀ (im : BitVec 24) (d a : BitVec 6) (o : BitVec 12), decode (0x1F#8 ++ im) = .ok (.ajmp im) ∧ decode (0x20#8 ++ im) = .ok (.acall im) ∧
    decode 0x21000000#32 = .ok .aret ∧ decode (0x22#8 ++ d ++ a ++ o) = .ok (.ajr d a o) ∧
    (im ≠ 0 → decode (0x21#8 ++ im) = .error .reservedBits)) ∧
  (∀ d a im (s : State), s.clear (.ajr d a im) → xOnly d = false ∨ xOnly a = false → s.cur.handled 2 0 = true →
    exec (.ajr d a im) s = .next (s.trapsTo (.ajr d a im) .ah 2 (wordOf (.ajr d a im))).quiet) ∧
  (∀ im (s : State), s.clear (.ajmp im) →
    exec (.ajmp im) s = .next (s.onCur (fun c => { c with pc := s.issue.addr + wi (4 * s.imm im), edge := none })).quiet) ∧
  (∀ im (s : State), s.clear (.acall im) →
    exec (.acall im) s = .next (s.onCur (fun c => { c.setX 31 (s.issue.addr + 4) with pc := s.issue.addr + wi (4 * s.imm im), edge := none })).quiet) ∧
  (∀ s : State, s.clear .aret →
    exec .aret s = .next (s.onCur (fun c => { c with pc := w64 (alignTo 4 (s.xval 31).toNat), edge := none })).quiet) ∧
  ∀ d a im (s : State), s.clear (.ajr d a im) → xOnly d = true → xOnly a = true →
    exec (.ajr d a im) s = .next (s.onCur (fun c =>
      { c.setX d.toNat (s.issue.addr + 4) with pc := w64 (alignTo 4 (s.xval a + wi (s.imm im)).toNat), edge := none })).quiet

/-! ### Local and global memory -/

/-- R73, R74, R109, R187: LD reads the bytes where its local address lies: a register takes them sign-extended, lq zero-extended. A load
of 16 bytes is two accesses of 8: it waits while the low 8 are read in a step of their own, and completes with the high 8. -/
def Obligations.LoadsReadTheBytesAtTheirAddress : Prop :=
  ∀ d b o z (s : State), let n := 2 ^ z.toNat; let c := s.issue.core; let l := s.locate c (s.localAddr b o z.toNat) n
    s.clear (.ld d b o z) → loadBad d b z = false → s.fencePassed → s.freeAt l n →
    s.soundAt l (s.localAddr b o z.toNat) n → s.cur.injects 2 = false → s.cur.injects 3 = false →
    (n ≠ 16 → d ≠ 57 → Completes (.ld d b o z) s ((s.touched l).putX d (sext (8 * n) (s.lreadAt c l n)))) ∧
    (n ≠ 16 → d = 57 → s.cur.lq.length < 16 → Completes (.ld d b o z) s ((s.touched l).onCur (fun c' =>
      { c' with lq := c'.lq ++ [{ data := BitVec.ofNat 128 (s.lreadAt c l n) }] }))) ∧
    (n = 16 → partOf s.readSoFar 0 = none → Waits (.ld d b o z) s [.loadPart c s.issue.ctx s.issue.seq 0 (s.lreadAt c l 8)]) ∧
    (∀ x, n = 16 → partOf s.readSoFar 0 = some x → d = 63 → Completes (.ld d b o z) s ((s.touched l).onCur (fun c' => { c' with loaded := [] }))) ∧
    ∀ x, n = 16 → partOf s.readSoFar 0 = some x → d = 57 → s.cur.lq.length < 16 → Completes (.ld d b o z) s ((s.touched l).onCur (fun c' =>
      { c' with loaded := [], lq := c'.lq ++ [{ data := BitVec.ofNat 128 (x.value + 2 ^ 64 * s.lreadAt c l.high 8) }] }))

/-- R108, R111, R187, R188: ST puts its source's low bytes on the store path for the place where its address lies; LATM writes its
operation's result there, when its comparison holds, and gives the old value. One of kind SC opens a FENCE.SC after it. -/
def Obligations.StoresAndLocalAtomicsWriteAtTheirAddress : Prop :=
  (∀ d b o z (s s1 t : State) v q, let n := 2 ^ z.toNat; let a := s.localAddr b o z.toNat; let l := s1.locate s1.issue.core a n
    s.clear (.st d b o z) → storeBad d b z = false → Gives (ahPop d) s v s1 → s1.unread → s1.issue = s.issue → s1.freeAt l n →
    (l = .unconf → Completes (.st d b o z) s ((s1.touched l).fencedAfter s.kind s.scope)) ∧
    (l ≠ .unconf → s1.takeEntry s1.issue.core l = .ok (q, t) → t.issue = s1.issue →
      let h := s1.holding t l n (v.toNat % 2 ^ (8 * n)) q (storeAfter s.kind (Nat.min s.scope (localReach a)) s.issue.seq)
      Completes (.st d b o z) s ((((t.onCore (fun co => { co with accesses := co.accesses + 1 })).onCur (fun c =>
        { c with stores := c.stores ++ [h] })).pend [.storeWrite s.issue.core s.issue.ctx]).fencedAfter s.kind s.scope))) ∧
  ∀ d b p z (s : State), let n := 2 ^ z.toNat; let a := (s.xval b).toNat % 2 ^ 32; let l := s.locate s.issue.core a n
    let old := s.lreadAt s.issue.core l n
    let new := atomOp p.toNat (8 * n) old ((s.xval d).toNat % 2 ^ (8 * n)) ((s.xval (d + 1)).toNat % 2 ^ (8 * n))
    s.clear (.latm d b p z) → xOrZero b = true → xOnly d = true → (p = 9 → 1 ≤ d.toNat ∧ d.toNat ≤ 30) → s.fencePassed →
    (if 2 ≤ s.kind then s.released (Nat.min s.scope (localReach a)) else s.pointPassed true) → s.freeAt l n → s.soundAt l a n →
    (new = none → Completes (.latm d b p z) s (((s.touched l).putX d (sext (8 * n) old)).fencedAfter s.kind s.scope)) ∧
    ∀ w u, new = some w → (s.touched l).lwriteAt s.issue.core l n (w % 2 ^ (8 * n)) none = .ok u → u.issue = s.issue →
      Completes (.latm d b p z) s ((u.putX d (sext (8 * n) old)).fencedAfter s.kind s.scope)

/-- R77, R82, R108, R109, R121, R187: LDG sends its requests, one for each 8 bytes of 16, and waits for them; it completes when each has been
performed, and then gives what they read. STG is posted to its home, under the next access number and with what it waits for, or
becomes a line delta; one of kind SC opens a FENCE.SC after it. A release at core scope notes the requests that it passes on (R110, log
entry 53). -/
def Obligations.GlobalLoadsReadAndGlobalStoresAreSent : Prop :=
  (∀ d b o z (s : State) phys cls e, let n := 2 ^ z.toNat; let a := s.globalAddr b o z.toNat; let c := s.issue.core
    s.clear (.ldg d b o z) → loadBad d b z = false →
    (∀ v, s.allRead n = some (v, none) →
      (d ≠ 57 → Completes (.ldg d b o z) s ((s.onCur (fun x => { x with loaded := [] })).putX d (sext (8 * n) v))) ∧
      (d = 57 → s.cur.lq.length < 16 → Completes (.ldg d b o z) s (s.onCur (fun x =>
        { x with loaded := [], lq := x.lq ++ [{ data := BitVec.ofNat 128 v }] })))) ∧
    (∀ v m, s.allRead n = some (v, some m) → d = 57 → s.cur.lq.length < 16 → Completes (.ldg d b o z) s (s.onCur (fun x =>
        { x with loaded := [], lq := x.lq ++ [{ data := BitVec.ofNat 128 v, mark := some m }] }))) ∧
    (s.allRead n = none → s.fencePassed → a.toNat % n = 0 → s.xlate (s.tenantOf c) a .read = .ok phys cls e → (cls = 1 → s.cur.upset ≠ 5) →
      Waits (.ldg d b o z) s [.loadSend c s.issue.ctx s.issue.seq a n, .globalAccessPerformed c])) ∧
  ∀ d b o z (s s1 u : State) v, let n := 2 ^ z.toNat; let a := s.globalAddr b o z.toNat; let c := s1.issue.core
    let w := storeAfter s.kind (Nat.min s.scope globalReach) s.issue.seq
    s.clear (.stg d b o z) → storeBad d b z = false → Gives (ahPop d) s v s1 → s1.unread → a.toNat % n = 0 → s1.issue = s.issue → u.issue = s1.issue →
    let s2 := s1.onCur (fun x => x.lend s.kind s.scope (s.core c).accesses)
    (s2.gprepare c (s1.tenantOf c) a = .ok (.posted, u) → let id := (u.core c).accesses
      Completes (.stg d b o z) s (((u.modCore c (fun co => { co with accesses := id + 1, gstores := co.gstores ++
        [{ ctx := s1.issue.ctx, id := id, seq := s1.issue.seq, addr := a, size := n, data := BitVec.ofNat 128 (v.toNat % 2 ^ (8 * n)),
           after := w s1.cur.point id }] })).pend [.globalAccessPerformed c]).fencedAfter s.kind s.scope)) ∧
    ∀ die, s2.gprepare c (s1.tenantOf c) a = .ok (.delta die, u) →
      Completes (.stg d b o z) s (((u.takeSeq c).2.emitLine c (u.takeSeq c).1
        (.page (s1.tenantOf c) (w64 (alignTo 64 a.toNat))) (a.toNat % 64) n (v.toNat % 2 ^ (8 * n))).fencedAfter s.kind s.scope)

/-! ### Deltas to other homes -/

/-- R297, R298: PUT, ATOM and MSG reserve the entry of each home and mailbox they need and send one delta under the core's next
sequence number, on this device or, to a core of another, over the fabric; without room at the other device, which is a free
value (log 58), they trap with delta-full and its die. -/
def Obligations.RemoteWritesSendOneDelta : Prop :=
  (∀ d a b z (s s1 s2 : State) x y, let n := 2 ^ z.toNat; let addr : W64 := x.setWidth 64; let g := s.xval d; let t := bf g 0 13
    let i := Instr.put d a b z; let v := y.toNat % 2 ^ (8 * n)
    let r := fun (q : Target) => DeltaKind.line (mergeLine 0 0 q.byte n v).1 (mergeLine 0 0 q.byte n v).2
    s.clear i → s.pointPassed false → ahSrc a = true → (if z = 4 then b = 57 ∨ b = 63 else xOrZero b = true) →
    Gives (ahPop a) s x s1 → Gives (ahPop b) s1 y s2 → s2.unread →
    (d = 63 → ∀ s3 die, Gives (globalTarget addr n) s2 (some die) s3 → s3.unread → s3.issue.core = s.issue.core →
      (s3.die die).storeUsed < Config.deltaEntries → let q := Target.page (s.tenantOf s.issue.core) addr
      Completes i s ((s3.modDie die (fun x => x.reserve (s3.tenantOf s3.issue.core))).sends n (r q) q.line)) ∧
    (d ≠ 63 → xOrZero d = true → s.targetBad s.issue.core g = false → s.here g = true →
      (s2.cluster (clusterOf t)).poolUsed < Config.poolEntries →
      let q := putTarget (s.participates s.issue.core t) t (addr.toNat % 2 ^ 32) n
      Completes i s ((s2.modCluster (clusterOf t) (fun x => { x with reserved := x.reserved + 1 })).sends n (r q) q.line)) ∧
    (d ≠ 63 → xOrZero d = true → s.targetBad s.issue.core g = false → s.here g = false → s.cur.handled 13 6 = true →
      exec i s = .next (if Config.foreignRoom s2.fresh then
        (({ s2 with fresh := s2.fresh + 1 } : State).sendAway s.issue.core (bf g 13 12) n [g, 0, addr, w64 v, w64 (v / 2 ^ 64), w64 n]).quiet
        else (s.trapsTo i .ah 13 (w64 (dieOf t))).quiet))) ∧
  (∀ d a b e w p (s s1 s2 : State) x y, let n := if w = 1 then 8 else 4; let addr : W64 := x.setWidth 64; let g := s.xval d
    let t := bf g 0 13; let i := Instr.atom d a b e w p; let c := s.issue.core; let v : W64 := y.setWidth 64
    let mail := fun (u : State) => if e = 1 then u.modCore c (fun k => { k with mailRes := k.mailRes + 1 }) else u
    s.clear i → s.pointPassed false → ahSrc a = true → xOrZero b = true → Gives (ahPop a) s x s1 → Gives (ahPop b) s1 y s2 → s2.unread →
    (d = 63 → ∀ s3 die, Gives (globalTarget addr n) s2 (some die) s3 → s3.unread → s3.issue.core = c →
      (s3.die die).storeUsed < Config.deltaEntries → (e = 1 → (s3.core c).mailUsed < Config.mailboxWords) →
      Completes i s ((mail (s3.modDie die (fun x => x.reserve (s3.tenantOf c)))).sends n (.atom p.toNat n v (e == 1)) (.page (s.tenantOf c) addr))) ∧
    (d ≠ 63 → xOrZero d = true → s.targetBad c g = false → (e = 1 → (s2.core c).mailUsed < Config.mailboxWords) →
      (s.here g = true → (s2.cluster (clusterOf t)).poolUsed < Config.poolEntries →
        Completes i s ((mail (s2.modCluster (clusterOf t) (fun x => { x with reserved := x.reserved + 1 }))).sends n
          (.atom p.toNat n v (e == 1)) (putTarget (s.participates c t) t (addr.toNat % 2 ^ 32) n))) ∧
      (s.here g = false → s.cur.handled 13 6 = true →
        exec i s = .next (if Config.foreignRoom s2.fresh then
          ((mail { s2 with fresh := s2.fresh + 1 }).sendAway c (bf g 13 12) n [g, 1, addr, v, w64 (p.toNat + 16 * w.toNat + 32 * e.toNat)]).quiet
          else (s.trapsTo i .ah 13 (w64 (dieOf t))).quiet)))) ∧
  ∀ d a b f (s s1 s2 : State) x y, let g := s.xval d; let t := bf g 0 13; let i := Instr.msg d a b f; let c := s.issue.core
    let l : List W64 := x.setWidth 64 :: if f = 1 then [y.setWidth 64] else []
    s.clear i → s.pointPassed false → xOnly d = true → ahSrc a = true → s.targetBad c g = false → Gives (ahPop a) s x s1 →
    (if f = 1 then ahSrc b = true ∧ Gives (ahPop b) s1 y s2 else s2 = s1) → s2.unread →
    (s.here g = true → (s.participates c t = true → (s2.core t).mailUsed + l.length ≤ Config.mailboxWords) →
      Completes i s ((if s.participates c t then s2.modCore t (fun k => { k with mailRes := k.mailRes + l.length }) else s2).sends
        (8 * l.length) (.msg l) (.mailbox t))) ∧
    (s.here g = false → s.cur.handled 13 6 = true →
      exec i s = .next (if Config.foreignRoom s2.fresh then
        (({ s2 with fresh := s2.fresh + 1 } : State).sendAway c (bf g 13 12) (8 * l.length) (g :: 2 :: l)).quiet
        else (s.trapsTo i .ah 13 (w64 (dieOf t))).quiet))

/-! ### Walkers -/

/-- R190, R192: WCFG takes a pattern, WSTART and WSTOP start and stop a walker, WFLAGS and WPOS report it. -/
def Obligations.WalkerWordsConfigureStartStopAndReport : Prop :=
  (∀ a n (s s1 : State) l, s.clear (.wcfg a n) → xOnly a = true → Gives (descRead (s.xval a).toNat 64) s l s1 → s1.unread →
    patternBad l = false → (s1.walker n.toNat).held = [] →
    Completes (.wcfg a n) s (s1.onWalker n.toNat (fun _ => walkerOfPattern l))) ∧
  (∀ n (s : State), s.clear (.wstart n) → let t := s.onWalker n.toNat (fun k => { k with active := true })
    Completes (.wstart n) s (if (s.walker n.toNat).store then t else t.pend [.walkerFetch s.issue.core s.issue.ctx n.toNat])) ∧
  (∀ n (s : State), s.clear (.wstop n) → (s.walker n.toNat).held = [] →
    Completes (.wstop n) s (s.onWalker n.toNat (fun k => { k with fetched := 0, active := false }))) ∧
  (∀ d n (s : State), s.clear (.wflags d n) → xOrZero d = true → let k := s.walker n.toNat
    Completes (.wflags d n) s (s.putX d (w64 (b2n k.e0 + 2 * b2n k.e1 + 4 * b2n k.e2 + 8 * b2n k.spent + 16 * b2n k.active + 32 * b2n k.store)))) ∧
  (∀ d a n (s : State), s.clear (.wpos d a 0 n) → xOrZero d = true → Completes (.wpos d a 0 n) s (s.putX d (s.walker n.toNat).index)) ∧
  ∀ d a n (s : State), s.clear (.wpos d a 1 n) → xOrZero d = true → xOnly a = true → (s.xval a).toNat ≤ (s.walker n.toNat).count →
    Completes (.wpos d a 1 n) s ((s.putX d (s.walker n.toNat).index).onWalker n.toNat (fun k =>
      { k with index := s.xval a, e0 := false, e1 := false, e2 := false, spent := false, fetched := 0 }))

/-! ### Copies, windows, page fetches and rings -/

/-- R92-R95, R195, R197, R198, R262: CPY hands a copy to the copy unit and gives its identifier, one of no bytes too; RCPY, which
fills a slot or drains one, and SSWEEP give the identifier of theirs; CPYW waits for the event it names. -/
def Obligations.CopyWordsHandOverACopy : Prop :=
  (∀ d a (s s1 t : State) l, let k := { copyOfDesc l with flags := s.kind, scope := s.scope }; let c := s.issue.core
    let ranges := s1.copyRanges c k (s1.core c).copyNext
    let e : Copy := { k with id := (t.core c).copyNext, ctx := s.issue.ctx, seq := (t.core c).seq, dc := (t.ctx c s.issue.ctx).dc }
    s.clear (.cpy d a) → xOrZero d = true → xOnly a = true → Gives (descRead (s.xval a).toNat 32) s l s1 →
    Gives (checkCopy k (bf (wd l 2) 48 16 != 0)) s1 false s1 → k.len * k.rows ≠ 0 → Does (copyOrder k) s1 s1 →
    s1.copyQueued (teamOf c) < Config.copyQueue → (s1.core c).ranges.length + ranges.length ≤ Config.scoreboardEntries →
    s1.reserveAll c k.dg ((s1.destLines c k).map w64) = .ok t → s1.issue = s.issue → t.issue = s.issue →
    Completes (.cpy d a) s (((t.modCore c (fun co => { co with
      copyNext := (co.copyNext + 1) % 2 ^ 16, seq := (co.seq + (t.deltaLines c k).length) % 2 ^ 32,
      copies := co.copies ++ [e], ranges := co.ranges ++ ranges })).pend (copyChores c e)).putX d (w64 (t.core c).copyNext))) ∧
  (∀ d a (s s1 : State) l, let k := { copyOfDesc l with flags := s.kind, scope := s.scope }; let c := s.issue.core
    s.clear (.cpy d a) → xOrZero d = true → xOnly a = true → Gives (descRead (s.xval a).toNat 32) s l s1 → s1.unread → s1.issue.core = c →
    Gives (checkCopy k (bf (wd l 2) 48 16 != 0)) s1 false s1 → k.len * k.rows = 0 →
    Completes (.cpy d a) s ((s1.modCore c (fun co => { co with copyNext := (co.copyNext + 1) % 2 ^ 16 })).putX d (w64 (s1.core c).copyNext))) ∧
  (∀ d a b (s t : State) id, let x := s.xval a; let n := (s.xval b).toNat
    let side := if bit x 63 then w64 (2 ^ 63 + bf x 0 55) else w64 (bf x 0 32)
    s.clear (.ssweep d a b) → xOrZero d = true → xOnly a = true → xOnly b = true → n ≤ 2 ^ 32 → bf x 0 55 % 8 = 0 →
    (if bit x 63 then n = 0 ∨ bf x 0 55 + 8 * (n - 1) < 2 ^ 55
      else bf x 32 31 = 0 ∧ bf x 0 32 % 8 = 0 ∧ 8 * n ≤ s.windowSize s.issue.core (bf x 24 8)) →
    Gives (issueCopy { src := side, dst := side, len := 8, rows := n, sstride := 8, dstride := 8,
                       kind := .sweep n (BitVec.ofNat 24 s.stamp24) } n) s id t → t.unread →
    Completes (.ssweep d a b) s (t.putX d (w64 id))) ∧
  (∀ d a h (s t : State) ring slot id, let c := s.issue.core; let side := s.xval a
    s.clear (.rcpy d a 0 h) → xOrZero d = true → xOnly a = true → (s.core c).ring h.toNat = some ring → ring.prod = 1 →
    Gives (checkCopy { src := side, dst := w64 ring.base.toNat, len := ring.slotBytes, rows := 1 }
      ((if bit side 63 then bf side 55 8 else bf side 32 31) != 0)) s false s → s.nextSlot c ring = some slot →
    Gives (issueCopy { src := side, dst := w64 slot.1, len := ring.slotBytes, rows := 1, kind := .fill h.toNat ring.pnext,
                       flags := s.kind, scope := s.scope } ring.slotBytes) s id t → t.unread → t.issue.core = c →
    (t.core c).copies.any (fun x => x.id == id) = true →
    Completes (.rcpy d a 0 h) s ((t.modRing c h.toNat (fun g => g.begin slot)).putX d (w64 id))) ∧
  (∀ d a h (s t : State) ring slot id, let c := s.issue.core; let side := s.xval a
    s.clear (.rcpy d a 1 h) → xOrZero d = true → xOnly a = true → (s.core c).ring h.toNat = some ring → ring.cons = 1 →
    Gives (checkCopy { src := w64 ring.base.toNat, dst := side, len := ring.slotBytes, rows := 1 }
      ((if bit side 63 then bf side 55 8 else bf side 32 31) != 0)) s false s → ring.at ring.cnext = some slot → slot.state = .full →
    Gives (issueCopy { src := w64 slot.addr, dst := side, len := ring.slotBytes, rows := 1, kind := .drain h.toNat ring.cnext,
                       flags := s.kind, scope := s.scope } ring.slotBytes) s id t → t.unread → t.issue.core = c →
    (t.core c).copies.any (fun x => x.id == id) = true →
    Completes (.rcpy d a 1 h) s ((t.modRing c h.toNat (fun g => { g.mark ring.cnext .draining with cnext := g.cnext + 1 })).putX d (w64 id))) ∧
  (∀ a e (s : State) k, s.clear (.cpyw a e) → xOrZero a = true →
    (s.core s.issue.core).copies.find? (fun x => x.id == bf (s.xval a) 0 16) = some k →
    (e = 1 → k.reusable = true → Completes (.cpyw a e) s s) ∧
    (e ≠ 1 ∨ k.reusable = false → Waits (.cpyw a e) s (copyChores s.issue.core k))) ∧
  ∀ a e (s : State), s.clear (.cpyw a e) → xOrZero a = true →
    (s.core s.issue.core).copies.find? (fun x => x.id == bf (s.xval a) 0 16) = none → Completes (.cpyw a e) s s

/-- R78, R79, R199-R201: WINSET changes the window table at once in superstep 0, else at the commit; WINGET reads it; PFLIST
hands a chain of elements over. Of two immediate WINSETs by different cores to one entry, a free value says which descriptor stays
(R79: implementation-specific, log 19). -/
def Obligations.WindowWordsReachTheWindowTable : Prop :=
  (∀ a b (s s1 : State) l, let w := (s.xval a).toNat; let e : Win := { w0 := wd l 0, w1 := wd l 1 }; let k := clusterOf s.issue.core
    s.clear (.winset a b) → xOnly a = true → xOnly b = true → 1 ≤ w → w ≤ 255 → Gives (descRead (s.xval b).toNat 32) s l s1 →
    winBad l = false → s1.issue = s.issue →
    (s1.winsetsAtOnce = true → tfind (s1.cluster k).instant w = none →
      Completes (.winset a b) s (s1.modCluster k (fun x => { x with wins := tput x.wins w e, instant := tput x.instant w s.issue.core }))) ∧
    (s1.winsetsAtOnce = true → tfind (s1.cluster k).instant w = some s.issue.core →
      Completes (.winset a b) s (s1.modCluster k (fun x => { x with wins := tput x.wins w e }))) ∧
    (∀ o, s1.winsetsAtOnce = true → tfind (s1.cluster k).instant w = some o → o ≠ s.issue.core →
      let t : State := { s1 with fresh := s1.fresh + 1 }
      Completes (.winset a b) s (if Config.winsetFirst s1.fresh then t
        else t.modCluster k (fun x => { x with wins := tput x.wins w e, instant := tput x.instant w s.issue.core }))) ∧
    (s1.winsetsAtOnce = false → (s1.cluster k).pending.length < Config.winsetEntries →
      Completes (.winset a b) s (s1.modCluster k (fun x => { x with
        pending := x.pending ++ [{ core := s.issue.core, order := x.pendCount, win := w, entry := e }], pendCount := x.pendCount + 1 })))) ∧
  (∀ d a k (s : State), let e := tget (s.cluster (clusterOf s.issue.core)).wins (s.xval a).toNat {}
    s.clear (.winget d a k) → xOrZero d = true → xOnly a = true → 1 ≤ (s.xval a).toNat → (s.xval a).toNat ≤ 255 →
    Completes (.winget d a k) s (s.putX d (if k = 0 then e.w0 else if k = 1 then e.w1 else 0))) ∧
  ∀ a (s : State), let p := s.xval a; let c := s.issue.core
    s.clear (.pflist a) → xOnly a = true → bf p 0 5 = 0 → bf p 55 9 = 0 → s.pointPassed true → (s.cancelChains c).issue = s.issue →
    (p = 0 → Completes (.pflist a) s (s.cancelChains c)) ∧
    ∀ x l, p ≠ 0 → s.walkChain c (s.tenantOf c) p.toNat 65536 = .ok (x :: l) →
      let t := ((s.lookups c (s.tenantOf c) ((x :: l).map (fun e => e.addr.toNat))).cancelChains c).handOver c (x :: l)
      t.issue = s.issue → Completes (.pflist a) s t

/-- R95-R97, R202-R204: a ring is configured, or unconfigured by an all-zero descriptor when every slot of it is free; its positions are
reserved, produced, awaited, consumed and located. -/
def Obligations.RingWordsMoveAPositionOn : Prop :=
  (∀ a h (s s1 : State) l, s.clear (.rcfg a h) → xOnly a = true → Gives (descRead (s.xval a).toNat 32) s l s1 → s1.unread →
    l.all (fun w => w == 0) = false → ringBad l = false → (∀ r, (s1.core s1.issue.core).ring h.toNat = some r → r.slots = []) →
    (s1.core s1.issue.core).bufferUsed + (ringOfDesc l).cap ≤ Config.bufferEntries →
    Completes (.rcfg a h) s (s1.onCore (fun co => { co with rings := tput co.rings h.toNat (ringOfDesc l) }))) ∧
  (∀ a h (s s1 : State) l, s.clear (.rcfg a h) → xOnly a = true → Gives (descRead (s.xval a).toNat 32) s l s1 →
    l.all (fun w => w == 0) = true →
    (s1.unread → (∀ r, (s1.core s1.issue.core).ring h.toNat = some r → r.slots = []) →
      Completes (.rcfg a h) s (s1.onCore (fun co => { co with rings := tdel co.rings h.toNat }))) ∧
    (∀ r, (s1.core s1.issue.core).ring h.toNat = some r → r.slots ≠ [] → s1.issue.ign = [] → s.cur.handled 2 0 = true →
      exec (.rcfg a h) s = .next (s.trapsTo (.rcfg a h) .ah 2 (wordOf (.rcfg a h))).quiet)) ∧
  (∀ d h (s : State) r slot, let c := s.issue.core
    s.clear (.rresv d h) → xOrZero d = true → (s.core c).ring h.toNat = some r → r.prod = 0 → s.nextSlot c r = some slot →
    Completes (.rresv d h) s ((s.modRing c h.toNat (fun g => g.begin slot)).putX d (w64 r.pnext))) ∧
  (∀ h (s : State) r x, let c := s.issue.core
    s.clear (.rprod h) → (s.core c).ring h.toNat = some r → r.prod = 0 → r.lowest .filling = some x → s.released 1 →
    Completes (.rprod h) s (s.modRing c h.toNat (fun g => g.mark x.pos .full))) ∧
  (∀ d h (s : State) r x, let c := s.issue.core
    s.clear (.rwait d h) → xOrZero d = true → (s.core c).ring h.toNat = some r → r.cons = 0 → r.at r.cnext = some x → x.state = .full →
    Completes (.rwait d h) s ((s.modRing c h.toNat (fun g => { g.mark x.pos .draining with cnext := g.cnext + 1 })).putX d (w64 x.pos))) ∧
  (∀ h (s : State) r x, let c := s.issue.core
    s.clear (.rcons h) → (s.core c).ring h.toNat = some r → r.cons = 0 → r.lowest .draining = some x → s.released 1 →
    Completes (.rcons h) s (s.modRing c h.toNat (fun g => g.free x.pos))) ∧
  ∀ d a h (s : State) r, let c := s.issue.core
    s.clear (.rslot d a h) → xOrZero d = true → xOnly a = true → (s.core c).ring h.toNat = some r →
    Completes (.rslot d a h) s (s.putX d (match r.at (s.xval a).toNat with | some x => w64 x.addr | none => w64 (2 ^ 64 - 1)))

/-! ### Work and contexts -/

/-- R300: TNEXT gives the next tile of the core's deal, or goes to its target when the deal is used up. -/
def Obligations.TileDealingGivesTheNextTile : Prop :=
  ∀ d im (s : State) m, let c := s.issue.core; let own := tget m.deal c (0, 0); let k := (s.core c).dealt; let cols := s.gridCols m
    s.clear (.tnext d im) → s.issue.ctx ≠ 4 → xOrZero d = true → s.domOf c = some m →
    (k < own.2 → Completes (.tnext d im) s (((s.onCore (fun co => { co with dealt := co.dealt + 1 })).putX d
      (w64 ((own.1 + k) / cols * 2 ^ 32 + (own.1 + k) % cols))).onCur (fun x => x.follow s.issue.addr x.eh.isEmpty))) ∧
    (own.2 ≤ k → Completes (.tnext d im) s (s.onCur (fun x => { x with pc := s.issue.addr + wi (4 * s.imm im), edge := none })))

/-- R62-R67, R301: TEND retires the context, SPAWN starts the lowest idle one, FAN sends start messages down the tree, GANG
queues a placeable record and TQPUSH a launch record for the commit. -/
def Obligations.ContextWordsStartAndEndWork : Prop :=
  (∀ s : State, s.clear .tend → s.inHandler = false →
    (s.retire s.issue.core s.issue.ctx).issue = s.issue → Completes .tend s (s.retire s.issue.core s.issue.ctx)) ∧
  (∀ d a b (s s1 s2 t : State) pc arg, let c := s.issue.core; let x := s.cur
    s.clear (.spawn d a b) → s.issue.ctx ≠ 4 → aBad d [a, b] = false → Gives (ahPop a) s pc s1 → Gives (ahPop b) s1 arg s2 → t.readsOk →
    ((∀ k < 4, (s.ctx c k).active = true) → Does (ahPush d (w64 (2 ^ 64 - 1))) s2 t → Completes (.spawn d a b) s t) ∧
    ∀ k < 4, (s.ctx c k).active = false → (∀ j < k, (s.ctx c j).active = true) →
      Does (ahPush d (w64 k)) (s2.startCtx c k (startedCtx (pc.setWidth 64) (arg.setWidth 64) x.cpol x.retrymax x.dc x.mshare x.collbw)) t →
      Completes (.spawn d a b) s t) ∧
  (∀ a b (s s1 s2 : State) m pc arg, s.clear (.fan a b) → s.issue.ctx ≠ 4 → ahSrc a = true → ahSrc b = true → Gives (ahPop a) s pc s1 →
    Gives (ahPop b) s1 arg s2 → s2.readsOk → s.domOf s.issue.core = some m →
    Completes (.fan a b) s (s2.pend ((m.children s.issue.core).map (fun k => .startMessage k (pc.setWidth 64) (arg.setWidth 64))))) ∧
  (∀ d a (s s0 s1 t : State) x l key m, s.clear (.gang d a) → s.issue.ctx ≠ 4 → aBad d [a] = false → Gives (ahPop a) s x s0 →
    Gives (descRead x.toNat 128) s0 l s1 → (gangOf l).2 = false → t.readsOk →
    (s.core s.issue.core).domain = some key → s.domOf s.issue.core = some m →
    ((placeGroups m.members (gangOf l).1).isSome = true →
      Does (ahPush d 0) (s1.modDomain key (fun x => { x with gangs := x.gangs ++ [{ core := s.issue.core, groups := (gangOf l).1 }] })) t →
      Completes (.gang d a) s t) ∧
    ((placeGroups m.members (gangOf l).1).isSome = false → Does (ahPush d 1) s1 t → Completes (.gang d a) s t)) ∧
  ∀ d a (s s0 s1 t : State) x l key, s.clear (.tqpush d a) → s.issue.ctx ≠ 4 → aBad d [a] = false → Gives (ahPop a) s x s0 →
    Gives (descRead x.toNat 128) s0 l s1 → t.readsOk → (s.core s.issue.core).domain = some key →
    Does (ahPush d 0) (s1.modDomain key (fun x => { x with pushes := x.pushes ++ [(s.issue.core, l)] })) t → Completes (.tqpush d a) s t

/-! ### The execute half -/

/-- R124, R206: the two-source arithmetic of the execute half, of width W, sign-extended; CLZ, POPC and SEXT; SEL; quotient and
remainder, where a zero divisor gives all ones and the dividend, and sets IDZ. -/
def Obligations.ExecuteArithmeticWritesItsResult : Prop :=
  (∀ p ∈ executeAlu, ∀ d a b w, ExecuteWord (p.1 d a b w) (fun s => !s.gBad d [a, b]) (gPop a) (gPop b)
    (fun _ x y => gPush d (sext (widthOf w) (p.2.eval (widthOf w) x.toNat y.toNat)))) ∧
  (∀ d a w, ExecuteWord (.clz d a w) (fun s => !s.gBad d [a]) (gPop a) (pure ())
    (fun _ x _ => gPush d (sext (widthOf w) (leadingZeros (widthOf w) x.toNat)))) ∧
  (∀ d a w, ExecuteWord (.popc d a w) (fun s => !s.gBad d [a]) (gPop a) (pure ())
    (fun _ x _ => gPush d (sext (widthOf w) (popCount (widthOf w) x.toNat)))) ∧
  (∀ d a w, ExecuteWord (.sext d a w) (fun s => !s.gBad d [a]) (gPop a) (pure ()) (fun _ x _ => gPush d (sext (widthOf w) x.toNat))) ∧
  (∀ d a b w (s s1 s2 s3 t : State) c x y, s.clear (.sel d a b w) → gOnly d = true → s.gBad d [a, b] = false → Gives (gPop d) s c s1 →
    Gives (gPop a) s1 x s2 → Gives (gPop b) s2 y s3 → Does (gPush d (sext (widthOf w) (if c ≠ 0 then x else y).toNat)) s3 t →
    t.readsOk → Completes (.sel d a b w) s t) ∧
  ∀ p ∈ executeDivisions, ∀ d a b w (s s1 s2 t : State) x y, let n := widthOf w; let u := x.toNat % 2 ^ n; let v := y.toNat % 2 ^ n
    let q : Int := if v = 0 then -1 else if p.2.1 then (sval n u).tdiv (sval n v) else ((u / v : Nat) : Int)
    let r : Int := if v = 0 then (u : Int) else if p.2.1 then (sval n u).tmod (sval n v) else ((u % v : Nat) : Int)
    s.clear (p.1 d a b w) → s.gBad d [a, b] = false → Gives (gPop a) s x s1 → Gives (gPop b) s1 y s2 →
    Does (gPush d (sext n (wrap n (if p.2.2 then r else q)))) (s2.addFlags (if v = 0 then IDZ else 0)) t → t.readsOk →
    Completes (p.1 d a b w) s t

/-- R207, R208, R233: the immediate forms, the loads of an immediate, and FEAT. -/
def Obligations.ExecuteImmediatesWriteTheirResult : Prop :=
  (∀ p ∈ executeImm, ∀ d a im, ExecuteWord (p.1 d a im) (fun s => !s.gBad d [a]) (gPop a) (pure ())
    (fun s x _ => gPush d (w64 (p.2.eval 64 x.toNat (wi (s.imm im)).toNat)))) ∧
  (∀ d im, ExecuteWord (.li d im) (fun s => !s.gBad d []) (pure ()) (pure ()) (fun s _ _ => gPush d (wi (s.imm im)))) ∧
  (∀ d im, ExecuteWord (.lui d im) (fun _ => gOrZero d) (gPop d) (pure ())
    (fun s x _ => gPush d (w64 (bf (wi (s.imm im)) 0 32 * 2 ^ 32 + bf x 0 32)))) ∧
  ∀ d a t, ExecuteWord (.feat d a t) (fun s => !s.gBad d [a]) (do
      let x ← gPop a
      require (t == 0 || (x &&& ~~~ (Config.fset.setWidth 64)) == 0) 4 (x &&& ~~~ (Config.fset.setWidth 64))
      pure x) (pure ()) (fun _ x _ => gPush d (x &&& ~~~ (Config.fset.setWidth 64)))

/-- R213, R214: EPB puts one bit on the branch queue of 8; EBNZ branches on its operand. -/
def Obligations.ExecuteBranchesDecide : Prop :=
  (∀ a c (s s1 : State) x, s.clear (.epb a c) → s.ehSrc false a = true → Gives (gPop a) s x s1 → s1.readsOk → s1.cur.bq.length < 8 →
    Completes (.epb a c) s (s1.onCur (fun k => { k with bq := k.bq ++
      [if c = 0 then x != 0 else if c = 1 then x == 0 else if c = 2 then bit x 63 else bit x 0] }))) ∧
  ∀ a z o (s s1 : State) x, s.clear (.ebnz a z o) → s.ehSrc false a = true → Gives (gPop a) s x s1 → s1.readsOk →
    s1.issue.addr = s.issue.addr →
    (((x != 0) == (z == 1)) = true → Completes (.ebnz a z o) s (s1.onCur (fun c => { c with pc := s.issue.addr + wi (4 * s.imm o), edge := none }))) ∧
    (((x != 0) == (z == 1)) = false → (s1.onCur (fun c => c.follow s.issue.addr c.eh.isEmpty)).readsOk →
      Completes (.ebnz a z o) s (s1.onCur (fun c => c.follow s.issue.addr c.eh.isEmpty)))

/-- R131, R209-R212: the scalar floating point words write their lane's code and add its flags to FCSR. -/
def Obligations.FloatingPointWordsWriteTheirCodeAndFlags : Prop :=
  (∀ d a b r f, FloatPair (.fadd d a b r f) d a b (fun s => FpOp.add.lane (fmtOf f) (s.mode r.toNat 0)) ∧
    FloatPair (.fsub d a b r f) d a b (fun s => FpOp.sub.lane (fmtOf f) (s.mode r.toNat 0)) ∧
    FloatPair (.fmul d a b r f) d a b (fun s => FpOp.mul.lane (fmtOf f) (s.mode r.toNat 0))) ∧
  (∀ d a b f, FloatPair (.fmin d a b f) d a b (fun _ => pickLane false (fmtOf f)) ∧
    FloatPair (.fmax d a b f) d a b (fun _ => pickLane true (fmtOf f))) ∧
  (∀ d a b o f, FloatPair (.fsgn d a b o f) d a b (fun _ => signLane o.toNat (fmtOf f))) ∧
  (∀ d a b c f, FloatPair (.fcmp d a b c f) d a b (fun _ x y => (b2n (cmpLane c.toNat (fmtOf f) x y).1, (cmpLane c.toNat (fmtOf f) x y).2))) ∧
  (∀ d a f, FloatOne (.fclass d a f) d a (fun _ => classLane (fmtOf f))) ∧
  (∀ d a r f, FloatOne (.frnd d a r f) d a (fun s => integralLane (fmtOf f) (s.mode r.toNat 0))) ∧
  (∀ d a k t c r, FloatOne (.fcvt d a k t c r) d a (fun s => cvtLane s.anm k.toNat t.toNat c.toNat (s.mode r.toNat 0))) ∧
  ∀ d a b r f (s s1 s2 s3 t : State) c x y, let v := fmaLane (fmtOf f) (s.mode r.toNat 0) x.toNat y.toNat c.toNat
    s.clear (.fma d a b r f) → gOrZero d = true → s.gBad d [a, b] = false → Gives (gPop d) s c s1 → Gives (gPop a) s1 x s2 →
    Gives (gPop b) s2 y s3 → Does (gPush d (w64 v.1)) s3 t → t.readsOk → Completes (.fma d a b r f) s (t.addFlags v.2)

/-! ### Vectors -/

/-- R240, R243, R246: the masked lane instructions. -/
def Obligations.MaskedVectorWordsWriteTheirActiveLanes : Prop :=
  (∀ p ∈ vectorAlu, ∀ d a b m k w, VectorMasked (p.1 d a b m k w) d a b m k (widthOf w) (fun _ _ x y => (p.2.eval (widthOf w) x y, 0))) ∧
  (∀ d a b m k w, VectorMasked (.vfadd d a b m k w) d a b m k (fmtOf w).width (fun s j => FpOp.add.lane (fmtOf w) (s.mode 7 j)) ∧
    VectorMasked (.vfsub d a b m k w) d a b m k (fmtOf w).width (fun s j => FpOp.sub.lane (fmtOf w) (s.mode 7 j)) ∧
    VectorMasked (.vfmul d a b m k w) d a b m k (fmtOf w).width (fun s j => FpOp.mul.lane (fmtOf w) (s.mode 7 j)) ∧
    VectorMasked (.vfmin d a b m k w) d a b m k (fmtOf w).width (fun _ _ => pickLane false (fmtOf w)) ∧
    VectorMasked (.vfmax d a b m k w) d a b m k (fmtOf w).width (fun _ _ => pickLane true (fmtOf w))) ∧
  ∀ d a b m k w (s s1 s2 s3 s4 t : State) act c x y, let f := fmtOf w
    let r := (List.range (128 / f.width)).map (fun j =>
      fmaLane f (s.mode 7 j) (laneOf f.width x.toNat j) (laneOf f.width y.toNat j) (laneOf f.width c.toNat j))
    s.clear (.vfma d a b m k w) → gOrZero d = true → s.vBad d [a, b] = false → Gives (activeLanes m k f.width) s act s1 →
    Gives (vPop d) s1 c s2 → Gives (vPop a) s2 x s3 → Gives (vPop b) s3 y s4 →
    Does (vPush d (BitVec.ofNat 128 (mergeLanes f.width act (r.map (fun l => l.1)) (if k = 0 then c.toNat else 0)))) s4 t → t.readsOk →
    Completes (.vfma d a b m k w) s (t.addFlags (mergeFlags act (r.map (fun l => l.2))))

/-- R244-R249, R254, R258: comparisons, selection, signs, classes, reductions, scales and rotations. -/
def Obligations.VectorLaneWordsWriteTheirLanes : Prop :=
  (∀ d a b c w, VectorLanes (.vcmp d a b c w) d a b (widthOf w) (fun _ _ x y => (allOnes (widthOf w) (intCmp c.toNat (widthOf w) x y), 0))) ∧
  (∀ d a b c f, VectorLanes (.vfcmp d a b c f) d a b (fmtOf f).width
    (fun _ _ x y => (allOnes (fmtOf f).width (cmpLane c.toNat (fmtOf f) x y).1, (cmpLane c.toNat (fmtOf f) x y).2))) ∧
  (∀ d a b o f, VectorLanes (.vfsgn d a b o f) d a b (fmtOf f).width (fun _ _ => signLane o.toNat (fmtOf f))) ∧
  (∀ d a b r w, VectorLanes (.vrot d a b r w) d a b (widthOf w)
    (fun _ _ x y => (rotl (widthOf w) x (if r = 1 then widthOf w - y % widthOf w else y % widthOf w), 0))) ∧
  (∀ d a b m w (s s1 s2 s3 t : State) sel x y, let n := widthOf w
    s.clear (.vsel d a b m w) → s.vBad d [a, b] = false → Gives (rsRead (vAddr s.issue.view m.toNat) 16) s sel s1 →
    Gives (vPop a) s1 x s2 → Gives (vPop b) s2 y s3 →
    Does (vPush d (BitVec.ofNat 128 (packLanes n ((List.range (128 / n)).map (fun j =>
      if laneOf n sel j % 2 = 1 then laneOf n x.toNat j else laneOf n y.toNat j))))) s3 t → t.readsOk → Completes (.vsel d a b m w) s t) ∧
  (∀ d a f, VectorOne (.vfclass d a f) d a (fun _ => mapLanes (fmtOf f).width (classLane (fmtOf f)))) ∧
  (∀ d a o f, VectorOne (.vfred d a o f) d a (fun s v => tree (fun e x y => if o = 0 then FpOp.add.lane (fmtOf f) (s.mode 7 e) x y
    else pickLane (o != 1) (fmtOf f) x y) 0 8 (lanes (fmtOf f).width v))) ∧
  ∀ d a t f, VectorOne (.vscale d a t f) d a (fun s => chooseScale s.anm (fmtOf f) t.toNat)

/-- R248, R250, R255, R256: conversions by parts, the narrow formats, and dot products. -/
def Obligations.VectorConversionsWriteTheirPart : Prop :=
  (∀ d a p t c r, VectorPart (.vfcvt d a p t c r) d a none (typeWidth c.toNat) (typeWidth t.toNat) p.toNat
    (fun s _ j x => vcvtLane s.anm t.toNat c.toNat (s.mode r.toNat j) x)) ∧
  (∀ d a b p t f, VectorPart (.vqpack d a b p t f) d a (some b) (fmtOf f).width (narrowType t.toNat).width p.toNat
    (fun s y j x => packLane s.anm (fmtOf f) (narrowType t.toNat) (s.mode 7 j) (y.toNat % 256) x)) ∧
  (∀ d a b p t f, VectorPart (.vqunpk d a b p t f) d a (some b) (narrowType t.toNat).width (fmtOf f).width p.toNat
    (fun s y j x => unpackLane s.anm (narrowType t.toNat) (fmtOf f) (s.mode 7 j) (y.toNat % 256) x)) ∧
  ∀ d a b r t (s s1 s2 s3 u : State) c x y,
    let l := (List.range 4).map (fun j => dotLane s.anm (dotType t.toNat) (s.mode r.toNat j) (laneOf 32 x.toNat j) (laneOf 32 y.toNat j) (laneOf 32 c.toNat j))
    s.clear (.vdot d a b r t) → gOnly d = true → s.vBad d [a, b] = false → Gives (vPop d) s c s1 → Gives (vPop a) s1 x s2 →
    Gives (vPop b) s2 y s3 → Does (vPush d (BitVec.ofNat 128 (packLanes 32 (l.map (fun v => v.1))))) s3 u → u.readsOk →
    Completes (.vdot d a b r t) s (u.addFlags (l.foldl (fun f v => f ||| v.2) 0))

/-- R252, R253, R257: moves, splats, permutations, shuffles, slides, narrowing, widening, single lanes and mask counts. -/
def Obligations.VectorMovesPlaceTheirLanes : Prop :=
  (∀ d a b w k, VectorBoth (.vslide d a b w k) d a b (fun x y => packLanes (widthOf w) ((List.range (128 / widthOf w)).map
    (fun i => pairLane (widthOf w) x y (i + k.toNat))))) ∧
  (∀ d a b o w, o ≠ 4 → VectorBoth (.vshuf d a b o w) d a b (fun x y => packLanes (widthOf w) ((List.range (128 / widthOf w)).map
    (shuffle o.toNat (widthOf w) x y)))) ∧
  (∀ d a b w, VectorOne (.vshuf d a b 4 w) d a (fun _ x => (packLanes (widthOf w) ((List.range (128 / widthOf w)).map
    (fun i => laneOf (widthOf w) x (128 / widthOf w - 1 - i))), 0))) ∧
  (∀ d a b m w, VectorBoth (.vnarrow d a b m w) d a b (fun x y => packLanes (widthOf w)
    ((lanes (2 * widthOf w) x ++ lanes (2 * widthOf w) y).map (narrow m.toNat (widthOf w))))) ∧
  (∀ d a h g w, VectorOne (.vwiden d a h g w) d a (fun _ x => let n := widthOf w; let c := 128 / (2 * n)
    (packLanes (2 * n) ((List.range c).map (fun j => let v := laneOf n x (h.toNat * c + j); if g = 1 then wrap (2 * n) (sval n v) else v)), 0))) ∧
  (∀ d a m k w (s s1 s2 s3 t : State) act old x, let n := widthOf w
    s.clear (.vmov d a m k w) → s.vBad d [a] = false → Gives (activeLanes m k n) s act s1 → Gives (oldLanes d m k) s1 old s2 →
    Gives (vPop a) s2 x s3 → Does (vPush d (BitVec.ofNat 128 (mergeLanes n act (lanes n x.toNat) old))) s3 t → t.readsOk →
    Completes (.vmov d a m k w) s t) ∧
  (∀ d a m k w (s s1 s2 s3 t : State) act old x, let n := widthOf w
    s.clear (.vsplat d a m k w) → s.vBad d [] = false → s.ehSrc false a = true → Gives (activeLanes m k n) s act s1 →
    Gives (oldLanes d m k) s1 old s2 → Gives (gPop a) s2 x s3 →
    Does (vPush d (BitVec.ofNat 128 (mergeLanes n act (List.replicate (128 / n) (x.toNat % 2 ^ n)) old))) s3 t → t.readsOk →
    Completes (.vsplat d a m k w) s t) ∧
  (∀ d a b m k w (s s1 s2 s3 s4 t : State) act old x y, let n := widthOf w
    s.clear (.vperm d a b m k w) → s.vBad d [a, b] = false → Gives (activeLanes m k n) s act s1 → Gives (oldLanes d m k) s1 old s2 →
    Gives (vPop a) s2 x s3 → Gives (vPop b) s3 y s4 →
    Does (vPush d (BitVec.ofNat 128 (mergeLanes n act ((lanes n y.toNat).map (fun j => laneOf n x.toNat (j % (128 / n)))) old))) s4 t →
    t.readsOk → Completes (.vperm d a b m k w) s t) ∧
  (∀ d a w k, ExecuteWord (.vext d a w k) (fun s => s.ehSrc true a && s.ehDst false d) (vPop a) (pure ())
    (fun _ x _ => gPushV d (sext (widthOf w) (laneOf (widthOf w) x.toNat k.toNat)))) ∧
  (∀ d a w k, ExecuteWord (.vins d a w k) (fun s => gOnly d && s.ehSrc false a) (vPop d) (gPop a)
    (fun _ old x => vPush d (BitVec.ofNat 128 (packLanes (widthOf w) ((List.range (128 / widthOf w)).map (fun j =>
      if j = k.toNat then x.toNat % 2 ^ widthOf w else laneOf (widthOf w) old.toNat j)))))) ∧
  (∀ d a m w, ExecuteWord (.vmpop d a m w) (fun s => s.ehDst false d && s.ehSrc true a) (activeLanes m 0 (widthOf w)) (vPop a)
    (fun _ act x => gPushV d (w64 (((List.range (128 / widthOf w)).map (fun j =>
      b2n (act.getD j false && laneOf (widthOf w) x.toNat j % 2 == 1))).sum)))) ∧
  ∀ d a m w, ExecuteWord (.vmfirst d a m w) (fun s => s.ehDst false d && s.ehSrc true a) (activeLanes m 0 (widthOf w)) (vPop a)
    (fun _ act x => gPushV d (w64 (((List.range (128 / widthOf w)).map (fun j =>
      act.getD j false && laneOf (widthOf w) x.toNat j % 2 == 1)).findIdx (fun p => p))))

/-! ### CORDIC, stamped words, the fused update, the register store by address -/

/-- R140-R149, R259, R260: the CORDIC words and the stamped words. -/
def Obligations.CordicAndStampedWordsWriteTheirResult : Prop :=
  (∀ d a n fn, let legal := fun (s : State) => decide (fn.toNat ≤ 10) && (fn != 2 || gOnly d) && !s.gBad d [a]
    ExecuteFlagged (.cord d a n fn) legal (gPop a) (if fn = 2 then gPop d else pure 0)
      (fun _ y x => gPushV d (w64 (cordLane fn.toNat n.toNat (bf y 0 32) (bf x 0 32)).1))
      (fun _ y x => (cordLane fn.toNat n.toNat (bf y 0 32) (bf x 0 32)).2)) ∧
  (∀ d a n fn, let legal := fun (s : State) => decide (fn.toNat ≤ 10) && (fn != 2 || gOnly d) && !s.vBad d [a]
    let l := fun (y x : W128) => (List.range 4).map (fun j => cordLane fn.toNat n.toNat (laneOf 32 y.toNat j) (laneOf 32 x.toNat j))
    ExecuteFlagged (.vcord d a n fn) legal (vPop a) (if fn = 2 then vPop d else pure 0)
      (fun _ y x => vPush d (BitVec.ofNat 128 (packLanes 32 ((l y x).map (fun v => v.1)))))
      (fun _ y x => (l y x).foldl (fun f v => f ||| v.2) 0)) ∧
  (∀ d a c, ExecuteFlagged (.sset d a c) (fun s => !s.gBad d [a]) (gPop a) (pure ())
    (fun s x _ => gPushV d (w64 (swMake (bf x 0 32) s.stamp24 c.toNat (notFinite (bf x 0 32)))))
    (fun _ x _ => flagIf (notFinite (bf x 0 32)) NF)) ∧
  (∀ d a, ExecuteFlagged (.sread d a) (fun s => !s.gBad d [a]) (gPop a) (pure ())
    (fun s x _ => gPushV d (w64 (swRead s.dcs x.toNat s.stamp24).1)) (fun s x _ => (swRead s.dcs x.toNat s.stamp24).2)) ∧
  (∀ d a b r, ExecuteFlagged (.sadd d a b r) (fun s => !s.gBad d [a, b]) (gPop a) (gPop b)
    (fun s x y => gPushV d (w64 (swAdd s.dcs s.stamp24 (s.mode r.toNat 0) x.toNat y.toNat).1))
    (fun s x y => (swAdd s.dcs s.stamp24 (s.mode r.toNat 0) x.toNat y.toNat).2)) ∧
  (∀ d a b r, ExecuteFlagged (.smrg d a b r) (fun s => !s.gBad d [a, b]) (gPop a) (gPop b)
    (fun s x y => gPushV d (w64 (swMerge s.dcs (s.mode r.toNat 0) x.toNat y.toNat).1))
    (fun s x y => (swMerge s.dcs (s.mode r.toNat 0) x.toNat y.toNat).2)) ∧
  (∀ d a, VectorOne (.vsread d a) d a (fun s => mapLanes 64 (fun w => swRead s.dcs w s.stamp24))) ∧
  (∀ d a b r, VectorLanes (.vsaddStamped d a b r) d a b 64 (fun s j => swAdd s.dcs s.stamp24 (s.mode r.toNat j))) ∧
  ∀ d a b r, VectorLanes (.vsmrg d a b r) d a b 64 (fun s j => swMerge s.dcs (s.mode r.toNat j))

/-- R251: VOPTW writes momentum, variance and weights of its four lanes together. -/
def Obligations.FusedUpdateWritesThreeRegisters : Prop :=
  ∀ d a b p (s s1 s2 s3 s4 s5 t1 t2 t3 : State) g w m v h, let view := s.issue.view
    let l := (List.range 4).map (fun j => optLane ((List.range 7).map (fun k => laneOf 32 h k)) (laneOf 32 w j) (laneOf 32 m j) (laneOf 32 v j)
      (laneOf 32 g.toNat j) (s.mode 7 j) (s.mode 7 (j + 4)) (s.mode 7 (j + 8)))
    s.clear (.voptw d a b p) → gOnly d = true → s.ehSrc true a = true → b.toNat ≤ 46 → p.toNat ≤ 44 → d ≠ b → d.toNat ≠ b.toNat + 1 →
    Gives (vPop a) s g s1 → Gives (rsRead (vAddr view d.toNat) 16) s1 w s2 → Gives (rsRead (vAddr view b.toNat) 16) s2 m s3 →
    Gives (rsRead (vAddr view (b.toNat + 1)) 16) s3 v s4 → Gives (rsRead (8 * p.toNat) 32) s4 h s5 → s5.readsOk →
    Does (rsWrite (vAddr view b.toNat) 16 (packLanes 32 (l.map (fun r => r.2.1)))) s5 t1 →
    Does (rsWrite (vAddr view (b.toNat + 1)) 16 (packLanes 32 (l.map (fun r => r.2.2.1)))) t1 t2 →
    Does (rsWrite (vAddr view d.toNat) 16 (packLanes 32 (l.map (fun r => r.1)))) t2 t3 → t3.readsOk →
    Completes (.voptw d a b p) s (t3.addFlags (l.foldl (fun f r => f ||| r.2.2.2) 0))

/-- R263: RSLD and RSST reach the register store by a byte address, mod 2,048 and aligned to their size. -/
def Obligations.RegisterStoreWordsReachTheirBytes : Prop :=
  (∀ d b o z (s s1 s2 t : State) base v, let n := 2 ^ z.toNat; let a := alignTo n ((base + wi (2 ^ z.toNat * s.imm o)).toNat % 2048)
    s.clear (.rsld d b o z) → gOrZero b = true → (if z = 4 then s.vBad d [] else s.gBad d []) = false → Gives (gPop b) s base s1 →
    Gives (rsRead a n) s1 v s2 → Does (if z = 4 then vPush d (BitVec.ofNat 128 v) else gPushV d (sext (8 * n) v)) s2 t → t.readsOk →
    Completes (.rsld d b o z) s t) ∧
  ∀ d b o z (s s1 s2 t : State) base v, let n := 2 ^ z.toNat; let a := alignTo n ((base + wi (2 ^ z.toNat * s.imm o)).toNat % 2048)
    s.clear (.rsst d b o z) → gOrZero b = true → s.ehSrc (z == 4) d = true → Gives (gPop b) s base s1 →
    Gives (if z = 4 then (do return (← vPop d).toNat) else (do return (← gPop d).toNat)) s1 v s2 → s2.readsOk →
    Does (rsWrite a n (v % 2 ^ (8 * n))) s2 t → t.readsOk → Completes (.rsst d b o z) s t

/-! ### Engines -/

/-- R267, R269-R272, R285: TVLD sets a tile view; MLOADN, MLOADW, MJOB and MSEND put a job on an engine's queue under the core's
next identifier, which is their result. -/
def Obligations.MatrixCommandsQueueAJob : Prop :=
  (∀ a n (s s1 : State) l, s.clear (.tvld a n) → xOnly a = true → Gives (descRead (s.xval a).toNat 32) s l s1 → s1.unread →
    viewBad l = false → Completes (.tvld a n) s (s1.onCore (fun c => { c with views := tput c.views n.toNat l }))) ∧
  (∀ west d n (s t : State), let i : Instr := if west then .mloadw d n else .mloadn d n; let c := s.issue.core
    s.clear i → s.ehDst false d = true → Does (viewsReady [n.toNat]) s s → Does (commandOrder (s.kind != 0) s.scope) s s →
    let j : Job := { core := c, cls := c % 8, load := true, west := west, stv := (s.core c).view n.toNat, flagsReq := s.kind, scope := s.scope, weight := bf s.cur.mshare 0 4 }
    (s.team (teamOf c)).queue.length < Config.jobQueue →
    Does (gPush d (w64 (s.core c).jobNext)) (s.submitted (teamOf c) j) t → t.readsOk →
    Completes i s t) ∧
  (∀ d a (s s1 s2 t : State) j, let c := s.issue.core; let key := (s2.team (teamOf c)).jobKey
    let group := if j.first then key else (s1.core c).group.getD 0
    s.clear (.mjob d a) → s.ehDst false d = true → a.toNat ≤ 46 → Gives (jobOfRegs a) s j s1 → s1.readsOk → s1.issue.core = c →
    jobBad j (s1.core c).rings (s1.core c).group.isSome = false → j.scope < 6 → Does (commandOrder (j.flagsReq != 0) j.scope) s1 s1 →
    (s1.team (teamOf c)).queue.length < Config.jobQueue → Gives (reserveJob j (teamOf c)) s1 true s2 → s2.issue.core = c →
    (s2.team (teamOf c)).queue.length < Config.jobQueue →
    Does (gPush d (w64 (s2.core c).jobNext)) ((s2.submitted (teamOf c) { j with cls := c % 8, group := group }).modCore c
      (fun x => { x with group := if j.final then none else some group })) t → t.readsOk → Completes (.mjob d a) s t) ∧
  ∀ d a b (s s1 s2 s3 t : State) j cap, let e := bf cap 0 10; let c := s.issue.core
    s.clear (.msend d a b) → s.ehDst false d = true → a.toNat ≤ 46 → s.ehSrc false b = true →
    Gives (jobOfRegs a) s j s1 → Gives (gPop b) s1 cap s2 → s2.readsOk → s2.issue.core = c →
    jobBad j (s2.core c).rings (s2.core c).group.isSome = false → j.first = true → j.final = true → j.acc = true → j.skind = 0 →
    j.dring = false → j.scope < 6 → Does (commandOrder (j.flagsReq != 0) j.scope) s2 s2 → (s2.team e).queue.length < Config.jobQueue →
    Gives (reserveJob j e) s2 true s3 → (s3.team e).queue.length < Config.jobQueue → s3.issue.core = c →
    Does (gPush d (w64 (s3.core c).jobNext)) (s3.submitted e { j with cls := 8, group := (s3.team e).jobKey, cap := cap }) t → t.readsOk →
    Completes (.msend d a b) s t

/-- R278, R280-R283: MWAIT and MPOLL give a job's record; MPUB, MSUB, MUNSUB, MCHAIN and MCAP manage streams, the lead span and
capabilities. -/
def Obligations.MatrixControlWordsReportAndConnect : Prop :=
  (∀ d a (s s1 t : State) x, s.clear (.mwait d a) → s.gBad d [a] = false → Gives (gPop a) s x s1 → s1.readsOk →
    bf (s1.jobRecord s.issue.core (bf x 0 16)) 0 2 = 3 → Does (gPush d (s1.jobRecord s.issue.core (bf x 0 16))) s1 t → t.readsOk →
    Completes (.mwait d a) s t) ∧
  (∀ d a, ExecuteWord (.mpoll d a) (fun s => !s.gBad d [a]) (gPop a) get
    (fun s x t => gPush d (t.jobRecord s.issue.core (bf x 0 16)))) ∧
  (∀ d a n (s t : State), let c := s.issue.core; let k := clusterOf c; let v : View := (s.core c).view n.toNat
    s.clear (.mpub d a n) → s.ehDst false d = true → Does (viewsReady [n.toNat]) s s → Does (commandOrder (s.kind != 0) s.scope) s s → v.rows ≤ 128 → v.fmt ≠ 0 →
    ((tfind (s.cluster k).streams a.toNat).isSome = true → Does (gPush d 1) s t → t.readsOk → Completes (.mpub d a n) s t) ∧
    (tfind (s.cluster k).streams a.toNat = none → ((s.cluster k).streams.map (fun x => x.2.bytes)).sum + streamBytes v ≤ Config.replayStore →
      let st : Stream := { core := c, view := v, subscribed := s.subscribed k a.toNat, bytes := streamBytes v }
      Does (gPush d 0) ((s.modCluster k (fun x => { x with streams := tput x.streams a.toNat st })).pend [.streamPublishRead k a.toNat]) t →
      t.readsOk → Completes (.mpub d a n) s t)) ∧
  (∀ d a b (s s1 t : State) x, let e := teamOf s.issue.core
    s.clear (.msub d a b) → s.gBad d [b] = false → Gives (gPop b) s x s1 → s1.readsOk → s1.pointPassed true → 1 ≤ x.toNat → x.toNat ≤ 65535 →
    ((s1.team e).subs.any (fun y => y.sid == a.toNat) = true → Does (gPush d 1) s1 t → t.readsOk → Completes (.msub d a b) s t) ∧
    ((s1.team e).subs.any (fun y => y.sid == a.toNat) = false →
      Does (gPush d 0) ((s1.modTeam e (fun y => { y with subs := y.subs ++ [{ sid := a.toNat, left := x.toNat }] })).modCluster
        (clusterOf s.issue.core) (fun k => match tfind k.streams a.toNat with
          | some y => { k with streams := tput k.streams a.toNat { y with subscribed := true } }
          | none => k)) t → t.readsOk → Completes (.msub d a b) s t)) ∧
  (∀ a (s : State), let e := teamOf s.issue.core
    let t := ((s.modTeam e (fun y => { y with subs := y.subs.filter (fun z => z.sid != a.toNat) })).endStream (e / 16) a.toNat).pend [.matrixJobStart e]
    s.clear (.munsub a) → t.issue = s.issue → Completes (.munsub a) s t) ∧
  (∀ d a n (s s1 t : State) cap, let e := teamOf s.issue.core
    s.clear (.mchain d a n) → s.gBad d [a] = false → e % 16 = 0 → 1 ≤ n.toNat → n.toNat ≤ 4 → Gives (gPop a) s cap s1 → s1.readsOk → s1.pointPassed true →
    let keys := (List.range n.toNat).flatMap (fun i => (s1.team (e / 16 * 16 + i)).queue.map (fun j => j.key * 16 + i))
    (s1.capStatus e cap 4 = 0 →
      Does (gPush d 0) ((s1.modCluster (e / 16) (fun k => { k with chainNext := some (n.toNat, keys) })).linkChain (e / 16)) t → t.readsOk →
      Completes (.mchain d a n) s t) ∧
    (s1.capStatus e cap 4 ≠ 0 → Does (gPush d (w64 (s1.capStatus e cap 4))) s1 t → t.readsOk → Completes (.mchain d a n) s t)) ∧
  ∀ d a b (s s1 s2 t : State) x y, let low := bf x 0 18 + (s.tenantOf s.issue.core % 256) * 2 ^ 18 + bf y 0 16 * 2 ^ 26
    s.clear (.mcap d a b) → s.gBad d [a, b] = false → Gives (gPop a) s x s1 → Gives (gPop b) s1 y s2 → s2.readsOk →
    bf x 13 51 = 0 → bf y 16 48 = 0 →
    Does (gPush d (w64 (low + (Config.capCheck (s.capKey s.issue.core) (BitVec.ofNat 42 low)).toNat * 2 ^ 42))) s2 t → t.readsOk →
    Completes (.mcap d a b) s t

/-- R286, R287: MHND names the row a handler context holds; MDONE drops it, or writes it to the job's target, and lets it go. -/
def Obligations.HandlerWordsNameAndReleaseTheRow : Prop :=
  (∀ d (s t : State) r j, s.clear (.mhnd d) → s.issue.ctx = 4 → s.ehDst false d = true → s.cur.row = some r →
    (s.team r.team).jobs.find? (fun j => j.key == r.job) = some j →
    Does (gPush d (w64 (r.row + 65536 * j.id + (if j.cls = 8 then 2 ^ 35 else 2 ^ 32 * (j.core % 8))))) s t → t.readsOk →
    Completes (.mhnd d) s t) ∧
  (∀ app m (s : State) r j, s.clear (.mdone 1 app m) → s.issue.ctx = 4 → s.cur.unwritten.isEmpty = true →
    s.cur.row = some r → (s.team r.team).jobs.find? (fun j => j.key == r.job) = some j → (s.endRow s.issue.core).issue = s.issue →
    Completes (.mdone 1 app m) s (s.endRow s.issue.core)) ∧
  ∀ app m (s s0 s1 t : State) r j mask row, let w : Actor := { core := s.issue.core, cluster := clusterOf s.issue.core }
    s.clear (.mdone 0 app m) → s.issue.ctx = 4 → s.cur.unwritten.isEmpty = true →
    s.cur.row = some r → (s.team r.team).jobs.find? (fun j => j.key == r.job) = some j →
    Gives (if app = 1 then rsRead (vAddr s.issue.view m.toNat) 16 else pure (2 ^ 128 - 1)) s mask s0 →
    Gives (rsRead (16 * bf s.issue.view 8 7) 512) s0 row s1 → s1.readsOk →
    s1.finishRow w r.team j r.row r.pos (fun n => mask.testBit n) (fun n => row >>> (32 * n) % 2 ^ 32) = .ok t →
    (t.endRow s.issue.core).readsOk → Completes (.mdone 0 app m) s (t.endRow s.issue.core)

/-- R288-R290: BGEMV starts a near-bank command under the core's next identifier; BWAIT gives the record of a completed one. -/
def Obligations.NearBankWordsStartAndReport : Prop :=
  (∀ d a (s s1 s2 u t : State) lo hi, let c := s.issue.core
    let b : Bank := { ctx := s.issue.ctx, w0 := w64 lo, w1 := w64 (lo >>> 64), w2 := w64 hi, w3 := w64 (hi >>> 64) }
    let g := sideGlobal b.w3; let id := (s2.core c).bankNext
    let s3 := s2.onCore (fun x => { x with bankNext := (id + 1) % 2 ^ 16 })
    let lines := s3.sideLines c g (sideBase b.w3) 0 1 (4 * b.nvec * b.m)
    let r := if lines.any (u.deltaLine c g) then u.takeSeq c else (0, u)
    s.clear (.bgemv d a) → s.ehDst false d = true → a.toNat ≤ 46 → Gives (rsRead (vAddr s.issue.view a.toNat) 16) s lo s1 →
    Gives (rsRead (vAddr s.issue.view (a.toNat + 1)) 16) s1 hi s2 → s2.issue.core = c → b.bad = false → b.scope < 6 →
    b.region % 65536 = 0 → (g = true → sideBase b.w3 % 8 = 0) → (sideGlobal b.w2 = true → sideBase b.w2 % 8 = 0) →
    (∃ p e, s.xlate (s.tenantOf c) (w64 b.region) .read = .ok p 3 e) → Does (commandOrder (b.order != 0) b.scope) s2 s2 →
    ((s2.core c).banks.filter (fun x => x.state != 3)).length < Config.bankInFlight →
    s3.reserveAll c g (lines.map w64) = .ok u → u.issue.core = c → u.readsOk →
    Does (gPush d (w64 id)) ((r.2.pend [.bgemvComplete c id, .nbuFault c id]).modCore c (fun x =>
      { x with banks := x.banks ++ [{ b with id := id, seq := r.1, state := 1 }] })) t → t.readsOk → Completes (.bgemv d a) s t) ∧
  ∀ d a (s s1 t : State) x, let r := (s1.core s1.issue.core).bankRecord (bf x 0 16)
    s.clear (.bwait d a) → s.gBad d [a] = false → Gives (gPop a) s x s1 → s1.readsOk → bf r 0 2 = 3 → Does (gPush d r) s1 t → t.readsOk →
    Completes (.bwait d a) s t

/-! ### Collectives, barriers, waits and fences -/

/-- R291-R295: COLL starts an operation in the lowest free slot of its die's engine, CWAIT waits for the operation that its identifier
names and gives its status, CSIG is a release store to a LIVE word. -/
def Obligations.CollectiveWordsStartReportAndSignal : Prop :=
  (∀ d a (s s1 : State) l slot, let c := s.issue.core; let dom := (s.core c).domain.getD 0
    let o : Coll := { vf := s.tenantOf c, dom := dom, core := c, words := l }; let n := tget (s.domain dom).collCount (dieOf c) 0
    s.clear (.coll d a) → xOrZero d = true → xOnly a = true → Gives (descRead (s.xval a).toNat 64) s l s1 → s1.unread → s1.pointPassed true →
    collBad o = false → (o.w 1).toNat % 8 = 0 → (o.w 3).toNat % 8 = 0 → (o.w 5).toNat % 8 = 0 → s.collFault o.vf o = none →
    s.collTagged dom o.tag = none → (s.die (dieOf c)).freeSlot = some slot →
    let o := { o with id := slot + 8 * (n % 8192) }
    Completes (.coll d a) s (((((s1.modDie (dieOf c) (fun x => { x with colls := tput x.colls slot o })).modDomain
      dom (fun m => { m with collCount := tput m.collCount (dieOf c) (n + 1) })).pend [.collStart (dieOf c) slot]).sendPosts o []).putX d (w64 o.id))) ∧
  (∀ d a (s : State), let c := s.issue.core; let dom := (s.core c).domain.getD 0; let id := bf (s.xval a) 0 16
    s.clear (.cwait d a) → xOrZero d = true → xOnly a = true →
    (∀ o, s.collNamed dom (dieOf c) id = .ended o → Completes (.cwait d a) s (s.putX d (w64 (o.status + 256 * o.count)))) ∧
    (s.collNamed dom (dieOf c) id = .unknown → Completes (.cwait d a) s (s.putX d (w64 255))) ∧
    (s.collNamed dom (dieOf c) id = .flying → Waits (.cwait d a) s [])) ∧
  ∀ a b sc (s s1 s2 u : State) x v p e, let addr : W64 := x.setWidth 64; let c := s2.issue.core; let id := (u.core c).accesses
    s.clear (.csig a b sc 2) → ahSrc a = true → ahSrc b = true → sc.toNat < 6 → Gives (ahPop a) s x s1 → Gives (ahPop b) s1 v s2 → s2.unread →
    s2.issue = s.issue → addr.toNat % 8 = 0 → s2.xlate (s2.tenantOf c) addr .write = .ok p 2 e →
    s2.gprepare c (s2.tenantOf c) addr = .ok (.posted, u) → u.issue = s2.issue →
    Completes (.csig a b sc 2) s ((u.modCore c (fun co => { co with accesses := id + 1, gstores := co.gstores ++
      [{ ctx := s.issue.ctx, id := id, seq := s.issue.seq, addr := addr, size := 8, data := BitVec.ofNat 128 (bf v 0 64),
         after := s2.cur.point.release (Nat.max 2 sc.toNat) id s.issue.seq }] })).pend [.globalAccessPerformed c])

/-- R25-R30, R302-R304: BAR makes its context wait on a bound slot and its core arrive when every context waits there; VOTE keeps
the largest vote; STEPADV keeps the largest request. -/
def Obligations.BarrierWordsWaitVoteAndRequest : Prop :=
  (∀ d a o sl (s s1 : State) v, let slot := sl.toNat; let i : Instr := .bar d a o sl
    let w := (s1.onCur (fun c => { c with await := .bar slot o.toNat (v.setWidth 64) d, barred := c.barred || slot == 0,
                                          barSlot := some (s.slot i) })).onCore (fun c => { c with lastBar := s.issue.ctx })
    s.clear i → s.inHandler = false → ahDst d = true → ahSrc a = true → s.slotBound s.issue.core slot = true →
    (slot = 0 → s.cur.residue = 0) → Gives (ahPop a) s v s1 → s1.unread → s1.cur.unwritten.isEmpty = true →
    (w.checkArrive w.issue.core).issue = s1.issue → Completes i s (w.checkArrive w.issue.core)) ∧
  (∀ a c k (s s1 : State) g, s.clear (.vote a c k) → (c = 1 → s.ehSrc false a = true) → Gives (if c = 1 then gPop a else pure 1) s g s1 →
    s1.readsOk → Completes (.vote a c k) s (if g ≠ (0 : W64) then s1.onCur (fun x => { x with vote := Nat.max x.vote k.toNat }) else s1)) ∧
  ∀ a (s s1 : State) g, s.clear (.stepadv a) → s.ehSrc false a = true → Gives (gPop a) s g s1 → bf g 48 16 = 0 →
    (s1.onCore (fun c => { c with stepReq := BitVec.ofNat 48 (Nat.max c.stepReq.toNat g.toNat) })).readsOk →
    Completes (.stepadv a) s (s1.onCore (fun c => { c with stepReq := BitVec.ofNat 48 (Nat.max c.stepReq.toNat g.toNat) }))

/-- R112, R113, R119, R305: the release part of FENCE makes the context's later stores wait for what its scope takes in, its acquire
part for nothing; FENCE.SC opens a fence, which takes its tick when the context's earlier accesses are performed and its position in
the SC order when the tick and the scope's margin have passed; FENCE.BANK goes on once earlier accesses and commands are done; WAIT goes
on once its condition holds and gives what it waited for. The model's choices: an acquire part that waits for nothing, because a load has
its value when it issues, what a release of core scope lends to the other contexts of the core, and the SC margin in whole ticks of the
heartbeat (log 53); one tick a step (log 3). -/
def Obligations.FencesAndWaitsGoOnWhenTheirConditionHolds : Prop :=
  (∀ sc (s : State), s.clear (.fence sc 1) → sc.toNat ≤ 5 → Completes (.fence sc 1) s s) ∧
  (∀ sc k (s : State), s.clear (.fence sc k) → sc.toNat ≤ 5 → k = 2 ∨ k = 3 → Completes (.fence sc k) s
    (s.onCur (fun c => { c.lend 2 sc.toNat (s.core s.issue.core).accesses with
      point := { c.point.release sc.toNat (s.core s.issue.core).accesses 0 with eh := 0 } }))) ∧
  (∀ sc (s : State), s.clear (.fenceSc sc) → sc.toNat ≤ 5 → Completes (.fenceSc sc) s (s.fencing sc.toNat)) ∧
  (∀ c k (s : State) f, (s.ctx c k).sc = some f →
    (f.tick = none → s.accessesDone c k f.seq = true →
      s.scFence c k = some ((s.modCtx c k (fun x => { x with sc := some { f with tick := some (s.hbt + 1) } })).pend [.scFence c k])) ∧
    (f.tick = none → s.accessesDone c k f.seq = false → s.scFence c k = none) ∧
    ∀ t, f.tick = some t → (s.hbt < t + scMargin f.scope → s.scFence c k = none) ∧
      (t + scMargin f.scope ≤ s.hbt → ∃ u, s.scFence c k = some u ∧ (u.ctx c k).sc = none ∧
        (u.ctx c k).scPos = some { tick := t, dev := s.plat.devNo.toNat, gcid := s.gcid c, ctx := k })) ∧
  (∀ s : State, s.clear .fenceBank → s.settledNow →
    (s.core s.issue.core).banks.all (fun b => b.ctx != s.issue.ctx || (b.state == 3 && b.out.isEmpty)) = true → Completes .fenceBank s s) ∧
  (∀ d a b sc (s t : State), s.clear (.wait d a b sc 0) → ahDst d = true → (s.core s.issue.core).mail ≠ [] →
    Does (ahPush d (w64 (s.core s.issue.core).mail.length)) s t → t.readsOk → Completes (.wait d a b sc 0) s t) ∧
  (∀ d a b sc (s t : State), let v := (s.core s.issue.core).chanSet &&& (b.toNat % 16)
    s.clear (.wait d a b sc 1) → ahDst d = true → v ≠ 0 → Does (ahPush d (w64 v)) s t → t.readsOk → Completes (.wait d a b sc 1) s t) ∧
  (∀ d a b sc (s s1 t : State) x, s.clear (.wait d a b sc 4) → ahDst d = true → ahSrc a = true → ahSrc b = true → Gives (ahPop b) s x s1 →
    (x.setWidth 64).toNat ≤ s.tick.toNat → Does (ahPush d s.tick) s1 t → t.readsOk → Completes (.wait d a b sc 4) s t) ∧
  ∀ c, c = 2 ∨ c = 3 → ∀ d a b sc (s s1 s2 s3 t : State) x y w, s.clear (.wait d a b sc c) → ahDst d = true → ahSrc a = true → ahSrc b = true →
    sc.toNat ≤ 5 → Gives (ahPop a) s x s1 → Gives (ahPop b) s1 y s2 → Gives (waitWord (x.setWidth 64)) s2 (.word w) s3 →
    (c = 2 → (y.setWidth 64).toNat ≤ w.toNat) → (c = 3 → w = y.setWidth 64) → Does (ahPush d w) s3 t → t.readsOk →
    Completes (.wait d a b sc c) s t

/-! ### CSRs, traps and loops -/

/-- R222-R225: CSRR reads the CSR that its number names; the writing forms write the operand, the OR or the AND-NOT with the old
value; MEMDIAG loses the bits written as 1, and ERRINJ takes a value where the paddock lets it. A CSR that is written reads as the
value afterwards, TSTATUS with its INH bit kept, one that is read only keeps its value, and every other CSR stays. -/
def Obligations.CsrWordsReadAndWriteTheirRegister : Prop :=
  (∀ d n (s t : State), s.clear (.csrr d n) → csrAssigned n.toNat = true → s.ehDst false d = true →
    Does (gPush d (s.csr s.issue.view s.issue.loops n.toNat)) s t → t.readsOk → Completes (.csrr d n) s t) ∧
  (∀ p ∈ csrForms, ∀ d n (s s1 : State) v, let old := s1.csr s1.cur.view s1.cur.loops n.toNat
    s.clear (p.1 d n) → csrAssigned n.toNat = true → s.ehSrc false d = true → Gives (gPop d) s v s1 → s1.readsOk →
    (n ≠ 0xC4 → n ≠ 0xC8 → n ≠ 0x61 → csrBad n.toNat (p.2.1 old v) = false →
      Completes (p.1 d n) s (s1.onCur (fun c => c.setCsr n.toNat (p.2.1 old v)))) ∧
    (n = 0xC4 → Completes (p.1 d n) s (s1.onCore (fun c => { c with memdiag := c.memdiag &&& ~~~(if p.2.2 then v else 0) }))) ∧
    (n = 0xC8 → csrBad 0xC8 (p.2.1 old v) = false →
      Completes (p.1 d n) s (if s1.injectable s1.issue.core then s1.onCur (fun c => { c with errinj := p.2.1 old v }) else s1)) ∧
    (n = 0x61 → csrBad 0x61 (p.2.1 old v) = false → Completes (p.1 d n) s ((s1.onCur (fun c => { c with collbw := p.2.1 old v })).modDie
      (dieOf s1.issue.core) (fun x => { x with collbw := p.2.1 old v })))) ∧
  (∀ n v (s : State), let t := s.onCur (fun c => c.setCsr n v)
    csrAssigned n = true → tsorted s.cur.dc = true →
    t.csrNow n = (if n = 0x24 then bput v 0 1 (b2n (bit s.cur.tstatus 0)) else if csrWritable.contains n then v else s.csrNow n) ∧
    ∀ m, csrAssigned m = true → m ≠ n → t.csrNow m = s.csrNow m) ∧
  ∀ v (s : State), let t := s.onCore (fun c => { c with memdiag := v })
    t.csrNow 0xC4 = v ∧ ∀ m, csrAssigned m = true → m ≠ 0xC4 → t.csrNow m = s.csrNow m

/-- R227-R229: a trap that goes to the handler saves its cause, its half, its address and its value, sets INH, sets aside
the unissued instructions, the queues, the fetch point and the loop levels, and goes on at four times TVEC.BASE; it leaves every
other register, and every other context, alone. -/
def Obligations.TrapsSaveTheirCauseAndGoToTheHandler : Prop :=
  ∀ (s : State) c k sl half first cause tval committed, let x := s.ctx c k
    x.handled cause (groupOf cause committed) = true → ∃ t, s.takeTrap c k sl half first cause tval committed = .done t ∧
      let y := t.ctx c k
      y.tcause = w64 (cause + if half = .eh then 256 else 0) ∧ y.tpc = w64 (bf first 0 55) ∧ y.tval = tval ∧
      y.pc = w64 (4 * bf x.tvec 2 53) ∧ y.tstatus = x.tstatus ||| 1 ∧ y.ah = [] ∧ y.eh = [] ∧ y.lq = [] ∧ y.sq = [] ∧ y.xq = [] ∧ y.bq = [] ∧
      y.loops = {} ∧ (∃ h, y.shadow = some h ∧ h.ah = x.ah ∧ h.eh = x.eh ∧ h.lq = x.lq ∧ h.sq = x.sq ∧ h.xq = x.xq ∧ h.bq = x.bq ∧
        h.pc = x.pc ∧ h.loops = x.loops ∧ h.trapped = sl) ∧
      y.x = x.x ∧ y.rs = x.rs ∧ y.walkers = x.walkers ∧ y.view = x.view ∧ y.fcsr = x.fcsr ∧ y.tvec = x.tvec ∧ y.tscr = x.tscr ∧ t.hbm = s.hbm ∧
      ∀ c2 k2, c2 ≠ c ∨ k2 ≠ k → t.ctx c2 k2 = s.ctx c2 k2

/-- R173, R226, R228: an encoding that is illegal, with its hint group, is taken as illegal-instruction by the execute half, with its
word as TVAL, whatever else it would do. -/
def Obligations.IllegalEncodingsTrapWithTheirWord : Prop :=
  ∀ (i : Instr) (s : State), (encode i).isSome = true ∨ (∃ w, i = .illegalInstruction w) → s.issue.ign = [] →
    badAtDecode s.issue.himm i = true → s.cur.handled 1 0 = true → exec i s = .next (s.trapsTo i .eh 1 (wordOf i)).quiet

/-- R228, R230-R232: TRAP and, with no debugger, DBRK trap with their immediate; with one the context stops at DBRK and at HALT; HALT
otherwise retires it; ERET outside a handler, and HALT or BAR inside one, are illegal instructions. -/
def Obligations.TrapHaltAndReturnWordsAct : Prop :=
  (∀ im (s : State), s.clear (.trap im) → s.cur.handled 17 0 = true →
    exec (.trap im) s = .next (s.trapsTo (.trap im) .eh 17 (wi (s.imm im))).quiet) ∧
  (∀ im (s : State), s.clear (.dbrk im) → s.cur.attached = false → s.cur.handled 16 0 = true →
    exec (.dbrk im) s = .next (s.trapsTo (.dbrk im) .eh 16 (wi (s.imm im))).quiet) ∧
  (∀ im (s : State), s.clear (.dbrk im) → s.cur.attached = true → Completes (.dbrk im) s (s.onCur (fun c => { c with await := .debugger }))) ∧
  (∀ s : State, s.clear .halt → s.cur.attached = true → Completes .halt s (s.onCur (fun c => { c with await := .debugger }))) ∧
  (∀ s : State, s.clear .halt → s.cur.attached = false → s.inHandler = false →
    (s.retire s.issue.core s.issue.ctx).readsOk → Completes .halt s (s.retire s.issue.core s.issue.ctx)) ∧
  (∀ s : State, s.clear .halt → s.cur.attached = false → s.inHandler = true → s.cur.handled 1 0 = true →
    exec .halt s = .next (s.trapsTo .halt .ah 1 (wordOf .halt)).quiet) ∧
  (∀ s : State, s.clear .eret → bit s.cur.tstatus 0 = false → s.cur.handled 1 0 = true →
    exec .eret s = .next (s.trapsTo .eret .ah 1 (wordOf .eret)).quiet) ∧
  ∀ d a o z (s : State), s.clear (.bar d a o z) → s.inHandler = true → s.cur.handled 1 0 = true →
    exec (.bar d a o z) s = .next (s.trapsTo (.bar d a o z) .ah 1 (wordOf (.bar d a o z))).quiet

/-- R230: ERET gives back the buffers, the queues, the fetch point and the loop levels that the trap set aside, with the
trapping instruction at the head of its half's buffer or, with SKIP set, without it, whether it has been delivered or its fetch
trapped; INH and SKIP become 0, and registers, walkers and VIEW stay. -/
def Obligations.ReturnRestoresWhatTheTrapSetAside : Prop :=
  ∀ (s : State) h, s.clear .eret → bit s.cur.tstatus 0 = true → s.cur.shadow = some h → (s.onCur Ctx.leaveHandler).readsOk →
    Completes .eret s (s.onCur Ctx.leaveHandler) ∧ let y := s.cur.leaveHandler
      y.tstatus = 0 ∧ y.shadow = none ∧ y.lq = h.lq ∧ y.sq = h.sq ∧ y.xq = h.xq ∧ y.bq = h.bq ∧
      y.x = s.cur.x ∧ y.rs = s.cur.rs ∧ y.walkers = s.cur.walkers ∧
      (h.trapped = none → y.ah = h.ah ∧ y.eh = h.eh ∧
        (bit s.cur.tstatus 1 = false → y.pc = h.pc ∧ y.hfirst = h.hfirst ∧ y.loops = h.loops ∧ y.view = s.cur.view) ∧
        (bit s.cur.tstatus 1 = true → y.hfirst = none ∧ y.himm = [] ∧ y.hmod = [] ∧ (h.loops.depth = 0 → y.pc = h.pc + 4))) ∧
      ∀ z, h.trapped = some z → (bit s.cur.tstatus 1 = false ∨ deferred z.instr = false → y.pc = h.pc ∧ y.loops = h.loops ∧ y.view = s.cur.view) ∧
        (bit s.cur.tstatus 1 = true → y.ah = h.ah ∧ y.eh = h.eh) ∧
        (bit s.cur.tstatus 1 = false → (halfIn z.iss.himm z.instr = .ah → y.ah = z :: h.ah ∧ y.eh = h.eh) ∧
          (halfIn z.iss.himm z.instr = .eh → y.ah = h.ah ∧ y.eh = z :: h.eh))

/-- R168-R171, R232, R234, R235, R237: a prefix and a modifier join the group of the next instruction; NOP, HSCHED and the
unassigned hints change nothing. -/
def Obligations.HintsJoinTheNextGroupAndNopDoesNothing : Prop :=
  (∀ p (s : State), s.clear (.himm p) → (s.onCur (fun c => { c with himm := c.himm ++ [p] })).readsOk →
    Completes (.himm p) s (s.onCur (fun c => { c with himm := c.himm ++ [p] }))) ∧
  (∀ e sd n c k (s : State), s.clear (.hmod e sd n c k) → (s.onCur (fun x => { x with hmod := x.hmod ++ [e ++ sd ++ n ++ c ++ k] })).readsOk →
    Completes (.hmod e sd n c k) s (s.onCur (fun x => { x with hmod := x.hmod ++ [e ++ sd ++ n ++ c ++ k] }))) ∧
  ∀ i, (i = .nop ∨ (∃ x k r l, i = .hsched x k r l) ∨ ∃ o p, i = .nopHint o p) → ∀ s : State, s.clear i → Completes i s s

/-- R216, R217, R219: a loop word opens a level at the next word, or jumps behind its body when it counts from 0; LBRK closes
levels and goes on behind the outermost of them. -/
def Obligations.LoopWordsOpenAndCloseLevels : Prop :=
  (∀ a im, LoopWord (.loop a im) (fun _ => xOnly a) (fun s => (s.imm im).toNat + 1) false 0 0 (fun s => s.xval a)) ∧
  (∀ im, LoopWord (.loopi im) (fun _ => true) (fun s => (s.imm im).toNat % 256 + 1) false 0 0 (fun s => w64 ((s.imm im).toNat / 256))) ∧
  (∀ f w im, LoopWord (.loopw f w im) (fun _ => true) (fun s => (s.imm im).toNat + 1) true w.toNat f.toNat (fun _ => 0)) ∧
  ∀ n (s : State), s.clear (.lbrk n) → n ≠ 0 → n.toNat ≤ s.cur.loops.depth → Completes (.lbrk n) s (s.onCur (fun c =>
    { c with loops := c.loops.setDepth (s.cur.loops.depth - n.toNat), pc := s.cur.loops.exit (s.cur.loops.depth - n.toNat), edge := none }))

/-! ### Steps of the device -/

/-- R121, R191, R34, R41, R64, R430, R225, R232: walkers fetch ahead and write what they hold, requests and deltas reach their
homes, a word is delivered, contexts start by message, and the debugger holds and frees them. The model's choices: a fetched walker
element is kept as a count only, and a store walker's oldest held element is written first (log 14); detaching lets a stopped context go
on (log 55); the order of a core's requests (log 53). -/
def Obligations.CoreAndNetworkStepsRun : Prop :=
  (∀ c k w (s : State), let y := tget (s.ctx c k).walkers w {}; let e := y.index.toNat + y.fetched; let l := s.locate c (y.addr e) y.size
    let t := s.modCtx c k (fun x => { x with walkers := tmod x.walkers w {} (fun z => { z with fetched := z.fetched + 1 }) })
    (s.ctx c k).active = true → y.active = true → y.store = false → y.fetched < 8 → e < y.count → (∀ i j, l ≠ .absent i j) →
    (s.core c).busy l y.size = false → s.heldOver c k l y.size = false →
    exec (.walkerFetch c k w) s = .next t.quiet) ∧
  (∀ c k w (s : State) h r, let p := h.split c
    let t := s.modCtx c k (fun x => { x with walkers := tmod x.walkers w {} (fun z => { z with held := p.2.toList ++ r }) })
    s.walkerHeld c k w = h :: r → s.afterDone c k h.after = true → exec (.walkerStoreWrite c k w) s =
        .next ((t.writeHeld c p.1).pend (if p.2.isSome || !r.isEmpty then [.walkerStoreWrite c k w] else [])).quiet ∧
      ∀ u, p.1.loc ≠ .unconf → t.lwriteAt c p.1.loc p.1.size (p.1.data.toNat % 2 ^ (8 * p.1.size)) (some p.1.seq) = .ok u → t.writeHeld c p.1 = u) ∧
  (∀ c (s t : State) g, let l := s.requestsFree c
    l[Config.performChoice s.fresh % l.length]? = some g → { s with fresh := s.fresh + 1 }.performReq c g = some t →
    exec (.globalAccessPerformed c) s =
      .next ((t.nudge c).pend ((if (t.core c).gstores.isEmpty then [] else [.globalAccessPerformed c]) ++ t.collWaiting)).quiet) ∧
  (∀ c (s s1 : State) g f k e, let v := s.tenantOf c; let n := Nat.min g.size 8
    let rest : List GReq := if g.size = 16 then [{ g with size := 8, addr := g.addr + 8, data := g.data >>> 64 }] else []
    let u := s1.modCore c (fun x => { x with gstores := x.gstores.flatMap (fun h => if h.id = g.id then rest else [h]) })
    let w := (u.lookup c v g.addr false).scrubLine f
    s.cross (dieOf c) (homeDie f) = some s1 → (g.load = false → s.xlate v g.addr .write = .ok f k e →
      s.performReq c g = some (u.performGlobal v g.addr n (g.data.toNat % 2 ^ (8 * n)) (2 ^ n - 1))) ∧
    (g.load = true → s.xlate v g.addr .read = .ok f k e → w.poisonAt f = false →
      s.performReq c g = some (w.loadPart c g.ctx g.seq g.part (w.greadAt f n) none))) ∧
  (∀ c q (s u : State), let l := (s.core c).flight.filter (fun d => d.seq == q); let t := l.foldl State.landDelta u
    l ≠ [] → l.foldlM State.crossDelta (s.modCore c (fun x => { x with flight := x.flight.filter (fun d => d.seq != q) })) = some u → exec (.deltaArrive c q) s = .next ((t.nudge c).pend ((t.core c).copies.map (fun x => .copyVisible c x.id))).quiet) ∧
  (∀ c pc arg (s : State) d, s.domOf c = some d → d.members.contains c = true →
    exec (.startMessage c pc arg) s = .next (if (s.core c).started then s else s.startLaunched c pc arg).quiet) ∧
  (∀ c k (s t : State) w, let pc := (s.ctx c k).pc; let r := t.delivered c k pc (instrOf w)
    (s.core c).turns k = true → (s.ctx c k).mayDeliver = true → (s.ctx c k).edge = none → s.fetch c pc = .word w t →
    isHint (instrOf w) = false → exec (.fetchDeliver c k) s = .next (r.2.modCtx c k (fun x => x.append r.1)).quiet) ∧
  (∀ c k on (s : State), c < Config.cores → k < 5 → (on = true → (s.vf (s.tenantOf c)).locked = false) →
    exec (.debuggerAttach c k on) s = .next (s.modCtx c k (fun x =>
      { x with attached := on, await := if !on && x.await == .debugger then .running else x.await })).quiet) ∧
  ∀ c k (s : State), (s.ctx c k).active = true → (s.ctx c k).await = .debugger →
    exec (.debuggerResume c k) s = .next (s.modCtx c k (fun x => { x with await := .running })).quiet

/-- R369, R370, R373, R374, R376: walks, bring-up and scrubbing of pages, and the commands of the tier engine, which end with a RESULT. -/
def Obligations.TierEngineStepsRun : Prop :=
  (∀ c p w (s : State) f k e, s.xlate (s.tenantOf c) (w64 (p * 65536)) (if w then .write else .read) = .ok f k e →
    exec (.translationWalk c p w) s = .next (s.walk c (s.tenantOf c) (w64 (p * 65536)) w).quiet) ∧
  (∀ v p (s u : State) e f, tfind (s.vf v).pages p = some e → pteV e = true → pteTier e ≠ 0 → s.backingGone v e = false ∨ Config.pageLost v p = true →
    s.frameFor (s.vf v).node (if pteClass e = 3 then some (ptePch e) else none) = some (f, u) →
    ∃ (t : State) (b : Nat), b ≤ 1 ∧ exec (.pageBringUp v p) s = .next t.quiet ∧
      tfind (t.vf v).pages p = some (bput (bput (bput (bput e 5 2 0) 34 30 f) 17 1 0) 15 1 b)) ∧
  (∀ v p (s : State) e, tfind (s.vf v).pages p = some e → pteV e = true → pteTier e ≠ 0 → s.backingGone v e = true → Config.pageLost v p = false →
    ∃ t : State, exec (.pageBringUp v p) s = .next t.quiet ∧ tfind (t.vf v).pages p = some (bput e 0 1 0)) ∧
  (∀ f (s : State) x, tfind s.plat.frames f = some x → ∃ t : State, exec (.backgroundScrub f) s = .next t.quiet ∧
    (tget t.plat.frames f {}).orphan = 0) ∧
  (∀ s t : State, let v := s.teVf; let p := s.teAddr / 2 ^ 16; let e := s.teVal
    s.commandIs 1 → s.teLevel = 2 → pteBad 2 e = false → pteV e = true → tfind (s.vf v).pages p = none →
    (tfind (s.vf v).bigs (s.teAddr / 2 ^ 29)).any pteV = false →
    pteKey e = (s.vf v).keyid ∨ pteKey e = 0 → (pteKey e = 0 → pteClass e = 2 ∨ pteClass e = 4) →
    (s.performIssued v).addTables v 2 s.teAddr = some t →
    exec .setpte s = .next (((t.setPage v p (bput e 5 2 3)).dropCached v p).teDone 0).quiet) ∧
  (∀ (s u : State) p e, s.commandIs 2 → (s.vf s.teVf).runs = false → s.tePages = [p] → tfind (s.vf s.teVf).pages p = some e → pteV e = true →
    pteTier e ≠ 0 → s.bringUp s.teVf p = some u → exec .fetch s = .next (u.teDone 0).quiet) ∧
  (∀ s : State, s.commandIs 3 → (s.vf s.teVf).runs = false → s.teLevel = 1 ∨ s.teLevel = 2 →
    exec .evict s = .next ((s.tePages.foldl (fun s p => (s.evictPage s.teVf p (some s.teLevel)).getD s) s).teDone 0).quiet) ∧
  (∀ (s u : State) f, s.commandIs 4 → s.teAddr % 8 = 0 → s.teLen = 8 → (s.vf s.teVf).locked = false → (s.vf s.teVf).runs = false →
    s.hostWord .write s.teVf s.teAddr = (u, f, 0) → exec .hwrite s =
      .next ((((u.hwrite f 8 (u.hostRead s.teVal.toNat 8)).notePoison f 8 255).modPte s.teVf (w64 s.teAddr) (fun e => e ||| 0x20000#64)).teDone 0).quiet) ∧
  (∀ (s u : State) f, s.commandIs 5 → s.teAddr % 8 = 0 → s.teLen = 8 → (s.vf s.teVf).locked = false → (s.vf s.teVf).runs = false →
    s.hostWord .read s.teVf s.teAddr = (u, f, 0) → exec .hread s = .next ((u.hostWrite s.teVal.toNat 8 (u.hread f 8)).teDone 0).quiet) ∧
  ∀ s : State, s.commandIs 6 → s.teNode ≠ 0 → s.teVal.toNat ≤ s.freeOf s.teNode →
    exec .shres s = .next ((s.modNode s.teNode (fun x => { x with shres := s.teVal.toNat })).teDone 0).quiet

/-- R69, R274, R276, R280, R282: the matrix engine starts a job of the class whose turn it is, drains its rows to their handlers or
their target, and completes it; rows are forwarded along a chain, and a stream's rows are read. -/
def Obligations.MatrixEngineStepsRun : Prop :=
  (∀ e (s u : State) c j, let w := s.weight e j
    let t := s.modTeam e (fun x => { x with served := c, deficit := tmod x.deficit c 0 (fun d => d + 64 * w) })
    ((List.range 9).map (fun i => ((s.team e).served + 1 + i) % 9)).find? (fun c => match (s.team e).head c with
      | some j => s.canStart e j
      | none => false) = some c → (s.team e).head c = some j → t.jobReady e j = true → j.cost ≤ tget (t.team e).deficit c 0 → t.startJob e j = .ok u →
    exec (.matrixJobStart e) s = .next ((u.modTeam e (fun x => { x with deficit := tmod x.deficit c 0 (fun d => d - j.cost) })).serve e c 32).1.quiet) ∧
  (∀ e (s : State) j m, let vals := fun n => (tget ((s.team e).bufferOf j.group) (m * 128 + n) 0).toNat
    let after : List Chore := [.drainRow e, .matrixJobComplete e, .matrixJobStart e]
    s.nextRow e = some (j, m) → j.dring = false →
    (∀ h, j.handlerOf m = some h → exec (.drainRow e) s = .next (((((s.rowOut e j m).modJob e j.key (fun y => { y with busyRows := y.busyRows + 1 })).modCtx
      (e * 8 + h) 4 (fun y => y.takeRow j { team := e, job := j.key, row := m, pos := 0 } vals))).pend after).quiet) ∧
    ∀ u, j.handlerOf m = none → s.finishRow (j.actor e) e j m 0 (fun _ => true) vals = .ok u →
      exec (.drainRow e) s = .next (((u.rowOut e j m).modJob e j.key (fun y => { y with rows := y.rows + 1 })).pend after).quiet) ∧
  (∀ e (s : State) j, (s.team e).jobs.find? (fun j => j.finished && (!s.leads e || (s.team e).chainRows.isEmpty)) = some j →
    exec (.matrixJobComplete e) s = .next (((s.modJob e j.key (fun x => { x with state := 3 })).nudge j.core).pend [.matrixJobComplete e]).quiet) ∧
  (∀ k (s : State) r rest, let n := (s.cluster k).chain; let es := (List.range n).drop 1
    (s.team (k * 16)).chainRows = r :: rest → 2 ≤ n → es.all (fun i => decide ((s.team (k * 16 + i)).chainRows.length < 128)) = true →
    exec (.chainForward k) s = .next ((es.foldl (fun s i => s.modTeam (k * 16 + i) (fun x => { x with chainRows := x.chainRows ++ [r] }))
      (s.modTeam (k * 16) (fun x => { x with chainRows := rest }))).pend
        ([.chainForward k, .matrixJobComplete (k * 16), .matrixJobStart (k * 16)] ++ es.map (fun i => .matrixJobStart (k * 16 + i)))).quiet) ∧
  ∀ k n (s u : State) st rows, let v : View := st.view
    tfind (s.cluster k).streams n = some st → st.read = false →
    ((List.range v.rows).mapM (fun r => readRow { core := st.core, cluster := k } v v r v.cols)).run s = .ok (rows, u) →
    exec (.streamPublishRead k n) s = .next ((u.modCluster k (fun c => { c with streams := tput c.streams n { st with rows := rows, read := true } })).pend
      ((List.range 16).map (fun i => .matrixJobStart (k * 16 + i)))).quiet

/-- R92, R100, R120, R196, R262, R288, R289, R292: the copy unit raises a copy's events once its rows have moved, or enters its fault into
containment; a page-fetch element starts and lands; a near-bank command ends, and its results are written after its end has been
reported (R119).
A collective operation starts when its ready word has reached RVAL, ends at once where its device is the only
participant, and fails the devices it waits for too long. -/
def Obligations.CopyBankAndCollectiveStepsRun : Prop :=
  (∀ c id (s t : State) k, s.runCopy c id = some (k, .done t) → s.copyTurn c k = true →
    ((∀ n x, k.kind ≠ .sweep n x) → exec (.copyReusable c id) s = .next (t.raiseReusable c k).quiet) ∧
    ∀ n x, k.kind = .sweep n x →
      (t.copyLanded c k = true → exec (.sweepComplete c id) s = .next ((t.raiseReusable c k).raiseVisible c k).quiet) ∧
      (t.copyLanded c k = false → k.row < k.rows → exec (.sweepComplete c id) s =
        .next (((t.modCore c (fun co => co.modCopy id (fun y => { y with row := k.rows }))).tookTurn c k).pend [.sweepComplete c id]).quiet)) ∧
  (∀ c id (s : State) k, (s.core c).copyOf id = some k → k.reusable = true → s.copyLanded c k = true →
    exec (.copyVisible c id) s = .next (s.raiseVisible c k).quiet) ∧
  (∀ c id (s u : State) k j f a, let r := s.faultRows c k (s.deltaLines c k) k.zeroing k.row (k.rows - k.row); let w := r.1.tookTurn c k
    s.runCopy c id = some (k, .fault j f a u) → s.copyTurn c k = true →
    (r.2 = none → exec (.copyFault c id) s = .next (w.modCore c (fun co => { co with
      copies := co.copies.filter (fun x => x.id != id), ranges := co.ranges.filter (fun x => x.id != id) })).quiet) ∧
    ∀ n z, r.2 = some (n, z) → let v := w.modCore c (fun co => co.modCopy id (fun y => { y with row := n, zeroing := z }))
      ((∀ m x, k.kind ≠ .sweep m x) → exec (.copyFault c id) s =
        .next (if n = k.rows then v.raiseReusable c { k with begun := true } else v.pend (copyChores c k)).quiet) ∧
      ∀ m x, k.kind = .sweep m x → exec (.copyFault c id) s = .next (v.pend (copyChores c k)).quiet) ∧
  (∀ e (s : State) h x, let t := (s.elemLooks h x 0).modTeam e (fun y => { y.modElem x.id (fun z => { z with started := true }) with
      lastWasElem := true
      promoted := if y.promoted = some x.id then none else y.promoted })
    (s.team e).nextElem = some (h, x) → (s.team e).lastWasElem = false ∨ (s.team e).promoted = some x.id ∨ s.copyReady e = false →
    s.elemCheck h x = .copy → exec (.pfeRun e) s = .next ((t.winState (clusterOf h.core) x.dwin 2).pend [.pfeLand e, .pfeRun e]).quiet) ∧
  (∀ e (s : State) h x, (s.team e).running = some (h, x) → (x.last = true → x.next = 0) →
    (s.elemCheck h x = .copy →
      exec (.pfeLand e) s = .next ((((s.elemLooks h x 0).fillRows h x false).landElem e h { x with skipped := false }).pend [.pfeRun e]).quiet) ∧
    (s.elemCheck h x = .skipped → exec (.pfeLand e) s = .next (((s.elemLooks h x 0).landElem e h { x with skipped := true }).pend [.pfeRun e]).quiet)) ∧
  (∀ c id (s u : State) b st fl out, (s.core c).bankOf id = some b → (runBank c b).run s = .ok ((st, fl, out), u) →
    exec (.bgemvComplete c id) s = .next (u.endBank c id st fl out).quiet) ∧
  (∀ c id (s u : State) b, let t := s.modCore c (fun x => { x with banks := x.banks.map (fun y => if y.id == id then { y with out := y.out.drop 1 } else y) })
    (s.core c).banks.find? (fun x => x.id == id && !x.out.isEmpty) = some b →
    t.writeResults { core := c, cluster := clusterOf c } b [(b.out.headD 0, b.nvec * b.m / 2 - b.out.length)] = .ok u →
    s.bankOut c id = .ok ((u.nudge c).pend [.bankWrite c id])) ∧
  (∀ c id (s : State) b k a, (s.core c).bankOf id = some b → (runBank c b).run s = .error (.fault k a) → exec (.nbuFault c id) s =
    .next ((s.contain 1 c none 0 (groupOf k (!s.meetsWorking c k a)) (sourceOf k a) (logKind k) (logAddr k a)).1.endBank c id 9 0 []).quiet) ∧
  (∀ d n (s t u : State) o v l, let w := u.modDie d (fun x => { x with colls := tput x.colls n { o with started := true, own := l } })
    s.coll d n = some o → o.started = false → s.yielded o.dom = false → s.vread o.core o.vf (o.w 3) 8 = .ok (v, t) → (o.w 4).toNat ≤ v →
    t.readBucket o = .ok (l, u) → exec (.collStart d n) s =
      .next ((w.sendPosts o l).pend [.collComplete d n]).quiet) ∧
  (∀ d n (s : State) o, s.coll d n = some o → o.started = true → s.yielded o.dom = false → s.participants o.dom = [s.plat.devNo.toNat] →
    s.collWaits o ((o.results [o.own] 0).map (fun e => o.w 1 + w64 (o.size * e.1)) ++ (if o.w 5 = 0#64 then [] else [o.w 5])) = [] →
    exec (.collComplete d n) s = .next (((o.results [o.own] 0).foldl (fun s e =>
      s.performAs o.core o.vf (o.w 1 + w64 (o.size * e.1)) o.size e.2 (2 ^ o.size - 1)) s).collEnd d n o 0 1).quiet) ∧
  ∀ d n (s : State) o, let late := (s.participants o.dom).filter (fun p => !s.hasPosted o p)
    s.coll d n = some o → o.started = true → s.collLimit o ≤ o.ticks → late ≠ [] → exec (.collTimeout d n) s =
      .next ((s.modDie d (fun x => { x with ceTmo := satAdd x.ceTmo 1 })).pend (late.map (fun p => .deviceFailed o.dom p))).quiet

/-- R27-R30, R33, R36, R40, R47: a drained core arrives with its pennant; pennants are taken up where they combine; a poll is sent and
answered; a core with an early abort parks and sends EARLY-ABORT, and one that has arrived sends it and stays (the model's reading of R53,
log entry 25); at the root the watchdog aborts the attempt, with no reduction (rval = 0 is log entry 21). -/
def Obligations.BarrierArrivalStepsRun : Prop :=
  (∀ c slot d (s : State) m, let p := s.arrival c slot (s.domain d)
    (s.core c).domain = some d → s.domOf c = some m → (s.core c).phase = .drain → (s.core c).slot = slot → (s.core c).early = none →
    s.drained c = true → (slot = 0 → (s.core c).chanSet = 0) → exec (.coreArrive c slot) s =
      .next (((s.modCore c (fun x => { x with phase := .arrived, arrived := s.hbt })).modDomain d (fun y =>
        if slot = 0 then { y with inbox := y.inbox ++ [p], arrivals := tput y.arrivals c p }
        else y.joinInst slot (unitOf ((s.domain d).levels.getD (slot - 1) 0) c) p)).pend [.risingPennant d]).quiet) ∧
  (∀ d (s t : State), (s.domain d).live = true →
    (∃ p r, (s.domain d).inbox = p :: r ∧ t = (s.modDomain d (fun m => { m with inbox := r })).takePennant d p) ∨
      (s.domain d).inbox = [] ∧ s.advanceInsts d = some t →
    exec (.risingPennant d) s =
      .next (if !(t.domain d).inbox.isEmpty || (t.domain d).insts.any (t.instReady (t.domain d)) then t.pend [.risingPennant d] else t).quiet) ∧
  (∀ d (s : State) x n, (s.domain d).root = some x → (s.domain d).decision = none → (s.domain d).pollAt = some n → n ≤ s.hbt →
    exec (.pollTimer d) s = .next (((s.modDomain d (fun m => { m with root := none, nodes := [], pollAt := none, polling := m.parties })).sendDown
      d 9 {}).pend ((s.domain d).parties.map (fun p => .poll d p))).quiet) ∧
  (∀ d who (s : State), let t := s.modDomain d (fun m => { m with polling := m.polling.erase who })
    (s.domain d).polling.contains who = true →
    ((∀ c, who ≠ .core c) → exec (.poll d who) s = .next t.quiet) ∧
    ∀ c p, let q : Pennant := { p with type := 2, pend := (s.core c).sent }
      who = .core c → tfind (t.domain d).arrivals c = some p → exec (.poll d who) s =
        .next ((t.modDomain d (fun m => { m with arrivals := tput m.arrivals c q, inbox := m.inbox ++ [q] })).pend [.risingPennant d]).quiet) ∧
  (∀ c d (s : State) g x, let m := s.domain d
    let p : Pennant := { domid := m.id, ssn := m.ssn, vote := 2, margin := (s.core c).margin, type := 1, acause := g, sgcid := s.gcid c,
                         stick := BitVec.ofNat 32 s.hbt, nidx := m.base + indexOf m.members c, att := m.att % 256, budget := s.abortBudget c m }
    (s.core c).early = some (g, x) → (s.core c).domain = some d → m.live = true → m.decision = none → (s.core c).voted = false →
    ((s.core c).phase = .run ∨ (s.core c).phase = .gather ∨ (s.core c).phase = .drain →
      exec (.corePark c) s = .next (((s.modCore c (fun co => { co with phase := .park })).modDomain d
        (fun m => { m with inbox := m.inbox ++ [p] })).pend [.risingPennant d]).quiet) ∧
    ((s.core c).phase = .arrived → exec (.corePark c) s = .next (((s.modCore c (fun co => { co with voted := true })).modDomain d
        (fun m => { m with inbox := m.inbox ++ [p] })).pend [.risingPennant d]).quiet)) ∧
  ∀ d (s : State), let m := s.domain d; let r := s.unreduced d {}
    m.live = true → m.decision = none → m.wdRun = true → m.wdBudget ≤ m.wdCount → s.parentDev d = none →
    r.rval = 0 ∧ exec (.watchdogExpiry d) s = .next (s.decideAbortOf d 7 0 (m.strag.getD (0, 0)) r true).quiet

/-- R24, R27, R37, R39, R42, R43: each member and home carries a decision out and reports, an abort's homes after its cores; with every report in
the decision ends, and members run on; a phase barrier lets its members pass. A commit empties the undo log, the pools' and stores' deltas and
the accumulators, advances SSN and STEP, restarts CONSEC and ATT and retains every item of R43 that a core holds; an abort gives them back,
puts the undo log's lines back, discards deltas, shadow pages, pending WINSETs and STEPADV, and counts. That CONSEC is kept modulo 256 is log
entry 59. -/
def Obligations.BarrierDecisionStepsRun : Prop :=
  (∀ d (s : State) x, let m := s.domain d
    m.decision = some x →
    (x.dec ≠ 2 →
      (∀ c, m.done.contains (.core c) = false → m.parties.contains (.core c) = true → (s.core c).phase = .arrived →
        exec (.decideCommit d (.core c)) s = .next ((s.commitCore x c).reportDone d (.core c)).quiet) ∧
      (∀ k, m.done.contains (.cluster k) = false → m.parties.contains (.cluster k) = true →
        exec (.decideCommit d (.cluster k)) s = .next ((s.commitCluster k).reportDone d (.cluster k)).quiet) ∧
      ∀ k, m.done.contains (.die k) = false → m.parties.contains (.die k) = true → s.deltaWaits k m.vf = [] →
        exec (.decideCommit d (.die k)) s = .next ((s.commitDie d k).reportDone d (.die k)).quiet) ∧
    (x.dec = 2 →
      (∀ c, m.done.contains (.core c) = false → m.parties.contains (.core c) = true → (s.core c).takesAbort = true →
        exec (.decideAbort d (.core c)) s = .next ((s.abortCore (some x) c).reportDone d (.core c)).quiet) ∧
      (∀ k, m.done.contains (.cluster k) = false → m.parties.contains (.cluster k) = true → (∀ c ∈ m.members, .core c ∈ m.done) →
        exec (.decideAbort d (.cluster k)) s = .next ((s.abortCluster k).reportDone d (.cluster k)).quiet) ∧
      ∀ k, m.done.contains (.die k) = false → m.parties.contains (.die k) = true → (∀ c ∈ m.members, .core c ∈ m.done) →
        exec (.decideAbort d (.die k)) s = .next ((s.abortDie d k).reportDone d (.die k)).quiet) ∧
    let t := (if x.dec = 2 then s.finishAbort d x else s.finishCommit d x).modDomain d (fun n =>
      { n with last := { decision := x, ssn := m.ssn, att := m.att % 256 }, held := (s.parentDev d).isSome })
    (∀ p ∈ m.parties, p ∈ m.done) → s.awaitsDevices d = false → exec (.donePennant d) s = .next (match s.parentDev d with
      | some up => t.sendFlit up 3 (t.domain d).epoch
          { domid := (t.domain d).id, ssn := m.ssn, type := 3, att := m.att % 256, sgcid := t.gcid 0 : Pennant }.words
      | none => ((t.modDomain d (fun n => { n with held := false, doneDevs := [] })).sendDown d 10 { x with stepinc := 0 }).goOn d x).quiet) ∧
  (∀ c x (s : State), let t := (s.commitCore x c).core c
    t.undo = [] ∧ t.undoRes = [] ∧ t.chanSet = 0 ∧ t.phase = .commit ∧ t.keep = t.image ∧
    ∀ k op v a, k < 4 → (s.ctx c k).await = .bar 0 op v a → let y := (s.commitCore x c).ctx c k
      y.await = .running ∧ y.barres = x.rval ∧ y.bstrag = x.bstrag ∧ y.bstat = x.bstat 0) ∧
  (∀ k (s : State), let t := s.commitCluster k; let y := t.cluster k
    y.logged = [] ∧ y.deltas = [] ∧ y.pending = [] ∧ y.reserved = 0 ∧ y.keepWins = y.wins ∧
    ∀ i, i < 16 → (t.team (16 * k + i)).buf0 = {} ∧ (t.team (16 * k + i)).buf1 = {} ∧ (t.team (16 * k + i)).tile = (s.team (16 * k + i)).tile) ∧
  (∀ d k (s : State), ∀ y ∈ ((s.commitDie d k).die k).deltas, ∀ v a, y.target = .page v a → v ≠ (s.domain d).vf) ∧
  (∀ d x (s : State), let m := s.domain d; let n := (s.finishCommit d x).domain d
    n.ssn = m.ssn + 1 ∧ n.step = m.step + x.stepinc ∧ n.consec = 0 ∧ n.att = 0 ∧ n.pseqs = [] ∧ n.total = m.total) ∧
  (∀ c x (s : State), (s.abortCore (some x) c).core c = ((s.settleCommands c).core c).restore (some x)) ∧
  (∀ (c : Core) x, let t := c.restore (some x); let z := fun k => tget c.keep.ctxs k {}
    t.undo = [] ∧ t.chanSet = 0 ∧ t.ranges = [] ∧ t.copies = [] ∧ t.stepReq = 0 ∧ t.flight = [] ∧ t.phase = .restore ∧
    t.rings = c.keep.rings ∧ t.views = c.keep.views ∧ t.dealt = c.keep.dealt ∧ t.started = c.keep.started ∧ t.mail = c.keep.mail ∧
    (∀ k, k < 5 → (t.ctx k).x = (z k).x ∧ (t.ctx k).rs = (z k).rs ∧ (t.ctx k).walkers = (z k).walkers ∧ (t.ctx k).pc = (z k).pc ∧
      (t.ctx k).active = (z k).active ∧ (t.ctx k).fcsr = (z k).fcsr ∧ (t.ctx k).view = (z k).view ∧ (t.ctx k).loops = (z k).loops ∧
      (t.ctx k).tvec = (z k).tvec ∧ (t.ctx k).tcause = (z k).tcause ∧ (t.ctx k).tpc = (z k).tpc ∧ (t.ctx k).tval = (z k).tval ∧
      (t.ctx k).tstatus = (z k).tstatus ∧ (t.ctx k).tscr = (z k).tscr ∧ (t.ctx k).cpol = (z k).cpol ∧ (t.ctx k).retrymax = (z k).retrymax ∧
      (t.ctx k).dc = (z k).dc ∧ (t.ctx k).mshare = (z k).mshare ∧ (t.ctx k).collbw = (z k).collbw) ∧
    (tsorted c.tcm = true → (c.undo.map (fun l => l.1)).Nodup → ∀ l ∈ c.undo, ∀ i, i < 64 → tget t.tcm (64 * l.1 + i) 0 = byteOf l.2.toNat i)) ∧
  (∀ k (s : State), let t := s.abortCluster k; let y := t.cluster k
    y.logged = [] ∧ y.deltas = [] ∧ y.pending = [] ∧ y.reserved = 0 ∧
    ∀ i, i < 16 → (t.team (16 * k + i)).buf0 = {} ∧ (t.team (16 * k + i)).buf1 = {} ∧ (t.team (16 * k + i)).tile = none) ∧
  (∀ d k (s : State), let t := s.abortDie d k
    (∀ y ∈ (t.die k).deltas, ∀ v a, y.target = .page v a → v ≠ (s.domain d).vf) ∧
    ∀ y, y ∈ t.plat.shadows ↔ y ∈ s.plat.shadows ∧ y ∉ s.shadowsOf (s.domain d).vf k) ∧
  (∀ d x (s : State), let m := s.domain d; let n := (s.finishAbort d x).domain d
    n.total = m.total + 1 ∧ n.ssn = m.ssn ∧ n.step = m.step ∧ n.pushes = [] ∧ n.gangs = [] ∧
    (x.acause = 9 → n.att = m.att ∧ n.consec = m.consec) ∧
    (x.acause ≠ 9 → n.att = (m.att + 1) % 256 ∧ (x.esc = false → n.consec = (m.consec + 1) % 256))) ∧
  (∀ c d (s : State), let m := s.domain d; let t := (s.clearMargin c).modCore c (fun x => { x with recs := [], banks := [] })
    (s.core c).domain = some d → m.live = true → m.decision = none → m.held = false → (s.core c).phase = .commit ∨ (s.core c).phase = .restore →
    exec (.resume c) s = .next (if (t.vf m.vf).records.any (fun r => r.domain == (t.core c).domain && r.state == .saving)
      then (t.modCore c (fun x => { x with phase := .yielded })).pend [.saveSignal c]
      else if (t.core c).early.isSome then (t.modCore c (fun x => { x with phase := .run })).pend [.corePark c]
      else (t.modCore c (fun x => { x with phase := .run })).checkArrive c).quiet) ∧
  ∀ c slot d (s : State) x y, let z : PhaseInst := { x with left := x.left.erase c }
    let t := (s.modCore c (fun co => { co.modGeneral (fun k => k.pass y slot) with phase := .run })).modDomain d (fun m =>
      { m with insts := if z.left.isEmpty then m.insts.erase x else m.insts.map (fun q => if q == x then z else q) })
    (s.core c).domain = some d → (s.domain d).live = true → (s.core c).phase = .arrived → (s.core c).slot = slot →
    (s.domain d).insts.find? (fun x => x.slot == slot && x.decision.isSome && x.left.contains c) = some x → x.decision = some y →
    exec (.decideProceed c slot) s = .next (if (t.core c).early.isSome then t.pend [.corePark c] else t).quiet

/-- R354, R358-R363, R365: a post is stored or turned away with its RESULT; a cancel, the queue's head, the selection, the gate and the drop of
recompute buffers; the paddock tree, the paddock's registers and a VF's binding change when their conditions hold; a register read gives what
the host wrote to a read-write field, and zero at an unlisted or write-only offset and from a function that is not bound. -/
def Obligations.LaunchAndPaddockStepsRun : Prop :=
  (∀ v x (s : State), let r := recOf v ((List.range 16).map (fun i => w64 (gather (fun a => tget (s.vf v).slots a 0) (128 * bf x 0 8 + 8 * i) 8))) false
    (s.vf v).node ≠ 0 → bf x 8 56 = 0 → exec (.lwpost v x) s = .next (if s.recCheck v r = 0 then (s.storeRecord v r).modVf v
      (fun t => { t with posted := t.posted + 1, result := 0 }) else s.modVf v (fun t => { t with posted := t.posted + 1, result := s.recCheck v r })).quiet) ∧
  (∀ v x (s : State) r, (s.vf v).node ≠ 0 → (s.vf v).exported = none → (s.vf v).unretired (bf x 0 16) = some r →
    (∀ d, r.state = .running → r.domain = some d → exec (.lwcancel v x) s = .next (s.modDomain d (fun m => { m with cancel := true })).quiet) ∧
    (r.state = .ready ∨ r.state = .waiting → r.domain = none →
      exec (.lwcancel v x) s = .next ((s.endRecord v r.order 4 0 0 0).pend [.launchSelect (s.vf v).node]).quiet)) ∧
  (∀ v x (s : State), let t := s.vf v; let gone := t.written.filter (fun e => passed t.cqHead.toNat (bf x 0 16) t.cqSize e.1)
    t.node ≠ 0 → exec (.lwcqhead v x) s = .next (((s.modVf v (fun t => { t with
      cqHead := BitVec.ofNat 16 (bf x 0 16)
      written := t.written.filter (fun e => !gone.contains e)
      records := t.records.map (fun r => if (r.state == .ended || r.replay) && gone.any (fun e => e.2.2 && e.2.1 == r.lid) then { r with retired := true } else r) })).modVf
        v Vf.prune).flushCompletions v).quiet) ∧
  (∀ n (s : State) v r, (s.node n).state = .active → (s.node n).running = none → s.nodeBusy n = false → s.plat.warm = false →
    s.bestOf (s.candidates n) = some (v, r) → let p := ((s.vf v).replayFor r (s.vf v).records.length).getD r
    (∀ d, p.domain = some d → (s.domain d).members.any s.coreAbsent = true → exec (.launchSelect n) s = .next (s.endLaunch d 2 15).quiet) ∧
    ((∀ d, p.domain = some d → (s.domain d).members.any s.coreAbsent = false) →
      let t := s.modRec v p.order (fun q => { q with state := .gating, replay := q.replay || p.order != r.order, sel := s.effective r })
      exec (.launchSelect n) s =
        .next ((t.makeRoom n (t.wsetChores v).length (t.wsetChores v).length).pend (t.wsetChores v ++ [.gatePass n])).quiet)) ∧
  (∀ n (s t : State) v r, s.gating n = some (v, r) → s.plat.warm = false → s.gateOpen v r = true → s.admission n v r = .ok t →
    exec (.gatePass n) s = .next (t.pend [.launchSelect n]).quiet) ∧
  (∀ n (s : State), (s.node n).running = none → s.freeOf n < bf (s.node n).pmem 16 15 * 1024 → s.droppable n ≠ [] →
    exec (.recomputeDrop n) s = .next (s.dropUntil n (s.droppable n).length).quiet) ∧
  (∀ n (s : State), let child := fun (x : Node) => { x with state := .idle, scrub := (s.node n).scrub }
    0 < n → n < 64 → (s.node n).state = .idle → exec (.split n) s =
      .next ((((s.modNode (2 * n) child).modNode (2 * n + 1) child).modNode n (fun x => { x with state := .split })).nodeResult n 0).quiet) ∧
  (∀ n (s : State), let child := fun (x : Node) => { x with state := .covered }
    0 < n → (s.node n).state = .split → (s.node (2 * n)).state = .idle → (s.node (2 * n + 1)).state = .idle →
    (s.node (2 * n)).scrub = false → (s.node (2 * n + 1)).scrub = false → exec (.merge n) s =
      .next ((((s.modNode (2 * n) child).modNode (2 * n + 1) child).modNode n (fun x => { x with state := .idle, scrub := false })).nodeResult n 0).quiet) ∧
  (∀ n (s : State), 0 < n → (s.node n).state = .held → s.nodeLocked n = false → exec (.release n) s =
    .next ((((s.bound n).foldl State.unbind s).modNode n (fun x => { x with state := .idle, scrub := true })).clearScrub.nodeResult n 0).quiet) ∧
  (∀ n x (s : State),
    (bf x 48 16 = 0 → s.nodeLocked n = false →
      exec (.paddockConfigWrite n 0x10 x) s = .next ((s.modNode n (fun y => { y with ppol := x.setWidth 48 })).nodeResult n 0).quiet) ∧
    (bf x 5 3 = 0 → bf x 40 24 = 0 → bf x 0 4 ≠ 0 → (s.nodeLocked n = true → bit x 4 = false) →
      exec (.paddockConfigWrite n 0x18 x) s = .next ((s.modNode n (fun y => { y with pcfg := x })).nodeResult n 0).quiet) ∧
    (bit x 15 = false → bit x 31 = false → bf x 47 17 = 0 → bf x 16 15 ≤ bf x 32 15 → bf x 32 15 ≤ bf x 0 15 →
      exec (.paddockConfigWrite n 0x20 x) s = .next ((s.modNode n (fun y => { y with pmem := x })).nodeResult n 0).quiet) ∧
    ((s.node n).state ≠ .active →
      exec (.paddockConfigWrite n 0x30 x) s = .next ((s.modNode n (fun y => { y with ppool := BitVec.ofNat 16 (bf x 0 16) })).nodeResult n 0).quiet)) ∧
  (∀ v x (s : State), let n := bf x 0 7
    0 < v → v ≤ Config.vfs → bit x 7 = false → bf x 11 53 = 0 → n ≠ (s.vf v).node → (s.vf v).locked = false → (s.vf v).records = [] →
    ((s.vf v).node = 0 → (s.node n).state = .idle ∨ (s.node n).state = .active →
      exec (.vfBind v x) s = .next ((s.bind v n).modVf v (fun t => { t with bindResult := 0 })).quiet) ∧
    (n = 0 → exec (.vfBind v x) s = .next (((s.unbind v).afterUnbind (s.vf v).node).modVf v (fun t => { t with bindResult := 0 })).quiet)) ∧
  (∀ v off x (s : State), v ≤ Config.vfs → exec (.registerWrite v off x) s = .next (if v = 0 then s.writePf off x else s.writeVf v off x).quiet) ∧
  (∀ v off (s : State), 0 < v → (s.vf v).node = 0 ∨ s.plat.warm = true → s.registerRead v off = 0) ∧
  (∀ v (s : State), 0 < v → v ≤ Config.vfs → (s.vf v).node ≠ 0 → s.plat.warm = false → s.plat.safe = false →
    s.registerRead v 0x100010 = (s.vf v).cqBase ∧ s.registerRead v 0x100000 = 0 ∧ s.registerRead v 0x100030 = 0 ∧
    (∀ off, 0x100040 ≤ off → s.registerRead v off = 0)) ∧
  ∀ x (s : State), s.plat.safe = false → x &&& 0xFFF#64 = 0 → (s.writePf 0x10 x).registerRead 0 0x10 = x

/-- R361, R378-R389: a yielding launch is saved when its last core has signalled, and runs again from its area; a tenant is exported, imported
and confirmed, or its export given up; a warm reset runs, and paddocks resume; the module starts, with the number that Rovas assigns when
step 15 passes. That an import lands in one step is log entry 39, that a warm reset runs in one step log entry 40, and that a start sets
the heartbeat time to 0 and takes the number from its event log entry 41. -/
def Obligations.YieldMigrationAndStartStepsRun : Prop :=
  (∀ c d (s : State), let t := s.modDomain d (fun m => { m with saved := c :: m.saved, away := true })
    (s.core c).domain = some d → (s.core c).phase = .yielded → (s.domain d).saved.contains c = false → s.recIs d .saving = true →
    exec (.saveSignal c) s = .next (if (s.domain d).members.all (fun k => k == c || (s.domain d).saved.contains k)
      then (t.modLaunch d (fun r => { r with state := .copying })).pend [.copySaveDone d] else t).quiet) ∧
  (∀ d (s : State), s.recIs d .copying = true → exec (.copySaveDone d) s = .next (s.saveArea d).quiet) ∧
  (∀ d (s : State) a r, (s.vf (s.domain d).vf).areas.find? (fun a => a.domain == d) = some a →
    (s.vf (s.domain d).vf).records.find? (fun r => r.domain == some d && r.state == .restoring) = some r →
    exec (.restoreDone d) s = .next (if (s.domain d).cancel then s.endLaunch d 4 0 else s.restoreArea d a r).quiet) ∧
  (∀ s : State, let v := s.mgVf; let k := fun i => Config.freshKey (s.plat.draws + i)
    0 < v → v ≤ Config.vfs → (s.vf v).node ≠ 0 → (s.vf v).locked = false → (s.vf v).records.any Rec.busy = false → (s.vf v).exported = none →
    exec .exportTenant s = .next ((((((((s.modPlat (fun p => { p with draws := p.draws + 4 })).modVf v (fun t =>
      { t with exported := some { dev := s.mgDev, ticket := [k 0, k 1, k 2, k 3] } })).setPf 0x200020 (k 0)).setPf 0x200028 (k 1)).setPf
        0x200030 (k 2)).setPf 0x200038 (k 3)).mgDone 0)).quiet) ∧
  (∀ (s : State) x t, let v := s.mgVf
    let u := (t.pullRecords v x).modPlat (fun p => { p with
      foreign := p.foreign.filter (fun y => y.ticket != x.ticket)
      imported := BitVec.ofNat 32 x.mib
      vfs := p.vfs.map (fun y => (y.1, { y.2 with exported := y.2.exported.map (fun e => if e.ticket = x.ticket then { e with used := true } else e) })) })
    0 < v → v ≤ Config.vfs → (s.vf v).locked = false → (s.modPlat (fun p => { p with imported := 0 })).importCheck v = .ok (x, t) →
    exec (.importTenant true) s = .next ((u.pend [.launchSelect (u.vf v).node]).mgDone 0).quiet) ∧
  (∀ v (s : State) e, let t := s.vf v; let dropped : State := { s with
      domains := s.domains.map (fun (p : Nat × Domain) => if p.2.vf = v then (p.1, { p.2 with live := false }) else p)
      dies := s.dies.map (fun (p : Nat × Die) => (p.1, { p.2 with colls := p.2.colls.filter (fun o => o.2.vf != v) })) }
    t.exported = some e → (e.dev = s.plat.devNo.toNat → e.used = true) → exec (.importConfirm v) s = .next
      ((t.tables.foldl (fun s p => s.dropFrame p.2) (t.pages.foldl (fun s p => s.unmap v p.1) (t.bigs.foldl (fun s p => s.unmapBig v p.1)
        dropped))).modVf v (fun t => { t with
          records := [], waitingEntries := [], areas := [], pages := [], tables := [], backing := [], wset := [], wbigs := [], written := [],
          exported := none })).quiet) ∧
  (∀ (s : State) e, (s.vf s.mgVf).exported = some e → e.used = false → exec .abandon s =
    .next (((s.modVf s.mgVf (fun t => { t with exported := none })).pend [.launchSelect (s.vf s.mgVf).node]).mgDone 0).quiet) ∧
  (∀ k f (s : State), let t := s.runReset k f
    s.plat.safe = false → 0 < k → k ≤ 3 → (s.plat.warm = true → s.plat.wrCause = k ∧ s.plat.wrFail = f) →
    exec (.warmReset k f) s = .next (t.pend (t.plat.nodes.map (fun p => .launchSelect p.1) ++ t.heldDerates)).quiet) ∧
  (∀ x (s : State), let n := bf x 4 7
    bf x 0 4 = 2 → bf x 11 53 = 0 → (s.node n).state = .idle ∨ (s.node n).state = .active → exec (.wrcmdResume x) s =
      .next (((((s.modNode n (fun y => { y with selectable := true })).bound n).foldl (fun s v => s.modVf v (fun t =>
        { t with records := t.records.map (fun r => { r with preserved := false }) })) (s.modNode n (fun y => { y with selectable := true }))).modPlat
          (fun p => { p with wrResult := 0 })).pend [.launchSelect n]).quiet) ∧
  (∀ x (s : State) d, bf x 40 24 = 0 → (s.node (bf (s.pf 0x200200) 0 7)).running = some d → (s.domain d).wdBudget ≤ bf x 0 40 →
    exec (.wdbudget x) s = .next (s.modDomain d (fun m => { m with wdRaise := some (bf x 0 40) })).quiet) ∧
  (∀ x (s : State), s.plat.safe = false → ∃ t : State, exec (.start x) s = .next t.quiet ∧ t.cores = State.reset.cores ∧ t.hbt = 0 ∧
    t.plat.vfs = State.reset.plat.vfs ∧ t.plat.devNo = (if (s.runStep x.failing 15).outcome = 1 then BitVec.ofNat 12 x.dev else 0) ∧
    t.plat.steps = (List.range 16).map (fun i => (i + 1, s.runStep x.failing (i + 1))) ∧ t.plat.starts = (if s.plat.blank then 1 else s.plat.starts + 1) ∧
    (s.plat.warm = true → x = { dev := s.plat.devNo.toNat } → exec .warmResetOverrun s = .next t.quiet)) ∧
  ∀ s : State, exec .rovasCommand s = .next (s.modPlat (fun p => { p with safe := false })).quiet

/-- R397, R410, R415, R418, R419: a list is loaded; replays are counted and an excess is a margin event; speeds are lowered and units readmitted;
current and heat act on dies, with an entry in the error log (the model's reading of R415's sources, log 47); power commands apply to the node that is selected. -/
def Obligations.PowerSpeedAndLogStepsRun : Prop :=
  (∀ s : State, let job := bf (s.pf 0x308000) 0 32; let count := bf (s.pf 0x308010) 0 13
    let l := (List.range count).map (fun i => s.hostRead ((s.pf 0x308008).toNat + 2 * i) 2)
    job ≠ 0 → 0 < count → count ≤ 4096 → (s.pf 0x308008).toNat % 8 = 0 → (∀ d ∈ l, d < 4096) → rising l = true → s.jobBusy job = false →
    l.contains s.plat.devNo.toNat = true → exec .membershipLoad s = .next (s.modPlat (fun p =>
      { p with members := { job := job, devices := l, absent := ((s.membership job).getD {}).absent.filter l.contains } :: p.members.filter (fun m => m.job != job), mbResult := 0 })).quiet) ∧
  (∀ u (s : State),
    (u < Config.teams → (s.team u).marginCount ≠ s.engineLimit → exec (.timingReplay true u) s =
      .next (s.modTeam u (fun t => { t with replays := t.replays + 1, marginCount := t.marginCount + 1 })).quiet) ∧
    (u < Config.cores → let t := s.modCore u (fun c => { c with replays := c.replays + 1, marginCount := c.marginCount + 1 })
      exec (.timingReplay false u) s = .next (if (s.core u).marginCount = s.coreLimit then t.marginExcess u else t).quiet)) ∧
  (∀ d (s : State), d < Config.dies → (s.die d).stretched = false → let t := (s.modDie d (fun x => { x with stretched := true, clHit := true })).logEvent 11 d
    exec (.currentLimit d) s = .next (if (s.die d).clHit then t else t.modPlat (fun p => { p with pfVectors := p.pfVectors ||| 0x200#64 })).quiet) ∧
  (∀ d (s : State), (s.die d).stretched = true → exec (.currentFallsBack d) s = .next (s.modDie d (fun x => { x with stretched := false })).quiet) ∧
  (∀ u n (s : State), let b := BitVec.ofNat 8 (Nat.min n 255)
    (u < 16 → 105 ≤ n → exec (.thermalTrip true u n) s = .next ((s.logEvent 10 u).triggerReset 2 (w64 (2 ^ 64 - 1))).quiet) ∧
    (u < 4 → 115 ≤ n → exec (.thermalTrip false u n) s = .next (((s.modDie u (fun x =>
      { x with temp := b, tempMax := if x.tempMax < b then b else x.tempMax })).logEvent 10 u).triggerReset 2 (w64 (2 ^ 64 - 1))).quiet)) ∧
  (∀ b u (s : State), let x := s.speedOf b u
    (s.unitAbsent b u = false → u < (if b then Config.teams else Config.cores) → x.pending = true ∨ s.derateAt ≤ x.mean → s.nodeBusy (s.paddockOf (unitCluster b u)) = false →
      exec (.derate b u) s = .next (s.modSpeed b u (fun x => if x.code = 0 then { x with absent := true, pending := false }
        else { x with code := x.code - 1, derated := decide (x.code - 1 < x.binned), pending := false })).quiet) ∧
    (x.absent = true → s.nodeBusy (s.paddockOf (unitCluster b u)) = false → exec (.recoverySelfTest b u) s =
      .next (s.modSpeed b u (fun x => { x with absent := false, pending := false, trend := [], code := 0, derated := decide (x.binned ≠ 0) })).quiet)) ∧
  (∀ x (s : State), let n := bf (s.pf 0x420000) 0 7
    (s.node n).paddock = true →
    (bf x 3 61 = 0 → (bf x 0 3 = 7 → s.nodeBusy n = false) →
      exec (.pwcmd x) s = .next (s.modNode n (fun y => { y with powerNext := some (bf x 0 3), powerResult := 0 })).quiet) ∧
    (bit x 0 = false ∨ (s.node n).state = .idle →
      exec (.pwgate x) s = .next (s.modNode n (fun y => { y with egate := bit x 0, powerResult := 0 })).quiet)) ∧
  (∀ n k (s : State), (s.node n).powerNext = some k →
    exec (.powerStateApply n) s = .next (s.applyPower n k).quiet ∧ (s.applyPower n k).node n = { s.node n with power := k, powerNext := none }) ∧
  (∀ x (s : State), let down := ((List.range 16).map (fun k => if bit x k then 2 ^ k else 0)).sum
    (∀ k, k < 16 → bit x k = true → s.plat.lent.getLsbD k = false ∧ s.plat.frames.any (fun p => p.2.used && p.1 / 2 ^ 20 == k) = false) →
    exec (.pwhbm x) s = .next ((s.setPf 0x420020 (w64 down)).modNode (bf (s.pf 0x420000) 0 7) (fun n => { n with powerResult := 0 })).quiet) ∧
  ∀ x (s : State), exec (.elhead x) s = .next ((s.setPf 0x410010 (w64 (bf x 0 16))).flushLog).quiet

/-- R390-R396, R400: a flit in order is taken and one that fails is sent again; modules and ports retrain; an edge goes down; heartbeats keep
the master and SYNC; a failed device aborts its domain. The model's choices: the order in which a flit's CRC runs over its words and the
partner drawn at a port's training (log 43); the straggler (0, 0) of a membership change's DECIDE when none is recorded, and what a device
does that has become the parent of others (log 44); the reduction that this DECIDE carries (log 21). -/
def Obligations.LinkStepsRun : Prop :=
  (∀ e d q (s : State), let x := s.edge e
    let y := x.modDir d (fun z => { z with
      rxNext := q + 1
      acked := q + 1
      skipping := false
      nak := none
      buffer := z.buffer.filter (fun f => f.seq != q.toNat) })
    e < 4 → d < 2 → x.dead = false → q = (x.dir d).rxNext → q ≠ (x.dir d).txNext → (x.dir d).nak ≠ some q →
    ((y.dir d).worn = none → exec (.d2dFlitReceive e d q true) s = .next (s.modEdge e (fun _ => y)).quiet) ∧
    ∃ t : State, exec (.d2dFlitReceive e d q false) s = .next t.quiet ∧ ((t.edge e).dir d).nak = some q) ∧
  (∀ e d n (s : State), let x := s.edge e; let y := match (x.dir d).worn with | some f => x.retrain f.module | none => x
    let t := s.modEdge e (fun _ => y.modDir d (fun z => { z with
      nak := none
      rpl := satAdd z.rpl 1
      buffer := z.buffer.map (fun w => { w with module := y.again w.module }) }))
    (x.dir d).nak = some n → e < 4 → d < 2 → x.dead = false → exec (.d2dNak e d) s = .next (if y.dead then t.pend [.edgeDown e] else t).quiet) ∧
  (∀ e m (s : State), let x := s.edge e
    let y : Edge := { x with modules := tput x.modules m { (x.module m) with mstate := 3 }, dir0 := x.dir0.settle m, dir1 := x.dir1.settle m }
    x.carries m = true → (∃ f ∈ x.dir0.buffer ++ x.dir1.buffer, f.module = m ∧ 9 ≤ f.fails) → exec (.moduleRetrain e m) s =
      .next (if y.dead then (s.modEdge e (fun _ => y)).pend [.edgeDown e] else s.modEdge e (fun _ => y)).quiet) ∧
  (∀ e m l0 l1 (s : State), e < 4 → m < 8 → ((s.edge e).module m).mstate = 3 → (∀ l ∈ l0 ++ l1, l < 64) → ∃ t : State,
    exec (.moduleRetrainDone e m l0 l1) s = .next t.quiet ∧ (t.edge e).module m = ((s.edge e).module m).trained l0 l1) ∧
  (∀ e (s : State), e < 4 → (s.edge e).down = false → (s.edge e).dead = true → ∃ t : State, exec (.edgeDown e) s = .next t.quiet ∧
    (s.domains = [] → t = (s.modEdge e (fun x => { x with
      down := true
      dir0 := { x.dir0 with buffer := [], nak := none, skipping := false, acked := x.dir0.txNext, rxNext := x.dir0.txNext }
      dir1 := { x.dir1 with buffer := [], nak := none, skipping := false, acked := x.dir1.txNext, rxNext := x.dir1.txNext } })).detour e (s.edge e))) ∧
  (∀ k h l (s : State), let p := s.port k; let u := s.modPort k (fun p => { p with rxNext := p.rxNext + 1, skipping := false, fails := 0 })
    let t := if bf h 36 3 = 7 then u else u.sendControl k false
    k < 32 → p.state = 2 → h.setWidth 12 = p.rxNext → exec (.llynnalFlitReceive k h l (flitCrc (h :: l))) s = .next (
      if flitBad h l then (if bf h 36 3 = 3 then t.pennantLost else t.flitLost)
      else if bf h 12 12 ≠ t.plat.devNo.toNat then
        t.sendOut { src := some (bf h 24 12), dst := bf h 12 12, cls := bf h 36 3, lane := bf h 39 4, epoch := bf h 43 4, words := l }
      else t.takeFlit k h l).quiet) ∧
  (∀ k (s : State), (s.port k).state = 2 → 9 ≤ (s.port k).fails ∨ 9 ≤ (s.port k).naks → exec (.portRetrain k) s =
    .next (s.modPort k (fun p => { p with state := 1, retrains := satAdd p.retrains 1, fails := 0, naks := 0, report := none })).quiet) ∧
  (∀ k (s : State), let t := s.modPort k (fun p => { p with
      state := 2
      failedRetrains := 0
      peer := (Config.cablePeer s.fresh k).toNat
      pport := (Config.cablePort s.fresh k).toNat })
    k < 32 → (s.port k).state = 1 →
    exec (.portRetrainDone k true) s = .next ({ t with fresh := s.fresh + 1 }.modPlat (fun x =>
      { x with sent := x.sent ++ (s.port k).buffer.map (fun f => (k, f)) })).flushOut.quiet ∧
    ((s.port k).failedRetrains = 2 → ∃ t : State, exec (.portRetrainDone k false) s = .next t.quiet ∧ (t.port k).state = 0) ∧
    ((s.port k).failedRetrains < 2 → ∃ t : State, exec (.portRetrainDone k false) s = .next t.quiet ∧ (t.port k).state = 1)) ∧
  (∀ k n (s : State), k < 32 → (s.port k).state = 2 → ∃ t : State, exec (.heartbeatFlit k n) s = .next t.quiet ∧
    (n ≤ 40 → t.plat.sync = false) ∧ (40 < n → s.plat.syncSince = none → s.domains = [] → t.plat.sync = true ∧ t.plat.syncSince = some s.hbt)) ∧
  ∀ d v (s : State), let m := s.domain d
    let t := (s.modDomain d (fun m => { m with absent := v :: m.absent, shrinks := v :: m.shrinks })).modPlat (fun p => { p with
      members := p.members.map (fun e => if m.job ≠ 0 ∧ e.job = m.job ∧ !e.absent.contains v then { e with absent := v :: e.absent } else e) })
    let v' := t.tellAgain d (s.childDevs d)
    let u := v'.modDomain d (fun m => { m with shrinks := [] })
    m.live = true → m.members ≠ [] → m.devices.contains v = true → m.absent.contains v = false →
    (m.away = true → exec (.deviceFailed d v) s = .next t.quiet) ∧
    (m.away = false → exec (.deviceFailed d v) s = .next (match v'.parentDev d with
      | some up => if m.held then u.sendDone d up else if m.decision.isSome then u.pend [.donePennant d] else u
      | none =>
        if m.shrinking then u.fallsAgain d (m.decision.getD m.last.decision)
        else if m.decision.isSome || m.held then v'.pend [.donePennant d]
        else u.decideAbortOf d 9 0 (m.strag.getD (0, 0)) (u.unreduced d {}) false).quiet)

/-- R421-R427: firmware that its header, its signature and its SVN let in begins to be written to the inactive bank, which FWSTAT.BUSY shows and
which no command interrupts, and the running image's SVN is committed; each SPDM request is answered once the one it needs has been,
challenges, measurements and key shares with a signature by the alias key; a VF is locked, keyed, started and stopped. The model's choices:
whether the flash takes the image (a free value), what the SPDM answers hold and in what order, and the bytes that a block measures
(log 48); TDISP messages taken without a session, and STOP_INTERFACE of an unlocked VF that changes nothing (log 49). -/
def Obligations.FirmwareAndSessionStepsRun : Prop :=
  (∀ s : State, let n := bf (s.pf 0x18) 0 24; let image := (List.range n).map (fun i => (s.hostByte (alignTo 4096 (s.pf 0x10).toNat + i)).toNat)
    let b : FwBank := { svn := Config.imageSvn image, length := Config.imageLength image, image := image, valid := true }
    (s.plat.warm = false → s.plat.writing = none → 0 < n → n ≤ 2 ^ 23 → exec .stage s = .next (if 2 ^ 23 < b.length then s.modPlat (fun p => { p with fwResult := 1 })
      else if Config.signatureOk image = false then s.modPlat (fun p => { p with fwResult := 2 })
      else if b.svn < s.plat.svnFloor then s.modPlat (fun p => { p with fwResult := 3 })
      else (s.modPlat (fun p => { p.fillBank {} with writing := some b })).pend [.flashWrite]).quiet) ∧
    (s.plat.writing.isSome = true → exec .stage s = .next s.quiet ∧ exec .commitSvn s = .next s.quiet ∧ bit (s.plat.readFirmware 0x20 s.pf) 0 = true)) ∧
  (∀ b (s : State), s.plat.writing = some b → s.tryChore .flashWrite = some
    (let t := ({ s with fresh := s.fresh + 1 } : State).modPlat (fun p => { p with writing := none })
      if Config.flashOk s.fresh then (t.modPlat (fun p => p.fillBank b)).modPlat (fun p => { p with fwResult := 0 })
      else t.modPlat (fun p => { p with fwResult := 4 }))) ∧
  (∀ s : State, s.plat.warm = false → s.plat.writing = none → exec .commitSvn s = .next (s.modPlat (fun p =>
    { p with svnFloor := if p.svnFloor < p.running.svn then p.running.svn else p.svnFloor, fwResult := 0 })).quiet) ∧
  (∀ f (s : State), f ≤ Config.vfs → exec (.getVersion f) s = .next (s.reply f { version := true, session := (s.spdm f).session } [0x13]).quiet) ∧
  (∀ f (s : State), f ≤ Config.vfs → (s.spdm f).version = true → exec (.getCapabilities f) s =
    .next (s.reply f { (s.spdm f) with capable := true } [1, 1, 1, 1, 1, 1]).quiet) ∧
  (∀ f k g (s : State), f ≤ Config.vfs → (s.spdm f).capable = true → exec (.negotiateAlgorithms f true true k g) s =
    .next (s.reply f { (s.spdm f) with negotiated := true, keyed := k && g } [1, 1, b2n k, b2n g]).quiet) ∧
  (∀ f (s : State), let x := s.spdm f
    f ≤ Config.vfs → x.negotiated = true →
    exec (.getCertificate f) s = .next (s.reply f x s.plat.certificates).quiet ∧
    (∀ n, exec (.challenge f n) s = .next (s.reply f x (n :: Config.dsaSign s.plat.aliasKey [n])).quiet) ∧
    (∀ i l, s.measured i = some l → let digest := toBytes 64 (sha3 l).toNat
      exec (.getMeasurements f i) s = .next (s.reply f x (digest ++ Config.dsaSign s.plat.aliasKey digest)).quiet) ∧
    (∀ k, x.keyed = true → let share := Config.kemShare k s.fresh
      exec (.keyExchange f k) s = .next (({ s with fresh := s.fresh + 1 } : State).reply f
        { x with pendingKeys := some (Config.sessionSecret k s.fresh) } (share ++ Config.dsaSign s.plat.aliasKey share)).quiet) ∧
    ∀ k, x.pendingKeys = some k →
      exec (.finish f (Config.finishMac f k)) s = .next (s.reply f { x with pendingKeys := none, session := some k } []).quiet ∧
      ∀ mac, mac ≠ Config.finishMac f k → ∃ t : State, exec (.finish f mac) s = .next t.quiet ∧
        (t.spdm f).session = x.session ∧ (t.spdm f).pendingKeys = none ∧ (t.spdm f).answer = [] ∧ (t.spdm f).error = decryptError) ∧
  (∀ v k (s : State), 0 < v → v ≤ Config.vfs → (s.spdm v).session.isSome = true → (s.vf v).node ≠ 0 → (s.vf v).tdisp = .locked → (s.vf v).records = [] →
    exec (.setkey v k) s = .next ((s.modVf v (fun t => { t with key := k, keySet := true })).reply v (s.spdm v) []).quiet) ∧
  ∀ v (s : State), 0 < v → v ≤ Config.vfs →
    ((s.vf v).tdisp = .unlocked →
      exec (.tdispLockInterface v) s = .next ((s.modVf v (fun t => { t with tdisp := .locked })).reply v (s.spdm v) []).quiet ∧
      exec (.stopInterface v) s = .next (s.reply v (s.spdm v) []).quiet) ∧
    ((s.vf v).tdisp = .locked →
      exec (.tdispStartInterface v) s = .next ((s.modVf v (fun t => { t with tdisp := .run })).reply v (s.spdm v) []).quiet) ∧
    ((s.vf v).tdisp ≠ .unlocked →
      exec (.stopInterface v) s = .next ((((s.endTenant v).unbind v).afterUnbind (s.vf v).node).reply v (s.spdm v) []).quiet)
end

