-- ==== Sys2Proof/Laws/Tab.lean ====
section
/-!
SUPPORT. Laws of the sparse tables: reading after writing, and that writing keeps the canonical form.
-/

namespace Sys2Proof.Machine

open Sys2Proof

/-- Every key of a table is above n. -/
def Tab.above (n : Nat) (t : Tab α) : Prop := ∀ p ∈ t, n < p.1

theorem tsorted_cons {j : Nat} {u : α} {t : Tab α} : tsorted ((j, u) :: t) = true ↔ Tab.above j t ∧ tsorted t = true := by
  induction t generalizing j u with
  | nil => simp [tsorted, Tab.above]
  | cons p r ih =>
    obtain ⟨k, v⟩ := p
    simp only [tsorted, Bool.and_eq_true, decide_eq_true_eq]
    constructor
    · rintro ⟨h, hr⟩
      refine ⟨?_, hr⟩
      intro q hq
      rcases List.mem_cons.1 hq with rfl | hq
      · exact h
      · exact Nat.lt_trans h ((ih.1 hr).1 q hq)
    · rintro ⟨h, hr⟩
      exact ⟨h (k, v) (by simp), hr⟩

@[simp] theorem tfind_nil (k : Nat) : tfind ([] : Tab α) k = none := rfl
@[simp] theorem tget_nil (k : Nat) (d : α) : tget [] k d = d := rfl

@[simp] theorem tfind_tput_self (t : Tab α) (k : Nat) (v : α) : tfind (tput t k v) k = some v := by
  induction t with
  | nil => simp [tput, tfind]
  | cons p r ih => obtain ⟨j, u⟩ := p; simp only [tput]; split <;> (try split) <;> simp_all [tfind]

theorem tfind_tput_ne (t : Tab α) {k m : Nat} (v : α) (h : m ≠ k) : tfind (tput t k v) m = tfind t m := by
  induction t with
  | nil => simp [tput, tfind, h.symm]
  | cons p r ih =>
    obtain ⟨j, u⟩ := p
    simp only [tput]
    split
    · subst_vars; simp [tfind, h.symm]
    · split
      · simp [tfind, h.symm]
      · simp only [tfind, ih]

@[simp] theorem tget_tput_self (t : Tab α) (k : Nat) (v d : α) : tget (tput t k v) k d = v := by simp [tget]
theorem tget_tput_ne (t : Tab α) {k m : Nat} (v d : α) (h : m ≠ k) : tget (tput t k v) m d = tget t m d := by simp [tget, tfind_tput_ne t v h]

@[simp] theorem tget_tmod_self (t : Tab α) (k : Nat) (d : α) (f : α → α) : tget (tmod t k d f) k d = f (tget t k d) := by simp [tmod]
theorem tget_tmod_ne (t : Tab α) {k m : Nat} (d e : α) (f : α → α) (h : m ≠ k) : tget (tmod t k d f) m e = tget t m e := by
  simp [tmod, tget_tput_ne t _ _ h]

theorem tfind_tdel_ne (t : Tab α) {k m : Nat} (h : m ≠ k) : tfind (tdel t k) m = tfind t m := by
  induction t with
  | nil => rfl
  | cons p r ih =>
    obtain ⟨j, u⟩ := p
    simp only [tdel]
    split
    · rename_i hj
      simp [tfind, hj, h.symm]
    · simp only [tfind, ih]

theorem tfind_above {t : Tab α} {k : Nat} (h : Tab.above k t) : tfind t k = none := by
  induction t with
  | nil => rfl
  | cons p r ih =>
    obtain ⟨j, u⟩ := p
    have hj : k < j := h (j, u) (by simp)
    simp only [tfind, Nat.ne_of_gt hj, if_false]
    exact ih (fun q hq => h q (by simp [hq]))

theorem tfind_tdel_self {t : Tab α} (k : Nat) (h : tsorted t = true) : tfind (tdel t k) k = none := by
  induction t with
  | nil => rfl
  | cons p r ih =>
    obtain ⟨j, u⟩ := p
    have hs := tsorted_cons.1 h
    simp only [tdel]
    split
    · subst_vars; exact tfind_above hs.1
    · rename_i hne; simp [tfind, hne, ih hs.2]

/-- Reading back what was written, in a sorted table. -/
theorem tget_tset_self [DecidableEq α] {t : Tab α} (k : Nat) (v d : α) (h : tsorted t = true) : tget (tset t k v d) k d = v := by
  unfold tset
  split
  · simp_all [tget, tfind_tdel_self k h]
  · simp
theorem tget_tset_ne [DecidableEq α] (t : Tab α) {k m : Nat} (v d e : α) (h : m ≠ k) : tget (tset t k v d) m e = tget t m e := by
  unfold tset
  split
  · simp [tget, tfind_tdel_ne t h]
  · exact tget_tput_ne t v e h

theorem above_tput {t : Tab α} {n k : Nat} {v : α} (h : Tab.above n t) (hk : n < k) : Tab.above n (tput t k v) := by
  induction t with
  | nil => intro p hp; simp [tput] at hp; subst hp; exact hk
  | cons q r ih =>
    obtain ⟨j, u⟩ := q
    have hr : Tab.above n r := fun p hp => h p (by simp [hp])
    intro p hp
    simp only [tput] at hp
    split at hp
    · rcases List.mem_cons.1 hp with rfl | hp
      · exact hk
      · exact hr p hp
    · split at hp
      · rcases List.mem_cons.1 hp with rfl | hp
        · exact hk
        · exact h p hp
      · rcases List.mem_cons.1 hp with rfl | hp
        · exact h _ (by simp)
        · exact ih hr p hp

theorem above_tdel {t : Tab α} {n k : Nat} (h : Tab.above n t) : Tab.above n (tdel t k) := by
  induction t with
  | nil => exact h
  | cons q r ih =>
    obtain ⟨j, u⟩ := q
    have hr : Tab.above n r := fun p hp => h p (by simp [hp])
    simp only [tdel]
    split
    · exact hr
    · intro p hp
      rcases List.mem_cons.1 hp with rfl | hp
      · exact h _ (by simp)
      · exact ih hr p hp

/-- Writing keeps keys strictly rising. -/
theorem tsorted_tput {t : Tab α} (k : Nat) (v : α) (h : tsorted t = true) : tsorted (tput t k v) = true := by
  induction t with
  | nil => simp [tput, tsorted]
  | cons q r ih =>
    obtain ⟨j, u⟩ := q
    have hs := tsorted_cons.1 h
    simp only [tput]
    split
    · subst_vars; exact tsorted_cons.2 hs
    · split
      · rename_i hlt
        refine tsorted_cons.2 ⟨?_, h⟩
        intro p hp
        rcases List.mem_cons.1 hp with rfl | hp
        · exact hlt
        · exact Nat.lt_trans hlt (hs.1 p hp)
      · rename_i h1 h2
        exact tsorted_cons.2 ⟨above_tput hs.1 (by omega), ih hs.2⟩

theorem tsorted_tdel {t : Tab α} (k : Nat) (h : tsorted t = true) : tsorted (tdel t k) = true := by
  induction t with
  | nil => exact h
  | cons q r ih =>
    obtain ⟨j, u⟩ := q
    have hs := tsorted_cons.1 h
    simp only [tdel]
    split
    · exact hs.2
    · exact tsorted_cons.2 ⟨above_tdel hs.1, ih hs.2⟩

theorem tsorted_tset [DecidableEq α] {t : Tab α} (k : Nat) (v d : α) (h : tsorted t = true) : tsorted (tset t k v d) = true := by
  unfold tset; split
  · exact tsorted_tdel k h
  · exact tsorted_tput k v h

theorem mem_tput {t : Tab α} {k : Nat} {v : α} {p : Nat × α} (h : p ∈ tput t k v) : p = (k, v) ∨ p ∈ t := by
  induction t with
  | nil => simpa [tput] using h
  | cons q r ih =>
    obtain ⟨j, u⟩ := q
    simp only [tput] at h
    split at h
    · rcases List.mem_cons.1 h with h | h <;> simp [h]
    · split at h
      · rcases List.mem_cons.1 h with h | h
        · exact .inl h
        · exact .inr h
      · rcases List.mem_cons.1 h with h | h
        · simp [h]
        · rcases ih h with h | h <;> simp [h]

theorem mem_tdel {t : Tab α} {k : Nat} {p : Nat × α} (h : p ∈ tdel t k) : p ∈ t := by
  induction t with
  | nil => exact h
  | cons q r ih =>
    obtain ⟨j, u⟩ := q
    simp only [tdel] at h
    split at h
    · simp [h]
    · rcases List.mem_cons.1 h with h | h
      · simp [h]
      · simp [ih h]

/-- A written byte store keeps its canonical form. -/
theorem Memory.wf_tset {m : List Host.Cell} (a : Nat) (b : Byte) (h : Memory.wf m) : Memory.wf (tset m a b 0) := by
  refine ⟨tsorted_tset a b 0 h.1, ?_⟩
  have h2 := h.2
  simp only [List.all_eq_true, bne_iff_ne, ne_eq] at h2 ⊢
  intro p hp
  unfold tset at hp
  split at hp
  · exact h2 p (mem_tdel hp)
  · rcases mem_tput hp with rfl | hp
    · assumption
    · exact h2 p hp

end Sys2Proof.Machine
end

