-- ==== Sys2Proof/Laws/State.lean ====
section
/-!
SUPPORT. What each update of a unit leaves and what it changes: one lemma for each field and update, and for each way
of reaching a unit.
-/

namespace Sys2Proof.Machine

open Sys2Proof

/-! ### modCore -/

@[simp] theorem State.modCore_issue (s : State) (c : Nat) (f : Core → Core) : (s.modCore c f).issue = s.issue := rfl
@[simp] theorem State.modCore_teams (s : State) (c : Nat) (f : Core → Core) : (s.modCore c f).teams = s.teams := rfl
@[simp] theorem State.modCore_clusters (s : State) (c : Nat) (f : Core → Core) : (s.modCore c f).clusters = s.clusters := rfl
@[simp] theorem State.modCore_dies (s : State) (c : Nat) (f : Core → Core) : (s.modCore c f).dies = s.dies := rfl
@[simp] theorem State.modCore_domains (s : State) (c : Nat) (f : Core → Core) : (s.modCore c f).domains = s.domains := rfl
@[simp] theorem State.modCore_hbm (s : State) (c : Nat) (f : Core → Core) : (s.modCore c f).hbm = s.hbm := rfl
@[simp] theorem State.modCore_plat (s : State) (c : Nat) (f : Core → Core) : (s.modCore c f).plat = s.plat := rfl
@[simp] theorem State.modCore_hbt (s : State) (c : Nat) (f : Core → Core) : (s.modCore c f).hbt = s.hbt := rfl
@[simp] theorem State.modCore_fresh (s : State) (c : Nat) (f : Core → Core) : (s.modCore c f).fresh = s.fresh := rfl
@[simp] theorem State.modCore_sched (s : State) (c : Nat) (f : Core → Core) : (s.modCore c f).sched = s.sched := rfl
@[simp] theorem State.modCore_get_team (s : State) (c : Nat) (f : Core → Core) (i : Nat) : (s.modCore c f).team i = s.team i := rfl
@[simp] theorem State.modCore_get_cluster (s : State) (c : Nat) (f : Core → Core) (i : Nat) : (s.modCore c f).cluster i = s.cluster i := rfl
@[simp] theorem State.modCore_get_die (s : State) (c : Nat) (f : Core → Core) (i : Nat) : (s.modCore c f).die i = s.die i := rfl
@[simp] theorem State.modCore_get_domain (s : State) (c : Nat) (f : Core → Core) (i : Nat) : (s.modCore c f).domain i = s.domain i := rfl
@[simp] theorem State.modCore_get_vf (s : State) (c : Nat) (f : Core → Core) (i : Nat) : (s.modCore c f).vf i = s.vf i := rfl
@[simp] theorem State.modCore_get_node (s : State) (c : Nat) (f : Core → Core) (i : Nat) : (s.modCore c f).node i = s.node i := rfl
@[simp] theorem State.modCore_get_edge (s : State) (c : Nat) (f : Core → Core) (i : Nat) : (s.modCore c f).edge i = s.edge i := rfl
@[simp] theorem State.modCore_get_port (s : State) (c : Nat) (f : Core → Core) (i : Nat) : (s.modCore c f).port i = s.port i := rfl
@[simp] theorem State.modCore_get_pf (s : State) (c : Nat) (f : Core → Core) (i : Nat) : (s.modCore c f).pf i = s.pf i := rfl

/-! ### modCtx -/

@[simp] theorem State.modCtx_issue (s : State) (c k : Nat) (f : Ctx → Ctx) : (s.modCtx c k f).issue = s.issue := rfl
@[simp] theorem State.modCtx_teams (s : State) (c k : Nat) (f : Ctx → Ctx) : (s.modCtx c k f).teams = s.teams := rfl
@[simp] theorem State.modCtx_clusters (s : State) (c k : Nat) (f : Ctx → Ctx) : (s.modCtx c k f).clusters = s.clusters := rfl
@[simp] theorem State.modCtx_dies (s : State) (c k : Nat) (f : Ctx → Ctx) : (s.modCtx c k f).dies = s.dies := rfl
@[simp] theorem State.modCtx_domains (s : State) (c k : Nat) (f : Ctx → Ctx) : (s.modCtx c k f).domains = s.domains := rfl
@[simp] theorem State.modCtx_hbm (s : State) (c k : Nat) (f : Ctx → Ctx) : (s.modCtx c k f).hbm = s.hbm := rfl
@[simp] theorem State.modCtx_plat (s : State) (c k : Nat) (f : Ctx → Ctx) : (s.modCtx c k f).plat = s.plat := rfl
@[simp] theorem State.modCtx_hbt (s : State) (c k : Nat) (f : Ctx → Ctx) : (s.modCtx c k f).hbt = s.hbt := rfl
@[simp] theorem State.modCtx_fresh (s : State) (c k : Nat) (f : Ctx → Ctx) : (s.modCtx c k f).fresh = s.fresh := rfl
@[simp] theorem State.modCtx_sched (s : State) (c k : Nat) (f : Ctx → Ctx) : (s.modCtx c k f).sched = s.sched := rfl
@[simp] theorem State.modCtx_get_team (s : State) (c k : Nat) (f : Ctx → Ctx) (i : Nat) : (s.modCtx c k f).team i = s.team i := rfl
@[simp] theorem State.modCtx_get_cluster (s : State) (c k : Nat) (f : Ctx → Ctx) (i : Nat) : (s.modCtx c k f).cluster i = s.cluster i := rfl
@[simp] theorem State.modCtx_get_die (s : State) (c k : Nat) (f : Ctx → Ctx) (i : Nat) : (s.modCtx c k f).die i = s.die i := rfl
@[simp] theorem State.modCtx_get_domain (s : State) (c k : Nat) (f : Ctx → Ctx) (i : Nat) : (s.modCtx c k f).domain i = s.domain i := rfl
@[simp] theorem State.modCtx_get_vf (s : State) (c k : Nat) (f : Ctx → Ctx) (i : Nat) : (s.modCtx c k f).vf i = s.vf i := rfl
@[simp] theorem State.modCtx_get_node (s : State) (c k : Nat) (f : Ctx → Ctx) (i : Nat) : (s.modCtx c k f).node i = s.node i := rfl
@[simp] theorem State.modCtx_get_edge (s : State) (c k : Nat) (f : Ctx → Ctx) (i : Nat) : (s.modCtx c k f).edge i = s.edge i := rfl
@[simp] theorem State.modCtx_get_port (s : State) (c k : Nat) (f : Ctx → Ctx) (i : Nat) : (s.modCtx c k f).port i = s.port i := rfl
@[simp] theorem State.modCtx_get_pf (s : State) (c k : Nat) (f : Ctx → Ctx) (i : Nat) : (s.modCtx c k f).pf i = s.pf i := rfl

/-! ### modTeam -/

@[simp] theorem State.modTeam_issue (s : State) (t : Nat) (f : Team → Team) : (s.modTeam t f).issue = s.issue := rfl
@[simp] theorem State.modTeam_cores (s : State) (t : Nat) (f : Team → Team) : (s.modTeam t f).cores = s.cores := rfl
@[simp] theorem State.modTeam_clusters (s : State) (t : Nat) (f : Team → Team) : (s.modTeam t f).clusters = s.clusters := rfl
@[simp] theorem State.modTeam_dies (s : State) (t : Nat) (f : Team → Team) : (s.modTeam t f).dies = s.dies := rfl
@[simp] theorem State.modTeam_domains (s : State) (t : Nat) (f : Team → Team) : (s.modTeam t f).domains = s.domains := rfl
@[simp] theorem State.modTeam_hbm (s : State) (t : Nat) (f : Team → Team) : (s.modTeam t f).hbm = s.hbm := rfl
@[simp] theorem State.modTeam_plat (s : State) (t : Nat) (f : Team → Team) : (s.modTeam t f).plat = s.plat := rfl
@[simp] theorem State.modTeam_hbt (s : State) (t : Nat) (f : Team → Team) : (s.modTeam t f).hbt = s.hbt := rfl
@[simp] theorem State.modTeam_fresh (s : State) (t : Nat) (f : Team → Team) : (s.modTeam t f).fresh = s.fresh := rfl
@[simp] theorem State.modTeam_sched (s : State) (t : Nat) (f : Team → Team) : (s.modTeam t f).sched = s.sched := rfl
@[simp] theorem State.modTeam_get_core (s : State) (t : Nat) (f : Team → Team) (i : Nat) : (s.modTeam t f).core i = s.core i := rfl
@[simp] theorem State.modTeam_get_cluster (s : State) (t : Nat) (f : Team → Team) (i : Nat) : (s.modTeam t f).cluster i = s.cluster i := rfl
@[simp] theorem State.modTeam_get_die (s : State) (t : Nat) (f : Team → Team) (i : Nat) : (s.modTeam t f).die i = s.die i := rfl
@[simp] theorem State.modTeam_get_domain (s : State) (t : Nat) (f : Team → Team) (i : Nat) : (s.modTeam t f).domain i = s.domain i := rfl
@[simp] theorem State.modTeam_get_vf (s : State) (t : Nat) (f : Team → Team) (i : Nat) : (s.modTeam t f).vf i = s.vf i := rfl
@[simp] theorem State.modTeam_get_node (s : State) (t : Nat) (f : Team → Team) (i : Nat) : (s.modTeam t f).node i = s.node i := rfl
@[simp] theorem State.modTeam_get_edge (s : State) (t : Nat) (f : Team → Team) (i : Nat) : (s.modTeam t f).edge i = s.edge i := rfl
@[simp] theorem State.modTeam_get_port (s : State) (t : Nat) (f : Team → Team) (i : Nat) : (s.modTeam t f).port i = s.port i := rfl
@[simp] theorem State.modTeam_get_pf (s : State) (t : Nat) (f : Team → Team) (i : Nat) : (s.modTeam t f).pf i = s.pf i := rfl
@[simp] theorem State.modTeam_get_ctx (s : State) (t : Nat) (f : Team → Team) (i j : Nat) : (s.modTeam t f).ctx i j = s.ctx i j := rfl

/-! ### modCluster -/

@[simp] theorem State.modCluster_issue (s : State) (k : Nat) (f : Cluster → Cluster) : (s.modCluster k f).issue = s.issue := rfl
@[simp] theorem State.modCluster_cores (s : State) (k : Nat) (f : Cluster → Cluster) : (s.modCluster k f).cores = s.cores := rfl
@[simp] theorem State.modCluster_teams (s : State) (k : Nat) (f : Cluster → Cluster) : (s.modCluster k f).teams = s.teams := rfl
@[simp] theorem State.modCluster_dies (s : State) (k : Nat) (f : Cluster → Cluster) : (s.modCluster k f).dies = s.dies := rfl
@[simp] theorem State.modCluster_domains (s : State) (k : Nat) (f : Cluster → Cluster) : (s.modCluster k f).domains = s.domains := rfl
@[simp] theorem State.modCluster_hbm (s : State) (k : Nat) (f : Cluster → Cluster) : (s.modCluster k f).hbm = s.hbm := rfl
@[simp] theorem State.modCluster_plat (s : State) (k : Nat) (f : Cluster → Cluster) : (s.modCluster k f).plat = s.plat := rfl
@[simp] theorem State.modCluster_hbt (s : State) (k : Nat) (f : Cluster → Cluster) : (s.modCluster k f).hbt = s.hbt := rfl
@[simp] theorem State.modCluster_fresh (s : State) (k : Nat) (f : Cluster → Cluster) : (s.modCluster k f).fresh = s.fresh := rfl
@[simp] theorem State.modCluster_sched (s : State) (k : Nat) (f : Cluster → Cluster) : (s.modCluster k f).sched = s.sched := rfl
@[simp] theorem State.modCluster_get_core (s : State) (k : Nat) (f : Cluster → Cluster) (i : Nat) : (s.modCluster k f).core i = s.core i := rfl
@[simp] theorem State.modCluster_get_team (s : State) (k : Nat) (f : Cluster → Cluster) (i : Nat) : (s.modCluster k f).team i = s.team i := rfl
@[simp] theorem State.modCluster_get_die (s : State) (k : Nat) (f : Cluster → Cluster) (i : Nat) : (s.modCluster k f).die i = s.die i := rfl
@[simp] theorem State.modCluster_get_domain (s : State) (k : Nat) (f : Cluster → Cluster) (i : Nat) : (s.modCluster k f).domain i = s.domain i := rfl
@[simp] theorem State.modCluster_get_vf (s : State) (k : Nat) (f : Cluster → Cluster) (i : Nat) : (s.modCluster k f).vf i = s.vf i := rfl
@[simp] theorem State.modCluster_get_node (s : State) (k : Nat) (f : Cluster → Cluster) (i : Nat) : (s.modCluster k f).node i = s.node i := rfl
@[simp] theorem State.modCluster_get_edge (s : State) (k : Nat) (f : Cluster → Cluster) (i : Nat) : (s.modCluster k f).edge i = s.edge i := rfl
@[simp] theorem State.modCluster_get_port (s : State) (k : Nat) (f : Cluster → Cluster) (i : Nat) : (s.modCluster k f).port i = s.port i := rfl
@[simp] theorem State.modCluster_get_pf (s : State) (k : Nat) (f : Cluster → Cluster) (i : Nat) : (s.modCluster k f).pf i = s.pf i := rfl
@[simp] theorem State.modCluster_get_ctx (s : State) (k : Nat) (f : Cluster → Cluster) (i j : Nat) : (s.modCluster k f).ctx i j = s.ctx i j := rfl

/-! ### modDie -/

@[simp] theorem State.modDie_issue (s : State) (d : Nat) (f : Die → Die) : (s.modDie d f).issue = s.issue := rfl
@[simp] theorem State.modDie_cores (s : State) (d : Nat) (f : Die → Die) : (s.modDie d f).cores = s.cores := rfl
@[simp] theorem State.modDie_teams (s : State) (d : Nat) (f : Die → Die) : (s.modDie d f).teams = s.teams := rfl
@[simp] theorem State.modDie_clusters (s : State) (d : Nat) (f : Die → Die) : (s.modDie d f).clusters = s.clusters := rfl
@[simp] theorem State.modDie_domains (s : State) (d : Nat) (f : Die → Die) : (s.modDie d f).domains = s.domains := rfl
@[simp] theorem State.modDie_hbm (s : State) (d : Nat) (f : Die → Die) : (s.modDie d f).hbm = s.hbm := rfl
@[simp] theorem State.modDie_plat (s : State) (d : Nat) (f : Die → Die) : (s.modDie d f).plat = s.plat := rfl
@[simp] theorem State.modDie_hbt (s : State) (d : Nat) (f : Die → Die) : (s.modDie d f).hbt = s.hbt := rfl
@[simp] theorem State.modDie_fresh (s : State) (d : Nat) (f : Die → Die) : (s.modDie d f).fresh = s.fresh := rfl
@[simp] theorem State.modDie_sched (s : State) (d : Nat) (f : Die → Die) : (s.modDie d f).sched = s.sched := rfl
@[simp] theorem State.modDie_get_core (s : State) (d : Nat) (f : Die → Die) (i : Nat) : (s.modDie d f).core i = s.core i := rfl
@[simp] theorem State.modDie_get_team (s : State) (d : Nat) (f : Die → Die) (i : Nat) : (s.modDie d f).team i = s.team i := rfl
@[simp] theorem State.modDie_get_cluster (s : State) (d : Nat) (f : Die → Die) (i : Nat) : (s.modDie d f).cluster i = s.cluster i := rfl
@[simp] theorem State.modDie_get_domain (s : State) (d : Nat) (f : Die → Die) (i : Nat) : (s.modDie d f).domain i = s.domain i := rfl
@[simp] theorem State.modDie_get_vf (s : State) (d : Nat) (f : Die → Die) (i : Nat) : (s.modDie d f).vf i = s.vf i := rfl
@[simp] theorem State.modDie_get_node (s : State) (d : Nat) (f : Die → Die) (i : Nat) : (s.modDie d f).node i = s.node i := rfl
@[simp] theorem State.modDie_get_edge (s : State) (d : Nat) (f : Die → Die) (i : Nat) : (s.modDie d f).edge i = s.edge i := rfl
@[simp] theorem State.modDie_get_port (s : State) (d : Nat) (f : Die → Die) (i : Nat) : (s.modDie d f).port i = s.port i := rfl
@[simp] theorem State.modDie_get_pf (s : State) (d : Nat) (f : Die → Die) (i : Nat) : (s.modDie d f).pf i = s.pf i := rfl
@[simp] theorem State.modDie_get_ctx (s : State) (d : Nat) (f : Die → Die) (i j : Nat) : (s.modDie d f).ctx i j = s.ctx i j := rfl

/-! ### modDomain -/

@[simp] theorem State.modDomain_issue (s : State) (d : Nat) (f : Domain → Domain) : (s.modDomain d f).issue = s.issue := rfl
@[simp] theorem State.modDomain_cores (s : State) (d : Nat) (f : Domain → Domain) : (s.modDomain d f).cores = s.cores := rfl
@[simp] theorem State.modDomain_teams (s : State) (d : Nat) (f : Domain → Domain) : (s.modDomain d f).teams = s.teams := rfl
@[simp] theorem State.modDomain_clusters (s : State) (d : Nat) (f : Domain → Domain) : (s.modDomain d f).clusters = s.clusters := rfl
@[simp] theorem State.modDomain_dies (s : State) (d : Nat) (f : Domain → Domain) : (s.modDomain d f).dies = s.dies := rfl
@[simp] theorem State.modDomain_hbm (s : State) (d : Nat) (f : Domain → Domain) : (s.modDomain d f).hbm = s.hbm := rfl
@[simp] theorem State.modDomain_plat (s : State) (d : Nat) (f : Domain → Domain) : (s.modDomain d f).plat = s.plat := rfl
@[simp] theorem State.modDomain_hbt (s : State) (d : Nat) (f : Domain → Domain) : (s.modDomain d f).hbt = s.hbt := rfl
@[simp] theorem State.modDomain_fresh (s : State) (d : Nat) (f : Domain → Domain) : (s.modDomain d f).fresh = s.fresh := rfl
@[simp] theorem State.modDomain_sched (s : State) (d : Nat) (f : Domain → Domain) : (s.modDomain d f).sched = s.sched := rfl
@[simp] theorem State.modDomain_get_core (s : State) (d : Nat) (f : Domain → Domain) (i : Nat) : (s.modDomain d f).core i = s.core i := rfl
@[simp] theorem State.modDomain_get_team (s : State) (d : Nat) (f : Domain → Domain) (i : Nat) : (s.modDomain d f).team i = s.team i := rfl
@[simp] theorem State.modDomain_get_cluster (s : State) (d : Nat) (f : Domain → Domain) (i : Nat) : (s.modDomain d f).cluster i = s.cluster i := rfl
@[simp] theorem State.modDomain_get_die (s : State) (d : Nat) (f : Domain → Domain) (i : Nat) : (s.modDomain d f).die i = s.die i := rfl
@[simp] theorem State.modDomain_get_vf (s : State) (d : Nat) (f : Domain → Domain) (i : Nat) : (s.modDomain d f).vf i = s.vf i := rfl
@[simp] theorem State.modDomain_get_node (s : State) (d : Nat) (f : Domain → Domain) (i : Nat) : (s.modDomain d f).node i = s.node i := rfl
@[simp] theorem State.modDomain_get_edge (s : State) (d : Nat) (f : Domain → Domain) (i : Nat) : (s.modDomain d f).edge i = s.edge i := rfl
@[simp] theorem State.modDomain_get_port (s : State) (d : Nat) (f : Domain → Domain) (i : Nat) : (s.modDomain d f).port i = s.port i := rfl
@[simp] theorem State.modDomain_get_pf (s : State) (d : Nat) (f : Domain → Domain) (i : Nat) : (s.modDomain d f).pf i = s.pf i := rfl
@[simp] theorem State.modDomain_get_ctx (s : State) (d : Nat) (f : Domain → Domain) (i j : Nat) : (s.modDomain d f).ctx i j = s.ctx i j := rfl

/-! ### modPlat -/

@[simp] theorem State.modPlat_issue (s : State) (f : Platform → Platform) : (s.modPlat f).issue = s.issue := rfl
@[simp] theorem State.modPlat_cores (s : State) (f : Platform → Platform) : (s.modPlat f).cores = s.cores := rfl
@[simp] theorem State.modPlat_teams (s : State) (f : Platform → Platform) : (s.modPlat f).teams = s.teams := rfl
@[simp] theorem State.modPlat_clusters (s : State) (f : Platform → Platform) : (s.modPlat f).clusters = s.clusters := rfl
@[simp] theorem State.modPlat_dies (s : State) (f : Platform → Platform) : (s.modPlat f).dies = s.dies := rfl
@[simp] theorem State.modPlat_domains (s : State) (f : Platform → Platform) : (s.modPlat f).domains = s.domains := rfl
@[simp] theorem State.modPlat_hbm (s : State) (f : Platform → Platform) : (s.modPlat f).hbm = s.hbm := rfl
@[simp] theorem State.modPlat_hbt (s : State) (f : Platform → Platform) : (s.modPlat f).hbt = s.hbt := rfl
@[simp] theorem State.modPlat_fresh (s : State) (f : Platform → Platform) : (s.modPlat f).fresh = s.fresh := rfl
@[simp] theorem State.modPlat_sched (s : State) (f : Platform → Platform) : (s.modPlat f).sched = s.sched := rfl
@[simp] theorem State.modPlat_get_core (s : State) (f : Platform → Platform) (i : Nat) : (s.modPlat f).core i = s.core i := rfl
@[simp] theorem State.modPlat_get_team (s : State) (f : Platform → Platform) (i : Nat) : (s.modPlat f).team i = s.team i := rfl
@[simp] theorem State.modPlat_get_cluster (s : State) (f : Platform → Platform) (i : Nat) : (s.modPlat f).cluster i = s.cluster i := rfl
@[simp] theorem State.modPlat_get_die (s : State) (f : Platform → Platform) (i : Nat) : (s.modPlat f).die i = s.die i := rfl
@[simp] theorem State.modPlat_get_domain (s : State) (f : Platform → Platform) (i : Nat) : (s.modPlat f).domain i = s.domain i := rfl
@[simp] theorem State.modPlat_get_ctx (s : State) (f : Platform → Platform) (i j : Nat) : (s.modPlat f).ctx i j = s.ctx i j := rfl

/-! ### modVf -/

@[simp] theorem State.modVf_issue (s : State) (v : Nat) (f : Vf → Vf) : (s.modVf v f).issue = s.issue := rfl
@[simp] theorem State.modVf_cores (s : State) (v : Nat) (f : Vf → Vf) : (s.modVf v f).cores = s.cores := rfl
@[simp] theorem State.modVf_teams (s : State) (v : Nat) (f : Vf → Vf) : (s.modVf v f).teams = s.teams := rfl
@[simp] theorem State.modVf_clusters (s : State) (v : Nat) (f : Vf → Vf) : (s.modVf v f).clusters = s.clusters := rfl
@[simp] theorem State.modVf_dies (s : State) (v : Nat) (f : Vf → Vf) : (s.modVf v f).dies = s.dies := rfl
@[simp] theorem State.modVf_domains (s : State) (v : Nat) (f : Vf → Vf) : (s.modVf v f).domains = s.domains := rfl
@[simp] theorem State.modVf_hbm (s : State) (v : Nat) (f : Vf → Vf) : (s.modVf v f).hbm = s.hbm := rfl
@[simp] theorem State.modVf_hbt (s : State) (v : Nat) (f : Vf → Vf) : (s.modVf v f).hbt = s.hbt := rfl
@[simp] theorem State.modVf_fresh (s : State) (v : Nat) (f : Vf → Vf) : (s.modVf v f).fresh = s.fresh := rfl
@[simp] theorem State.modVf_sched (s : State) (v : Nat) (f : Vf → Vf) : (s.modVf v f).sched = s.sched := rfl
@[simp] theorem State.modVf_get_core (s : State) (v : Nat) (f : Vf → Vf) (i : Nat) : (s.modVf v f).core i = s.core i := rfl
@[simp] theorem State.modVf_get_team (s : State) (v : Nat) (f : Vf → Vf) (i : Nat) : (s.modVf v f).team i = s.team i := rfl
@[simp] theorem State.modVf_get_cluster (s : State) (v : Nat) (f : Vf → Vf) (i : Nat) : (s.modVf v f).cluster i = s.cluster i := rfl
@[simp] theorem State.modVf_get_die (s : State) (v : Nat) (f : Vf → Vf) (i : Nat) : (s.modVf v f).die i = s.die i := rfl
@[simp] theorem State.modVf_get_domain (s : State) (v : Nat) (f : Vf → Vf) (i : Nat) : (s.modVf v f).domain i = s.domain i := rfl
@[simp] theorem State.modVf_get_ctx (s : State) (v : Nat) (f : Vf → Vf) (i j : Nat) : (s.modVf v f).ctx i j = s.ctx i j := rfl

/-! ### modNode -/

@[simp] theorem State.modNode_issue (s : State) (n : Nat) (f : Node → Node) : (s.modNode n f).issue = s.issue := rfl
@[simp] theorem State.modNode_cores (s : State) (n : Nat) (f : Node → Node) : (s.modNode n f).cores = s.cores := rfl
@[simp] theorem State.modNode_teams (s : State) (n : Nat) (f : Node → Node) : (s.modNode n f).teams = s.teams := rfl
@[simp] theorem State.modNode_clusters (s : State) (n : Nat) (f : Node → Node) : (s.modNode n f).clusters = s.clusters := rfl
@[simp] theorem State.modNode_dies (s : State) (n : Nat) (f : Node → Node) : (s.modNode n f).dies = s.dies := rfl
@[simp] theorem State.modNode_domains (s : State) (n : Nat) (f : Node → Node) : (s.modNode n f).domains = s.domains := rfl
@[simp] theorem State.modNode_hbm (s : State) (n : Nat) (f : Node → Node) : (s.modNode n f).hbm = s.hbm := rfl
@[simp] theorem State.modNode_hbt (s : State) (n : Nat) (f : Node → Node) : (s.modNode n f).hbt = s.hbt := rfl
@[simp] theorem State.modNode_fresh (s : State) (n : Nat) (f : Node → Node) : (s.modNode n f).fresh = s.fresh := rfl
@[simp] theorem State.modNode_sched (s : State) (n : Nat) (f : Node → Node) : (s.modNode n f).sched = s.sched := rfl
@[simp] theorem State.modNode_get_core (s : State) (n : Nat) (f : Node → Node) (i : Nat) : (s.modNode n f).core i = s.core i := rfl
@[simp] theorem State.modNode_get_team (s : State) (n : Nat) (f : Node → Node) (i : Nat) : (s.modNode n f).team i = s.team i := rfl
@[simp] theorem State.modNode_get_cluster (s : State) (n : Nat) (f : Node → Node) (i : Nat) : (s.modNode n f).cluster i = s.cluster i := rfl
@[simp] theorem State.modNode_get_die (s : State) (n : Nat) (f : Node → Node) (i : Nat) : (s.modNode n f).die i = s.die i := rfl
@[simp] theorem State.modNode_get_domain (s : State) (n : Nat) (f : Node → Node) (i : Nat) : (s.modNode n f).domain i = s.domain i := rfl
@[simp] theorem State.modNode_get_ctx (s : State) (n : Nat) (f : Node → Node) (i j : Nat) : (s.modNode n f).ctx i j = s.ctx i j := rfl

/-! ### modEdge -/

@[simp] theorem State.modEdge_issue (s : State) (e : Nat) (f : Edge → Edge) : (s.modEdge e f).issue = s.issue := rfl
@[simp] theorem State.modEdge_cores (s : State) (e : Nat) (f : Edge → Edge) : (s.modEdge e f).cores = s.cores := rfl
@[simp] theorem State.modEdge_teams (s : State) (e : Nat) (f : Edge → Edge) : (s.modEdge e f).teams = s.teams := rfl
@[simp] theorem State.modEdge_clusters (s : State) (e : Nat) (f : Edge → Edge) : (s.modEdge e f).clusters = s.clusters := rfl
@[simp] theorem State.modEdge_dies (s : State) (e : Nat) (f : Edge → Edge) : (s.modEdge e f).dies = s.dies := rfl
@[simp] theorem State.modEdge_domains (s : State) (e : Nat) (f : Edge → Edge) : (s.modEdge e f).domains = s.domains := rfl
@[simp] theorem State.modEdge_hbm (s : State) (e : Nat) (f : Edge → Edge) : (s.modEdge e f).hbm = s.hbm := rfl
@[simp] theorem State.modEdge_hbt (s : State) (e : Nat) (f : Edge → Edge) : (s.modEdge e f).hbt = s.hbt := rfl
@[simp] theorem State.modEdge_fresh (s : State) (e : Nat) (f : Edge → Edge) : (s.modEdge e f).fresh = s.fresh := rfl
@[simp] theorem State.modEdge_sched (s : State) (e : Nat) (f : Edge → Edge) : (s.modEdge e f).sched = s.sched := rfl
@[simp] theorem State.modEdge_get_core (s : State) (e : Nat) (f : Edge → Edge) (i : Nat) : (s.modEdge e f).core i = s.core i := rfl
@[simp] theorem State.modEdge_get_team (s : State) (e : Nat) (f : Edge → Edge) (i : Nat) : (s.modEdge e f).team i = s.team i := rfl
@[simp] theorem State.modEdge_get_cluster (s : State) (e : Nat) (f : Edge → Edge) (i : Nat) : (s.modEdge e f).cluster i = s.cluster i := rfl
@[simp] theorem State.modEdge_get_die (s : State) (e : Nat) (f : Edge → Edge) (i : Nat) : (s.modEdge e f).die i = s.die i := rfl
@[simp] theorem State.modEdge_get_domain (s : State) (e : Nat) (f : Edge → Edge) (i : Nat) : (s.modEdge e f).domain i = s.domain i := rfl
@[simp] theorem State.modEdge_get_ctx (s : State) (e : Nat) (f : Edge → Edge) (i j : Nat) : (s.modEdge e f).ctx i j = s.ctx i j := rfl

/-! ### modPort -/

@[simp] theorem State.modPort_issue (s : State) (p : Nat) (f : Port → Port) : (s.modPort p f).issue = s.issue := rfl
@[simp] theorem State.modPort_cores (s : State) (p : Nat) (f : Port → Port) : (s.modPort p f).cores = s.cores := rfl
@[simp] theorem State.modPort_teams (s : State) (p : Nat) (f : Port → Port) : (s.modPort p f).teams = s.teams := rfl
@[simp] theorem State.modPort_clusters (s : State) (p : Nat) (f : Port → Port) : (s.modPort p f).clusters = s.clusters := rfl
@[simp] theorem State.modPort_dies (s : State) (p : Nat) (f : Port → Port) : (s.modPort p f).dies = s.dies := rfl
@[simp] theorem State.modPort_domains (s : State) (p : Nat) (f : Port → Port) : (s.modPort p f).domains = s.domains := rfl
@[simp] theorem State.modPort_hbm (s : State) (p : Nat) (f : Port → Port) : (s.modPort p f).hbm = s.hbm := rfl
@[simp] theorem State.modPort_hbt (s : State) (p : Nat) (f : Port → Port) : (s.modPort p f).hbt = s.hbt := rfl
@[simp] theorem State.modPort_fresh (s : State) (p : Nat) (f : Port → Port) : (s.modPort p f).fresh = s.fresh := rfl
@[simp] theorem State.modPort_sched (s : State) (p : Nat) (f : Port → Port) : (s.modPort p f).sched = s.sched := rfl
@[simp] theorem State.modPort_get_core (s : State) (p : Nat) (f : Port → Port) (i : Nat) : (s.modPort p f).core i = s.core i := rfl
@[simp] theorem State.modPort_get_team (s : State) (p : Nat) (f : Port → Port) (i : Nat) : (s.modPort p f).team i = s.team i := rfl
@[simp] theorem State.modPort_get_cluster (s : State) (p : Nat) (f : Port → Port) (i : Nat) : (s.modPort p f).cluster i = s.cluster i := rfl
@[simp] theorem State.modPort_get_die (s : State) (p : Nat) (f : Port → Port) (i : Nat) : (s.modPort p f).die i = s.die i := rfl
@[simp] theorem State.modPort_get_domain (s : State) (p : Nat) (f : Port → Port) (i : Nat) : (s.modPort p f).domain i = s.domain i := rfl
@[simp] theorem State.modPort_get_ctx (s : State) (p : Nat) (f : Port → Port) (i j : Nat) : (s.modPort p f).ctx i j = s.ctx i j := rfl

/-! ### modSpeed -/

@[simp] theorem State.modSpeed_issue (s : State) (e : Bool) (u : Nat) (f : Speed → Speed) : (s.modSpeed e u f).issue = s.issue := rfl
@[simp] theorem State.modSpeed_cores (s : State) (e : Bool) (u : Nat) (f : Speed → Speed) : (s.modSpeed e u f).cores = s.cores := rfl
@[simp] theorem State.modSpeed_teams (s : State) (e : Bool) (u : Nat) (f : Speed → Speed) : (s.modSpeed e u f).teams = s.teams := rfl
@[simp] theorem State.modSpeed_clusters (s : State) (e : Bool) (u : Nat) (f : Speed → Speed) : (s.modSpeed e u f).clusters = s.clusters := rfl
@[simp] theorem State.modSpeed_dies (s : State) (e : Bool) (u : Nat) (f : Speed → Speed) : (s.modSpeed e u f).dies = s.dies := rfl
@[simp] theorem State.modSpeed_domains (s : State) (e : Bool) (u : Nat) (f : Speed → Speed) : (s.modSpeed e u f).domains = s.domains := rfl
@[simp] theorem State.modSpeed_hbm (s : State) (e : Bool) (u : Nat) (f : Speed → Speed) : (s.modSpeed e u f).hbm = s.hbm := rfl
@[simp] theorem State.modSpeed_hbt (s : State) (e : Bool) (u : Nat) (f : Speed → Speed) : (s.modSpeed e u f).hbt = s.hbt := rfl
@[simp] theorem State.modSpeed_fresh (s : State) (e : Bool) (u : Nat) (f : Speed → Speed) : (s.modSpeed e u f).fresh = s.fresh := rfl
@[simp] theorem State.modSpeed_sched (s : State) (e : Bool) (u : Nat) (f : Speed → Speed) : (s.modSpeed e u f).sched = s.sched := rfl
@[simp] theorem State.modSpeed_get_core (s : State) (e : Bool) (u : Nat) (f : Speed → Speed) (i : Nat) : (s.modSpeed e u f).core i = s.core i := rfl
@[simp] theorem State.modSpeed_get_team (s : State) (e : Bool) (u : Nat) (f : Speed → Speed) (i : Nat) : (s.modSpeed e u f).team i = s.team i := rfl
@[simp] theorem State.modSpeed_get_cluster (s : State) (e : Bool) (u : Nat) (f : Speed → Speed) (i : Nat) : (s.modSpeed e u f).cluster i = s.cluster i := rfl
@[simp] theorem State.modSpeed_get_die (s : State) (e : Bool) (u : Nat) (f : Speed → Speed) (i : Nat) : (s.modSpeed e u f).die i = s.die i := rfl
@[simp] theorem State.modSpeed_get_domain (s : State) (e : Bool) (u : Nat) (f : Speed → Speed) (i : Nat) : (s.modSpeed e u f).domain i = s.domain i := rfl
@[simp] theorem State.modSpeed_get_ctx (s : State) (e : Bool) (u : Nat) (f : Speed → Speed) (i j : Nat) : (s.modSpeed e u f).ctx i j = s.ctx i j := rfl

/-! ### setPf -/

@[simp] theorem State.setPf_issue (s : State) (o : Nat) (v : W64) : (s.setPf o v).issue = s.issue := rfl
@[simp] theorem State.setPf_cores (s : State) (o : Nat) (v : W64) : (s.setPf o v).cores = s.cores := rfl
@[simp] theorem State.setPf_teams (s : State) (o : Nat) (v : W64) : (s.setPf o v).teams = s.teams := rfl
@[simp] theorem State.setPf_clusters (s : State) (o : Nat) (v : W64) : (s.setPf o v).clusters = s.clusters := rfl
@[simp] theorem State.setPf_dies (s : State) (o : Nat) (v : W64) : (s.setPf o v).dies = s.dies := rfl
@[simp] theorem State.setPf_domains (s : State) (o : Nat) (v : W64) : (s.setPf o v).domains = s.domains := rfl
@[simp] theorem State.setPf_hbm (s : State) (o : Nat) (v : W64) : (s.setPf o v).hbm = s.hbm := rfl
@[simp] theorem State.setPf_hbt (s : State) (o : Nat) (v : W64) : (s.setPf o v).hbt = s.hbt := rfl
@[simp] theorem State.setPf_fresh (s : State) (o : Nat) (v : W64) : (s.setPf o v).fresh = s.fresh := rfl
@[simp] theorem State.setPf_sched (s : State) (o : Nat) (v : W64) : (s.setPf o v).sched = s.sched := rfl
@[simp] theorem State.setPf_get_core (s : State) (o : Nat) (v : W64) (i : Nat) : (s.setPf o v).core i = s.core i := rfl
@[simp] theorem State.setPf_get_team (s : State) (o : Nat) (v : W64) (i : Nat) : (s.setPf o v).team i = s.team i := rfl
@[simp] theorem State.setPf_get_cluster (s : State) (o : Nat) (v : W64) (i : Nat) : (s.setPf o v).cluster i = s.cluster i := rfl
@[simp] theorem State.setPf_get_die (s : State) (o : Nat) (v : W64) (i : Nat) : (s.setPf o v).die i = s.die i := rfl
@[simp] theorem State.setPf_get_domain (s : State) (o : Nat) (v : W64) (i : Nat) : (s.setPf o v).domain i = s.domain i := rfl
@[simp] theorem State.setPf_get_ctx (s : State) (o : Nat) (v : W64) (i j : Nat) : (s.setPf o v).ctx i j = s.ctx i j := rfl

/-! ### pend -/

@[simp] theorem State.pend_issue (s : State) (l : List Chore) : (s.pend l).issue = s.issue := rfl
@[simp] theorem State.pend_cores (s : State) (l : List Chore) : (s.pend l).cores = s.cores := rfl
@[simp] theorem State.pend_teams (s : State) (l : List Chore) : (s.pend l).teams = s.teams := rfl
@[simp] theorem State.pend_clusters (s : State) (l : List Chore) : (s.pend l).clusters = s.clusters := rfl
@[simp] theorem State.pend_dies (s : State) (l : List Chore) : (s.pend l).dies = s.dies := rfl
@[simp] theorem State.pend_domains (s : State) (l : List Chore) : (s.pend l).domains = s.domains := rfl
@[simp] theorem State.pend_hbm (s : State) (l : List Chore) : (s.pend l).hbm = s.hbm := rfl
@[simp] theorem State.pend_plat (s : State) (l : List Chore) : (s.pend l).plat = s.plat := rfl
@[simp] theorem State.pend_hbt (s : State) (l : List Chore) : (s.pend l).hbt = s.hbt := rfl
@[simp] theorem State.pend_fresh (s : State) (l : List Chore) : (s.pend l).fresh = s.fresh := rfl
@[simp] theorem State.pend_get_core (s : State) (l : List Chore) (i : Nat) : (s.pend l).core i = s.core i := rfl
@[simp] theorem State.pend_get_team (s : State) (l : List Chore) (i : Nat) : (s.pend l).team i = s.team i := rfl
@[simp] theorem State.pend_get_cluster (s : State) (l : List Chore) (i : Nat) : (s.pend l).cluster i = s.cluster i := rfl
@[simp] theorem State.pend_get_die (s : State) (l : List Chore) (i : Nat) : (s.pend l).die i = s.die i := rfl
@[simp] theorem State.pend_get_domain (s : State) (l : List Chore) (i : Nat) : (s.pend l).domain i = s.domain i := rfl
@[simp] theorem State.pend_get_vf (s : State) (l : List Chore) (i : Nat) : (s.pend l).vf i = s.vf i := rfl
@[simp] theorem State.pend_get_node (s : State) (l : List Chore) (i : Nat) : (s.pend l).node i = s.node i := rfl
@[simp] theorem State.pend_get_edge (s : State) (l : List Chore) (i : Nat) : (s.pend l).edge i = s.edge i := rfl
@[simp] theorem State.pend_get_port (s : State) (l : List Chore) (i : Nat) : (s.pend l).port i = s.port i := rfl
@[simp] theorem State.pend_get_pf (s : State) (l : List Chore) (i : Nat) : (s.pend l).pf i = s.pf i := rfl
@[simp] theorem State.pend_get_ctx (s : State) (l : List Chore) (i j : Nat) : (s.pend l).ctx i j = s.ctx i j := rfl

/-! ### quiet -/

@[simp] theorem State.quiet_cores (s : State) : (s.quiet).cores = s.cores := rfl
@[simp] theorem State.quiet_teams (s : State) : (s.quiet).teams = s.teams := rfl
@[simp] theorem State.quiet_clusters (s : State) : (s.quiet).clusters = s.clusters := rfl
@[simp] theorem State.quiet_dies (s : State) : (s.quiet).dies = s.dies := rfl
@[simp] theorem State.quiet_domains (s : State) : (s.quiet).domains = s.domains := rfl
@[simp] theorem State.quiet_hbm (s : State) : (s.quiet).hbm = s.hbm := rfl
@[simp] theorem State.quiet_plat (s : State) : (s.quiet).plat = s.plat := rfl
@[simp] theorem State.quiet_hbt (s : State) : (s.quiet).hbt = s.hbt := rfl
@[simp] theorem State.quiet_fresh (s : State) : (s.quiet).fresh = s.fresh := rfl
@[simp] theorem State.quiet_sched (s : State) : (s.quiet).sched = s.sched := rfl
@[simp] theorem State.quiet_get_core (s : State) (i : Nat) : (s.quiet).core i = s.core i := rfl
@[simp] theorem State.quiet_get_team (s : State) (i : Nat) : (s.quiet).team i = s.team i := rfl
@[simp] theorem State.quiet_get_cluster (s : State) (i : Nat) : (s.quiet).cluster i = s.cluster i := rfl
@[simp] theorem State.quiet_get_die (s : State) (i : Nat) : (s.quiet).die i = s.die i := rfl
@[simp] theorem State.quiet_get_domain (s : State) (i : Nat) : (s.quiet).domain i = s.domain i := rfl
@[simp] theorem State.quiet_get_vf (s : State) (i : Nat) : (s.quiet).vf i = s.vf i := rfl
@[simp] theorem State.quiet_get_node (s : State) (i : Nat) : (s.quiet).node i = s.node i := rfl
@[simp] theorem State.quiet_get_edge (s : State) (i : Nat) : (s.quiet).edge i = s.edge i := rfl
@[simp] theorem State.quiet_get_port (s : State) (i : Nat) : (s.quiet).port i = s.port i := rfl
@[simp] theorem State.quiet_get_pf (s : State) (i : Nat) : (s.quiet).pf i = s.pf i := rfl
@[simp] theorem State.quiet_get_ctx (s : State) (i j : Nat) : (s.quiet).ctx i j = s.ctx i j := rfl

/-! ### hputb -/

@[simp] theorem State.hputb_issue (s : State) (a : Nat) (b : Byte) : (s.hputb a b).issue = s.issue := rfl
@[simp] theorem State.hputb_cores (s : State) (a : Nat) (b : Byte) : (s.hputb a b).cores = s.cores := rfl
@[simp] theorem State.hputb_teams (s : State) (a : Nat) (b : Byte) : (s.hputb a b).teams = s.teams := rfl
@[simp] theorem State.hputb_clusters (s : State) (a : Nat) (b : Byte) : (s.hputb a b).clusters = s.clusters := rfl
@[simp] theorem State.hputb_dies (s : State) (a : Nat) (b : Byte) : (s.hputb a b).dies = s.dies := rfl
@[simp] theorem State.hputb_domains (s : State) (a : Nat) (b : Byte) : (s.hputb a b).domains = s.domains := rfl
@[simp] theorem State.hputb_plat (s : State) (a : Nat) (b : Byte) : (s.hputb a b).plat = s.plat := rfl
@[simp] theorem State.hputb_hbt (s : State) (a : Nat) (b : Byte) : (s.hputb a b).hbt = s.hbt := rfl
@[simp] theorem State.hputb_fresh (s : State) (a : Nat) (b : Byte) : (s.hputb a b).fresh = s.fresh := rfl
@[simp] theorem State.hputb_sched (s : State) (a : Nat) (b : Byte) : (s.hputb a b).sched = s.sched := rfl
@[simp] theorem State.hputb_get_core (s : State) (a : Nat) (b : Byte) (i : Nat) : (s.hputb a b).core i = s.core i := rfl
@[simp] theorem State.hputb_get_team (s : State) (a : Nat) (b : Byte) (i : Nat) : (s.hputb a b).team i = s.team i := rfl
@[simp] theorem State.hputb_get_cluster (s : State) (a : Nat) (b : Byte) (i : Nat) : (s.hputb a b).cluster i = s.cluster i := rfl
@[simp] theorem State.hputb_get_die (s : State) (a : Nat) (b : Byte) (i : Nat) : (s.hputb a b).die i = s.die i := rfl
@[simp] theorem State.hputb_get_domain (s : State) (a : Nat) (b : Byte) (i : Nat) : (s.hputb a b).domain i = s.domain i := rfl
@[simp] theorem State.hputb_get_vf (s : State) (a : Nat) (b : Byte) (i : Nat) : (s.hputb a b).vf i = s.vf i := rfl
@[simp] theorem State.hputb_get_node (s : State) (a : Nat) (b : Byte) (i : Nat) : (s.hputb a b).node i = s.node i := rfl
@[simp] theorem State.hputb_get_edge (s : State) (a : Nat) (b : Byte) (i : Nat) : (s.hputb a b).edge i = s.edge i := rfl
@[simp] theorem State.hputb_get_port (s : State) (a : Nat) (b : Byte) (i : Nat) : (s.hputb a b).port i = s.port i := rfl
@[simp] theorem State.hputb_get_pf (s : State) (a : Nat) (b : Byte) (i : Nat) : (s.hputb a b).pf i = s.pf i := rfl
@[simp] theorem State.hputb_get_ctx (s : State) (a : Nat) (b : Byte) (i j : Nat) : (s.hputb a b).ctx i j = s.ctx i j := rfl

/-! ### The unit that changes -/

@[simp] theorem State.modCore_same (s : State) (n : Nat) (f : Core → Core) : (s.modCore n f).core n = f (s.core n) := by simp [State.modCore, State.core]
theorem State.modCore_other (s : State) {n m : Nat} (f : Core → Core) (h : m ≠ n) : (s.modCore n f).core m = s.core m := by simp [State.modCore, State.core, tget_tmod_ne _ _ _ _ h]
@[simp] theorem State.modTeam_same (s : State) (n : Nat) (f : Team → Team) : (s.modTeam n f).team n = f (s.team n) := by simp [State.modTeam, State.team]
theorem State.modTeam_other (s : State) {n m : Nat} (f : Team → Team) (h : m ≠ n) : (s.modTeam n f).team m = s.team m := by simp [State.modTeam, State.team, tget_tmod_ne _ _ _ _ h]
@[simp] theorem State.modCluster_same (s : State) (n : Nat) (f : Cluster → Cluster) : (s.modCluster n f).cluster n = f (s.cluster n) := by simp [State.modCluster, State.cluster]
theorem State.modCluster_other (s : State) {n m : Nat} (f : Cluster → Cluster) (h : m ≠ n) : (s.modCluster n f).cluster m = s.cluster m := by simp [State.modCluster, State.cluster, tget_tmod_ne _ _ _ _ h]
@[simp] theorem State.modDie_same (s : State) (n : Nat) (f : Die → Die) : (s.modDie n f).die n = f (s.die n) := by simp [State.modDie, State.die]
theorem State.modDie_other (s : State) {n m : Nat} (f : Die → Die) (h : m ≠ n) : (s.modDie n f).die m = s.die m := by simp [State.modDie, State.die, tget_tmod_ne _ _ _ _ h]
@[simp] theorem State.modDomain_same (s : State) (n : Nat) (f : Domain → Domain) : (s.modDomain n f).domain n = f (s.domain n) := by simp [State.modDomain, State.domain]
theorem State.modDomain_other (s : State) {n m : Nat} (f : Domain → Domain) (h : m ≠ n) : (s.modDomain n f).domain m = s.domain m := by simp [State.modDomain, State.domain, tget_tmod_ne _ _ _ _ h]
@[simp] theorem State.modVf_same (s : State) (n : Nat) (f : Vf → Vf) : (s.modVf n f).vf n = f (s.vf n) := by simp [State.modVf, State.vf, State.modPlat]
theorem State.modVf_other (s : State) {n m : Nat} (f : Vf → Vf) (h : m ≠ n) : (s.modVf n f).vf m = s.vf m := by simp [State.modVf, State.vf, State.modPlat, tget_tmod_ne _ _ _ _ h]
@[simp] theorem State.modNode_same (s : State) (n : Nat) (f : Node → Node) : (s.modNode n f).node n = f (s.node n) := by simp [State.modNode, State.node, State.modPlat]
theorem State.modNode_other (s : State) {n m : Nat} (f : Node → Node) (h : m ≠ n) : (s.modNode n f).node m = s.node m := by simp [State.modNode, State.node, State.modPlat, tget_tmod_ne _ _ _ _ h]
@[simp] theorem State.modEdge_same (s : State) (n : Nat) (f : Edge → Edge) : (s.modEdge n f).edge n = f (s.edge n) := by simp [State.modEdge, State.edge, State.modPlat]
theorem State.modEdge_other (s : State) {n m : Nat} (f : Edge → Edge) (h : m ≠ n) : (s.modEdge n f).edge m = s.edge m := by simp [State.modEdge, State.edge, State.modPlat, tget_tmod_ne _ _ _ _ h]
@[simp] theorem State.modPort_same (s : State) (n : Nat) (f : Port → Port) : (s.modPort n f).port n = f (s.port n) := by simp [State.modPort, State.port, State.modPlat]
theorem State.modPort_other (s : State) {n m : Nat} (f : Port → Port) (h : m ≠ n) : (s.modPort n f).port m = s.port m := by simp [State.modPort, State.port, State.modPlat, tget_tmod_ne _ _ _ _ h]
@[simp] theorem Core.modCtx_same (c : Core) (k : Nat) (f : Ctx → Ctx) : (c.modCtx k f).ctx k = f (c.ctx k) := by simp [Core.modCtx, Core.ctx]
theorem Core.modCtx_other (c : Core) {k m : Nat} (f : Ctx → Ctx) (h : m ≠ k) : (c.modCtx k f).ctx m = c.ctx m := by
  simp [Core.modCtx, Core.ctx, tget_tmod_ne _ _ _ _ h]
@[simp] theorem State.modCtx_same (s : State) (c k : Nat) (f : Ctx → Ctx) : (s.modCtx c k f).ctx c k = f (s.ctx c k) := by
  simp [State.modCtx, State.ctx]
theorem State.modCtx_other_ctx (s : State) {c k m : Nat} (f : Ctx → Ctx) (h : m ≠ k) : (s.modCtx c k f).ctx c m = s.ctx c m := by
  simp [State.modCtx, State.ctx, Core.modCtx_other _ _ h]
theorem State.modCtx_other_core (s : State) {c k n m : Nat} (f : Ctx → Ctx) (h : n ≠ c) : (s.modCtx c k f).ctx n m = s.ctx n m := by
  simp [State.modCtx, State.ctx, State.modCore_other _ _ h]
@[simp] theorem State.setPf_same (s : State) (o : Nat) (v : W64) : (s.setPf o v).pf o = v := by simp [State.setPf, State.pf, State.modPlat]
@[simp] theorem State.quiet_issue (s : State) : s.quiet.issue = {} := rfl

/-- Two changes of one context are one. -/
theorem tmod_tmod (t : Tab α) (k : Nat) (d : α) (f g : α → α) : tmod (tmod t k d f) k d g = tmod t k d (fun x => g (f x)) := by
  simp only [tmod, tget_tput_self]
  induction t with
  | nil => simp [tput]
  | cons p r ih =>
    obtain ⟨j, u⟩ := p
    by_cases h1 : j = k
    · subst h1; simp [tput, tget, tfind]
    · by_cases h2 : k < j
      · simp [tput, h1, h2, tget, tfind]
      · simp only [tput, h1, h2, if_false, tget, tfind]
        exact congrArg _ ih
theorem State.modCore_modCore (s : State) (c : Nat) (f g : Core → Core) : (s.modCore c f).modCore c g = s.modCore c (fun x => g (f x)) := by
  simp [State.modCore, tmod_tmod]
theorem Core.modCtx_modCtx (c : Core) (k : Nat) (f g : Ctx → Ctx) : (c.modCtx k f).modCtx k g = c.modCtx k (fun x => g (f x)) := by
  simp [Core.modCtx, tmod_tmod]
theorem State.modCtx_modCtx (s : State) (c k : Nat) (f g : Ctx → Ctx) : (s.modCtx c k f).modCtx c k g = s.modCtx c k (fun x => g (f x)) := by
  simp [State.modCtx, State.modCore_modCore, Core.modCtx_modCtx]

/-! ### HBM -/

/-- A byte write keeps the canonical form of HBM. -/
theorem State.hputb_wf (s : State) (a : Nat) (b : Byte) (h : Memory.wf s.hbm) : Memory.wf (s.hputb a b).hbm := Memory.wf_tset a b h
theorem State.hwriteMask_wf (s : State) (a n v m : Nat) (h : Memory.wf s.hbm) : Memory.wf (s.hwriteMask a n v m).hbm := by
  unfold State.hwriteMask
  generalize List.range n = l
  induction l generalizing s with
  | nil => exact h
  | cons i r ih =>
    simp only [List.foldl_cons]
    apply ih
    split
    · exact State.hputb_wf s _ _ h
    · exact h
theorem State.hwrite_wf (s : State) (a n v : Nat) (h : Memory.wf s.hbm) : Memory.wf (s.hwrite a n v).hbm := State.hwriteMask_wf s a n v _ h
theorem State.reset_wf : Memory.wf State.reset.hbm := ⟨rfl, rfl⟩
theorem State.hbyte_hputb_same (s : State) (a : Nat) (b : Byte) (h : Memory.wf s.hbm) : (s.hputb a b).hbyte a = b := tget_tset_self a b 0 h.1
theorem State.hbyte_hputb_other (s : State) {a m : Nat} (b : Byte) (h : m ≠ a) : (s.hputb a b).hbyte m = s.hbyte m := tget_tset_ne s.hbm b 0 0 h
/-- A masked write leaves every byte outside it. -/
theorem State.hbyte_hwriteMask_other (s : State) (a n v m x : Nat) (h : x < a ∨ a + n ≤ x) : (s.hwriteMask a n v m).hbyte x = s.hbyte x := by
  unfold State.hwriteMask
  have key : ∀ (l : List Nat) (s : State), (∀ i ∈ l, i < n) →
      (l.foldl (fun s i => if m.testBit i then s.hputb (a + i) (byteOf v i) else s) s).hbyte x = s.hbyte x := by
    intro l
    induction l with
    | nil => intro s _; rfl
    | cons i r ih =>
      intro s hl
      simp only [List.foldl_cons]
      rw [ih _ (fun j hj => hl j (by simp [hj]))]
      have hi := hl i (by simp)
      split
      · exact State.hbyte_hputb_other s _ (by omega)
      · rfl
  exact key _ s (fun i hi => List.mem_range.1 hi)
theorem State.hbyte_hwrite_other (s : State) (a n v x : Nat) (h : x < a ∨ a + n ≤ x) : (s.hwrite a n v).hbyte x = s.hbyte x :=
  State.hbyte_hwriteMask_other s a n v _ x h

end Sys2Proof.Machine
end

