-- ==== Sys2Proof/Laws/Run.lean ====
section
/-!
SUPPORT. How the parts of a meaning compose: one lemma for each way a part goes on, and the lemma by which a word whose
parts go on answers its next state.
-/

namespace Sys2Proof.Machine

open Sys2Proof

/-! ### The issuing context -/

theorem State.onCur_onCur (s : State) (f g : Ctx → Ctx) : (s.onCur f).onCur g = s.onCur (fun x => g (f x)) :=
  State.modCtx_modCtx s _ _ f g
theorem State.onCore_onCore (s : State) (f g : Core → Core) : (s.onCore f).onCore g = s.onCore (fun x => g (f x)) :=
  State.modCore_modCore s _ f g
@[simp] theorem State.onCur_issue (s : State) (f : Ctx → Ctx) : (s.onCur f).issue = s.issue := rfl
@[simp] theorem State.onCore_issue (s : State) (f : Core → Core) : (s.onCore f).issue = s.issue := rfl
@[simp] theorem State.putX_issue (s : State) (d : BitVec 6) (v : W64) : (s.putX d v).issue = s.issue := by unfold State.putX; split <;> rfl
@[simp] theorem State.onCur_cur (s : State) (f : Ctx → Ctx) : (s.onCur f).cur = f s.cur := by
  simp [State.onCur, State.cur]

/-- A change of the issuing context is judged at the value it changes. -/
theorem State.onCur_congr {s : State} {f g : Ctx → Ctx} (h : f s.cur = g s.cur) : s.onCur f = s.onCur g := by
  unfold State.onCur State.modCtx State.modCore Core.modCtx tmod
  simp only [State.cur, State.ctx, State.core, Core.ctx] at h
  dsimp only
  rw [h]

/-! ### Parts in sequence -/

/-- The next state named another way. -/
theorem Gives.to {m : M α} (h : Gives m s x t) (e : t = u) : Gives m s x u := e ▸ h

theorem Gives.pure (x : α) (s : State) : Gives (Pure.pure x) s x s := rfl
theorem Gives.get (s : State) : Gives (MonadState.get : M State) s s s := rfl
theorem Gives.set (s t : State) : Does (MonadStateOf.set t) s t := rfl
theorem Gives.change (f : State → State) (s : State) : Does (modify f) s (f s) := rfl

theorem Gives.bind {m : M α} {f : α → M β} (h : Gives m s x s1) (h2 : Gives (f x) s1 y t) : Gives (m >>= f) s y t := by
  simp only [Gives, StateT.run_bind] at *
  rw [h]; exact h2

theorem Gives.bind_iff {m : M α} {f : α → M β} (h : Gives m s x s1) : Gives (m >>= f) s y t ↔ Gives (f x) s1 y t := by
  simp only [Gives, StateT.run_bind] at *
  rw [h]; rfl

theorem Gives.unique {m : M α} (h : Gives m s x t) (h2 : Gives m s y u) : x = y ∧ t = u := by
  simp only [Gives] at *
  rw [h] at h2
  injection h2 with h2
  injection h2 with h2 h3
  exact ⟨h2, h3⟩

theorem Gives.modCtx (f : Ctx → Ctx) (s : State) : Does (Machine.modCtx f) s (s.onCur f) := rfl
theorem Gives.modCore (f : Core → Core) (s : State) : Does (Machine.modCore f) s (s.onCore f) := rfl
theorem Gives.getCtx (s : State) : Gives Machine.getCtx s s.cur s := rfl
theorem Gives.getCore (s : State) : Gives Machine.getCore s (s.core s.issue.core) s := rfl
theorem Gives.xget (c : BitVec 6) (s : State) : Gives (Machine.xget c) s (s.xval c) s := rfl
theorem Gives.ignoring (c : Nat) (s : State) : Gives (Machine.ignoring c) s (s.issue.ign.contains c) s := rfl

/-! ### A word whose parts go on -/

theorem checkReads_ok {t : State} (h : t.readsOk) : Does (checkReads vec) t t := by
  obtain ⟨hb, hl⟩ := h
  refine Gives.bind (Gives.get t) ?_
  rw [hb]
  dsimp only
  cases hlow : t.issue.low with
  | none => exact Gives.pure () t
  | some o =>
    have hne : (t.ctx t.issue.core t.issue.ctx).parityDue = false := by
      rcases hl with hl | hl
      · simp [hlow] at hl
      · exact hl
    simp only [hne, Bool.false_eq_true, false_and, if_false]
    exact Gives.pure () t

theorem firstCause_clear {s : State} (h : s.clear i) : s.firstCause i false false = none := by
  obtain ⟨-, -, -, hb, hl, hm⟩ := h
  have : s.issue.hmod.any (fun p => !modLegal (modClass i) p) = false := by
    rw [List.any_eq_false]; rw [List.all_eq_true] at hm
    intro p hp; simp [hm p hp]
  simp [State.firstCause, hb, this]
  omega

/-- A clear word that has read nothing carries no harm. -/
theorem State.clear.readsOk {s : State} (h : s.clear i) : s.readsOk := ⟨h.2.2.1, .inl h.2.1⟩

/-- The same after steps that leave the reads as they were. -/
theorem State.clear.readsOk' {s t : State} (h : s.clear i) (e : t.issue = s.issue) : t.readsOk :=
  ⟨by rw [e]; exact h.2.2.1, .inl (by rw [e]; exact h.2.1)⟩

/-- A word whose issue is clear and whose body goes on to t, with nothing harmful read, answers t. -/
theorem runWith_ok (h : s.clear i) (hill : ill = false) (hopd : opd = false) (hb : Does body s t) (hr : Does (checkReads vec) t t) :
    runWith i ill opd vec body s = .next t.quiet := by
  subst hill hopd
  have hrun : (do body; checkReads vec : M Unit).run s = .ok ((), t) := Gives.bind hb hr
  unfold runWith settle attempt
  simp only [h.1, List.any_nil, firstCause_clear h, hrun]
  simp

theorem run_ok (h : s.clear i) (hill : ill = false) (hopd : opd = false) (hb : Does body s t) (hr : t.readsOk) :
    run i ill opd body s = .next t.quiet := runWith_ok h hill hopd hb (checkReads_ok hr)

theorem runV_ok (h : s.clear i) (hill : ill = false) (hopd : opd = false) (hb : Does body s t) (hr : t.readsOk) :
    runV i ill opd body s = .next t.quiet := runWith_ok h hill hopd hb (checkReads_ok hr)

/-! ### A word whose body traps or waits -/

theorem Gives.throws {m : M α} {f : α → M β} {e : Stop} (h : Gives m s x s1) (h2 : (f x).run s1 = .error e) : (m >>= f).run s = .error e := by
  simp only [Gives, StateT.run_bind] at *
  rw [h]; exact h2

theorem throws_first {m : M α} {f : α → M β} {e : Stop} (h : m.run s = .error e) : (m >>= f).run s = .error e := by
  rw [StateT.run_bind, h]; rfl

/-- A clear word whose body waits stands in its buffer again. -/
theorem run_waits {body : M Unit} (h : s.clear i) (hopd : opd = false) (hb : body.run s = .error (.stall l)) :
    run i false opd body s = .next ((s.onCur (fun c => c.pushBack (s.slot i))).quiet.pend l) := by
  subst hopd
  have hrun : (do body; checkReads false : M Unit).run s = .error (.stall l) := throws_first hb
  unfold run runWith settle attempt
  simp only [h.1, List.any_nil, firstCause_clear h, hrun]
  rfl

/-- A clear word whose body traps with a cause of its own, above those of its form, goes to the handler (R228). -/
theorem run_traps {body : M Unit} (h : s.clear i) (hill : ill = false) (hopd : opd = false) (hb : body.run s = .error (.trap c v false))
    (hc : 4 ≤ c) (hp : c ≠ 10) (hh : s.cur.handled c (groupOf c false) = true) :
    run i ill opd body s = .next (s.trapsTo i (s.trapHalf i) c v).quiet := by
  subst hill hopd
  have hrun : (do body; checkReads false : M Unit).run s = .error (.trap c v false) := throws_first hb
  have hatt : attempt i false false false body s = .error (.trap c v false) := by
    unfold attempt
    simp only [h.1, List.any_nil, firstCause_clear h, hrun]
    match c, hc with
    | n + 4, _ => rfl
  have he : ((s.onCur (fun x => x.report (s.trapHalf i) s.issue.first c v)).cur).handled c (groupOf c false) = true := by
    rw [State.onCur_cur]; exact hh
  unfold run runWith settle
  rw [hatt]
  simp only [State.takeTrap, hp, if_false]
  rw [if_pos (by exact he)]
  show Host.Outcome.next _ = _
  simp [State.trapsTo, State.onCur, State.modCtx_modCtx]

end Sys2Proof.Machine
end

