-- ==== Sys2Proof/Laws/Operands.lean ====
section
/-!
SUPPORT. What reading and writing an operand can do: one lemma for each operation, in both directions.
-/

namespace Sys2Proof.Machine

open Sys2Proof

/-! ### Queues -/

theorem popQ_nil {s : State} (h : s.cur.que q = []) : (popQ q).run s = .error (.stall []) := by
  simp only [State.cur] at h
  show (match (s.ctx s.issue.core s.issue.ctx).que q with | [] => _ | e :: r => _ : M Entry).run s = _
  rw [h]; rfl

theorem popQ_cons {s : State} (h : s.cur.que q = e :: r) : Gives (popQ q) s e (s.onCur (fun c => c.setQue q r)) := by
  simp only [State.cur] at h
  show (match (s.ctx s.issue.core s.issue.ctx).que q with | [] => _ | e :: r => _ : M Entry).run s = _
  rw [h]; rfl

theorem popQ_cases {s t : State} (h : Gives (popQ q) s e t) : ∃ r, s.cur.que q = e :: r ∧ t = s.onCur (fun c => c.setQue q r) := by
  cases hq : s.cur.que q with
  | nil => rw [Gives, popQ_nil hq] at h; cases h
  | cons a r => obtain ⟨h1, h2⟩ := (popQ_cons hq).unique h; exact ⟨r, by rw [h1], h2.symm⟩

theorem pushQ_room {s : State} (h : (s.cur.que q).length < q.room) :
    Does (pushQ q e) s (s.onCur (fun c => c.setQue q (s.cur.que q ++ [e]))) := by
  simp only [State.cur] at h
  show (if ((s.ctx s.issue.core s.issue.ctx).que q).length < q.room then _ else _ : M Unit).run s = _
  rw [if_pos h]; rfl

theorem pushQ_full {s : State} (h : ¬ (s.cur.que q).length < q.room) : (pushQ q e).run s = .error (.stall []) := by
  simp only [State.cur] at h
  show (if ((s.ctx s.issue.core s.issue.ctx).que q).length < q.room then _ else _ : M Unit).run s = _
  rw [if_neg h]; rfl

theorem pushQ_cases {s t : State} (h : Does (pushQ q e) s t) :
    (s.cur.que q).length < q.room ∧ t = s.onCur (fun c => c.setQue q (s.cur.que q ++ [e])) := by
  by_cases hq : (s.cur.que q).length < q.room
  · exact ⟨hq, ((pushQ_room hq).unique h).2.symm⟩
  · have h' : (pushQ q e).run s = .ok ((), t) := h
    rw [pushQ_full hq] at h'; cases h'

theorem noteMark_gives (m : Option Mark) (s : State) : Does (noteMark m) s (s.noted m) := by cases m <;> rfl

@[simp] theorem State.noted_cores (s : State) (m : Option Mark) : (s.noted m).cores = s.cores := by cases m <;> rfl
@[simp] theorem State.noted_ctx (s : State) (m : Option Mark) (c k : Nat) : (s.noted m).ctx c k = s.ctx c k := by cases m <;> rfl
@[simp] theorem State.noted_hbm (s : State) (m : Option Mark) : (s.noted m).hbm = s.hbm := by cases m <;> rfl
@[simp] theorem State.noted_quiet (s : State) (m : Option Mark) : (s.noted m).quiet = s.quiet := by cases m <;> rfl
@[simp] theorem State.noted_addr (s : State) (m : Option Mark) : (s.noted m).issue.addr = s.issue.addr := by cases m <;> rfl
@[simp] theorem State.noted_core (s : State) (m : Option Mark) : (s.noted m).issue.core = s.issue.core := by cases m <;> rfl
@[simp] theorem State.noted_self (s : State) (m : Option Mark) : (s.noted m).issue.ctx = s.issue.ctx := by cases m <;> rfl
@[simp] theorem State.noted_himm (s : State) (m : Option Mark) : (s.noted m).issue.himm = s.issue.himm := by cases m <;> rfl
@[simp] theorem State.noted_low (s : State) (m : Option Mark) : (s.noted m).issue.low = s.issue.low := by cases m <;> rfl
@[simp] theorem State.noted_ign (s : State) (m : Option Mark) : (s.noted m).issue.ign = s.issue.ign := by cases m <;> rfl

/-! ### The access half's operands -/

theorem ahPop_reg (c : BitVec 6) (s : State) (h : c ≠ 56) (h2 : c ≠ 57) : Gives (ahPop c) s ((s.xval c).setWidth 128) s := by
  unfold ahPop
  rw [if_neg h, if_neg h2]; rfl

theorem ahPop_xq {s : State} (h : s.cur.xq = e :: r) : Gives (ahPop 56) s e.data ((s.onCur (fun c => { c with xq := r })).noted e.mark) :=
  Gives.bind (popQ_cons (q := .xq) h) (Gives.bind (noteMark_gives _ _) (Gives.pure _ _))

theorem ahPop_sq {s : State} (h : s.cur.sq = e :: r) : Gives (ahPop 57) s e.data ((s.onCur (fun c => { c with sq := r })).noted e.mark) :=
  Gives.bind (popQ_cons (q := .sq) h) (Gives.bind (noteMark_gives _ _) (Gives.pure _ _))

theorem ahPop_cases {s t : State} (h : Gives (ahPop c) s x t) :
    (c ≠ 56 ∧ c ≠ 57 ∧ x = (s.xval c).setWidth 128 ∧ t = s) ∨
    ∃ q e r, s.cur.que q = e :: r ∧ x = e.data ∧ t = (s.onCur (fun k => k.setQue q r)).noted e.mark := by
  have key : ∀ q, Gives (do let e ← popQ q; noteMark e.mark; pure e.data : M W128) s x t →
      ∃ q e r, s.cur.que q = e :: r ∧ x = e.data ∧ t = (s.onCur (fun k => k.setQue q r)).noted e.mark := by
    intro q h
    cases hq : s.cur.que q with
    | nil =>
      have h' : (popQ q >>= fun e => noteMark e.mark >>= fun _ => pure e.data : M W128).run s = .ok (x, t) := h
      rw [StateT.run_bind, popQ_nil hq] at h'; cases h'
    | cons e r =>
      rw [Gives.bind_iff (popQ_cons hq), Gives.bind_iff (noteMark_gives _ _)] at h
      obtain ⟨h1, h2⟩ := (Gives.pure _ _).unique h
      exact ⟨q, e, r, hq, h1.symm, h2.symm⟩
  unfold ahPop at h
  split at h
  · exact .inr (key _ h)
  · split at h
    · exact .inr (key _ h)
    · obtain ⟨h1, h2⟩ := (show Gives (pure _) s _ s from rfl).unique h
      exact .inl ⟨‹_›, ‹_›, h1.symm, h2.symm⟩

/-- Reading an operand moves neither the issuing context nor its word. -/
theorem ahPop_issue {s t : State} (h : Gives (ahPop c) s x t) :
    t.issue.addr = s.issue.addr ∧ t.issue.core = s.issue.core ∧ t.issue.ctx = s.issue.ctx ∧ t.issue.himm = s.issue.himm ∧
      t.issue.low = s.issue.low := by
  rcases ahPop_cases h with ⟨-, -, -, rfl⟩ | ⟨q, e, r, -, -, rfl⟩ <;> simp [State.onCur]

/-- Nor does it change what containment lets the word ignore. -/
theorem ahPop_ign {s t : State} (h : Gives (ahPop c) s x t) : t.issue.ign = s.issue.ign := by
  rcases ahPop_cases h with ⟨-, -, -, rfl⟩ | ⟨q, e, r, -, -, rfl⟩ <;> simp [State.onCur]

theorem xset_gives (d : BitVec 6) (v : W64) (s : State) : Does (xset d v) s (s.putX d v) := by
  unfold xset State.putX
  split <;> rfl

theorem ahPush_reg (d : BitVec 6) (v : W64) (s : State) (h : d ≠ 57) : Does (ahPush d v) s (s.putX d v) := by
  unfold ahPush
  rw [if_neg h]; exact xset_gives d v s

theorem ahPush_lq {s : State} (h : s.cur.lq.length < 16) :
    Does (ahPush 57 v) s (s.onCur (fun c => { c with lq := s.cur.lq ++ [{ data := v.setWidth 128 }] })) :=
  pushQ_room (q := .lq) h

end Sys2Proof.Machine
end

