-- ==== Sys2Proof/Laws/Access.lean ====
section
/-!
SUPPORT. What the shared parts of the meanings do when nothing makes them wait: one lemma for each.
-/

namespace Sys2Proof.Machine

open Sys2Proof

theorem await_gives (h : p = true) (s : State) : Does (await p) s s := by subst h; rfl
theorem awaitFor_gives (h : p = true) (s : State) : Does (awaitFor p l) s s := by subst h; rfl
theorem require_gives (h : p = true) (s : State) : Does (require p c v) s s := by subst h; rfl
theorem withheld_gives (h : p = true) (s : State) : Gives (withheld p c v) s false s := by subst h; rfl
theorem ite_gives [Decidable p] {a b : M α} (ht : p → Gives a s x t) (hf : ¬p → Gives b s x t) : Gives (if p then a else b) s x t := by
  split
  · exact ht ‹_›
  · exact hf ‹_›

theorem fallThrough_gives (s : State) : Does fallThrough s (s.onCur (fun c => c.follow s.issue.addr c.eh.isEmpty)) := rfl

theorem settled_gives {s : State} (h : s.settledNow) (all : Bool) : Does (settled all) s s := by
  obtain ⟨h1, h0, h2, h3⟩ := h
  exact (Gives.get s).bind ((awaitFor_gives (by rw [h1, h0]; cases all <;> rfl) s).bind ((awaitFor_gives h2 s).bind (await_gives (by
    show (!s.cur.eh.any _) = true
    rw [h3]; rfl) s)))

theorem passPoint_gives {s : State} (h : s.pointPassed inCore) : Does (passPoint inCore) s s := by
  exact (Gives.get s).bind (ite_gives (fun _ => rfl) (fun hn => absurd h hn))
theorem releaseNow_gives {s : State} (h : s.released scope) : Does (releaseNow scope) s s := by
  exact (Gives.get s).bind (ite_gives (fun _ => rfl) (fun hn => absurd h hn))
theorem fenceFirst_gives {s : State} (h : s.kind = 4 → s.cur.scPass = some s.issue.seq) : Does fenceFirst s s := by
  exact (Gives.get s).bind (ite_gives (fun hk => absurd (h hk.1) hk.2) (fun _ => rfl))
theorem openFence_gives (s : State) (scope : Nat) : Does (openFence scope) s (s.fencing scope) := rfl
/-- What follows a store or an atomic: nothing, unless it is of kind SC (R111). -/
theorem fenceAfter_gives (s : State) : Does fenceAfter s (s.fencedAfter s.kind s.scope) := by
  refine (Gives.get s).bind ?_
  unfold State.fencedAfter
  split
  · exact openFence_gives s s.scope
  · rfl

/-- A local store that issues takes its version entry, its delta's place and the next access number. -/
theorem holdStore_gives {s t : State} {q : Nat} (h : s.takeEntry s.issue.core l = .ok (q, t)) :
    Gives (holdStore l n v w) s (some (s.holding t l n v q w)) (t.modCore s.issue.core (fun co => { co with accesses := (t.core s.issue.core).accesses + 1 })) := by
  refine (Gives.get s).bind ?_
  show Gives (match s.takeEntry s.issue.core l with | .error f => _ | .ok (q, t) => _) _ _ _
  rw [h]; rfl

theorem localAccess_gives {s : State} (h : s.freeAt (s.locate s.issue.core addr n) n) :
    Gives (localAccess addr n) s (s.locate s.issue.core addr n) (s.touched (s.locate s.issue.core addr n)) := by
  obtain ⟨h1, h2, h3, h4⟩ := h
  refine (Gives.get s).bind ?_
  show Gives (match s.locate s.issue.core addr n with | .absent k win => _ | _ => _) _ _ _
  generalize s.locate s.issue.core addr n = l at *
  have hw : (s.core s.issue.core).busy l n = true ∨ s.walkerAhead l n true = true ↔ False := by simp [h3, h4]
  cases l with
  | absent k w => exact absurd rfl (h1 k w)
  | unconf => simp only [h2, h3, h4]; rfl
  | tcm off => simp only [h2, h3, h4]; rfl
  | pad a b c d e => simp only [h2, h3, h4]; rfl

/-- Up to 8 bytes are read at once; of 16, the high 8 when the low 8 have been read (R109). -/
theorem localRead_gives {s : State} (h : n ≠ 16) : Gives (localRead l n) s (s.lreadAt s.issue.core l n) s := by
  refine (Gives.get s).bind ?_
  rw [if_pos h]; rfl
theorem localRead_high {s : State} (h : partOf s.readSoFar 0 = some x) :
    Gives (localRead l 16) s (x.value + 2 ^ 64 * s.lreadAt s.issue.core l.high 8) (s.onCur (fun c => { c with loaded := [] })) := by
  refine (Gives.get s).bind ?_
  show Gives (match partOf s.readSoFar 0 with | none => _ | some x => _) _ _ _
  rw [h]; rfl

theorem State.touched_cur (s : State) (l : Loc) : (s.touched l).cur = s.cur := by
  unfold State.touched
  split
  · show ((s.modCore _ _).core s.issue.core).ctx s.issue.ctx = _
    rw [State.modCore_same]; rfl
  · rfl

/-- Counting the touch of an unconfigured window changes no byte that can be read. -/
theorem State.lreadAt_touched (s : State) (l : Loc) (c n : Nat) : (s.touched l).lreadAt c l n = s.lreadAt c l n := by
  unfold State.touched
  split
  · subst l; rfl
  · rfl

theorem injectParity_gives {s : State} (h1 : s.cur.injects 2 = false) (h2 : s.cur.injects 3 = false) (l : Loc) (a : Nat) :
    Does (injectParity a l) s s := by
  refine (Gives.get _).bind ?_
  simp only [State.cur] at h1 h2
  simp only [h1, h2, Bool.false_and, Bool.or_false]
  rfl

theorem checkParity_gives {s : State} (h : s.soundAt l a n) (b : Nat) : Does (checkParity b l n) s s := by
  refine (Gives.get _).bind ?_
  rw [h.1]; rfl
theorem checkMark_gives {s : State} (h : s.soundAt l a n) : Does (checkMark a l n) s s := by
  refine (Gives.get _).bind ?_
  rw [h.2]; rfl
/-- Counting the touch of an unconfigured window leaves what a read finds. -/
theorem State.soundAt_touched {s : State} (h : s.soundAt l a n) : (s.touched l).soundAt l a n := by
  unfold State.touched
  split
  · subst l; exact ⟨rfl, rfl⟩
  · exact h

/-- What a load gives to its destination. -/
theorem loadResult_reg {s : State} (h : d ≠ 57) : Does (loadResult d n v m) s (s.putX d (sext (8 * n) v)) := by
  unfold loadResult
  rw [if_neg h]; exact xset_gives _ _ _
theorem loadResult_lq {s : State} (h : s.cur.lq.length < 16) :
    Does (loadResult 57 n v m) s (s.onCur (fun c => { c with lq := c.lq ++ [{ data := BitVec.ofNat 128 v, mark := m }] })) :=
  (pushQ_room (q := .lq) h).to (State.onCur_congr rfl)

theorem localWrite_gives {s t : State} (h : s.lwriteAt s.issue.core l n v none = .ok t) : Does (localWrite l n v) s t := by
  refine (Gives.get s).bind ?_
  rw [h]; rfl

@[simp] theorem State.touched_issue (s : State) (l : Loc) : (s.touched l).issue = s.issue := by unfold State.touched; split <;> rfl
@[simp] theorem State.takeSeq_issue (s : State) (c : Nat) : (s.takeSeq c).2.issue = s.issue := rfl
@[simp] theorem State.emit_issue (s : State) (c q n : Nat) (k : DeltaKind) (t : Target) : (s.emit c q n k t).issue = s.issue := rfl
@[simp] theorem State.emitLine_issue (s : State) (c q : Nat) (t : Target) (o n v : Nat) : (s.emitLine c q t o n v).issue = s.issue := by
  unfold State.emitLine; split <;> rfl
@[simp] theorem State.sends_issue (s : State) (n : Nat) (k : DeltaKind) (t : Target) : (s.sends n k t).issue = s.issue := rfl
@[simp] theorem State.sendOut_issue (s : State) (f : OutFlit) : (s.sendOut f).issue = s.issue := by
  unfold State.sendOut
  dsimp only
  (repeat' split) <;> rfl
@[simp] theorem State.sendAway_issue (s : State) (c d n : Nat) (l : List W64) : (s.sendAway c d n l).issue = s.issue := by
  unfold State.sendAway
  rw [State.sendOut_issue]; rfl
@[simp] theorem State.onWalker_issue (s : State) (w : Nat) (f : Walker → Walker) : (s.onWalker w f).issue = s.issue := rfl
@[simp] theorem State.modRing_issue (s : State) (c h : Nat) (f : Ring → Ring) : (s.modRing c h f).issue = s.issue := rfl

theorem State.readsOk_of {s t : State} (h : s.unread) (e : t.issue = s.issue) : t.readsOk := ⟨by rw [e]; exact h.1, .inl (by rw [e]; exact h.2)⟩

@[simp] theorem State.onWalker_walker (s : State) (w : Nat) (f : Walker → Walker) : (s.onWalker w f).walker w = f (s.walker w) := by
  show tget (s.onCur _).cur.walkers w {} = _
  rw [State.onCur_cur]
  exact tget_tmod_self _ _ _ _

theorem State.onWalker_onWalker (s : State) (w : Nat) (f g : Walker → Walker) : (s.onWalker w f).onWalker w g = s.onWalker w (fun k => g (f k)) := by
  unfold State.onWalker
  rw [State.onCur_onCur]
  simp [tmod_tmod]

/-- A back-edge moves the fetch point, the loop levels and VIEW, and nothing else. -/
theorem Ctx.backEdge_frame (c : Ctx) (a : W64) (idle r : Bool) (n : Nat) :
    ∃ p e l v, c.backEdge a idle r n = { c with pc := p, edge := e, loops := l, view := v } := by
  induction n generalizing c r with
  | zero => exact ⟨c.pc, c.edge, c.loops, c.view, rfl⟩
  | succ n ih =>
    unfold Ctx.backEdge
    dsimp only
    split
    · exact ⟨_, _, _, _, rfl⟩
    split
    · exact ⟨_, _, _, _, rfl⟩
    have base : ∃ l v, (if r = true then c else { c with view := rotated c.view }) = { c with loops := l, view := v } := by
      split
      · exact ⟨_, _, rfl⟩
      · exact ⟨_, _, rfl⟩
    obtain ⟨l, v, hb⟩ := base
    rw [hb]
    dsimp only
    split
    · split
      · exact ⟨_, _, _, _, rfl⟩
      split
      · exact ⟨_, _, _, _, rfl⟩
      obtain ⟨p, e, l2, v2, h⟩ := ih _ false
      rw [h]
      exact ⟨_, _, _, _, rfl⟩
    · split
      · exact ⟨_, _, _, _, rfl⟩
      obtain ⟨p, e, l2, v2, h⟩ := ih _ false
      rw [h]
      exact ⟨_, _, _, _, rfl⟩

/-- The front end going on moves the fetch point, the loop levels and VIEW, and nothing else. -/
theorem Ctx.follow_frame (c : Ctx) (a : W64) (idle : Bool) : ∃ p e l v, c.follow a idle = { c with pc := p, edge := e, loops := l, view := v } := by
  obtain ⟨p, e, l, v, h⟩ := ({ c with pc := a + 4 } : Ctx).backEdge_frame a idle false 4
  exact ⟨p, e, l, v, by unfold Ctx.follow; rw [h]⟩

/-! ### The entries that a delta reserves (R86, R298) -/

theorem poolEntry_gives {s : State} (h : (s.cluster k).poolUsed < Config.poolEntries) :
    Gives (poolEntry k) s true (s.modCluster k (fun x => { x with reserved := x.reserved + 1 })) :=
  (Gives.get s).bind (ite_gives (fun _ => rfl) (fun hn => absurd h hn))
theorem mailEntry_gives {s : State} (h : (s.core c).mailUsed + n ≤ Config.mailboxWords) :
    Gives (mailEntry c n) s true (s.modCore c (fun x => { x with mailRes := x.mailRes + n })) :=
  (Gives.get s).bind (ite_gives (fun _ => rfl) (fun hn => absurd h hn))
theorem storeEntry_gives {s : State} (h : (s.die d).storeUsed < Config.deltaEntries) :
    Gives (storeEntry d) s true (s.modDie d (fun x => x.reserve (s.tenantOf s.issue.core))) :=
  (Gives.get s).bind (ite_gives (fun _ => rfl) (fun hn => absurd h hn))
theorem foreignEntry_gives {s : State} (h : Config.foreignRoom s.fresh = true) :
    Gives (foreignEntry x) s true { s with fresh := s.fresh + 1 } := by
  unfold foreignEntry Gives
  simp [h]; rfl
theorem foreignEntry_traps {s : State} (h : ¬Config.foreignRoom s.fresh = true) (hi : s.issue.ign = []) :
    (foreignEntry x).run s = .error (.trap 13 (w64 (dieOf (bf x 0 13))) false) := by
  unfold foreignEntry
  simp [h, hi]; rfl

end Sys2Proof.Machine
end

