-- ==== Sys2Proof/Laws/Memory.lean ====
section
/-!
SUPPORT. The canonical form of memory: every operation that writes HBM, host memory, a TCM or a scratchpad keeps it.
-/

namespace Sys2Proof.Machine

open Sys2Proof

/-! ### HBM -/

theorem State.scrubLine_wf (s : State) (phys : Nat) (h : Memory.wf s.hbm) : Memory.wf (s.scrubLine phys).hbm := by
  unfold State.scrubLine
  dsimp only
  split
  · exact h
  · split
    · rw [State.modPlat_hbm]
      exact State.hwrite_wf s _ _ _ h
    · exact h

@[simp] theorem State.notePoison_hbm (s : State) (phys n m : Nat) : (s.notePoison phys n m).hbm = s.hbm := by
  unfold State.notePoison
  split <;> rfl
@[simp] theorem State.copyPoison_hbm (s : State) (src dst : Nat) : (s.copyPoison src dst).hbm = s.hbm := rfl

theorem State.shadowWrite_wf (s : State) (v : Nat) (va : W64) (phys n x m : Nat) (h : Memory.wf s.hbm) :
    Memory.wf (s.shadowWrite v va phys n x m).hbm := by
  unfold State.shadowWrite
  dsimp only
  split
  · exact h
  · rw [State.notePoison_hbm]
    apply State.hwriteMask_wf
    split
    · exact h
    · rw [State.modPlat_hbm, State.copyPoison_hbm]
      exact State.hwrite_wf s _ _ _ h

/-- A global write performed at its home keeps HBM canonical. -/
theorem State.performGlobal_wf (s : State) (v : Nat) (va : W64) (n x m : Nat) (h : Memory.wf s.hbm) :
    Memory.wf (s.performGlobal v va n x m).hbm := by
  unfold State.performGlobal
  split
  · dsimp only
    split
    · rw [State.notePoison_hbm]
      exact State.hwriteMask_wf _ _ _ _ _ (State.scrubLine_wf s _ h)
    · exact State.shadowWrite_wf _ _ _ _ _ _ _ (State.scrubLine_wf s _ h)
  · exact h

/-! ### Host memory, TCM and scratchpads -/

theorem wf_puts {m : List Host.Cell} (a v : Nat) (l : List Nat) (h : Memory.wf m) :
    Memory.wf (l.foldl (fun m i => tset m (a + i) (byteOf v i) 0) m) := by
  induction l generalizing m with
  | nil => exact h
  | cons i r ih => exact ih (Memory.wf_tset _ _ h)

theorem State.hostWrite_wf (s : State) (a n v : Nat) (h : Memory.wf s.plat.hostMem) : Memory.wf (s.hostWrite a n v).plat.hostMem :=
  wf_puts a v _ h

theorem Core.putTcm_wf (c : Core) (off : Nat) (b : Byte) (h : Memory.wf c.tcm) : Memory.wf (c.putTcm off b).tcm := by
  unfold Core.putTcm
  split
  · exact h
  · exact Memory.wf_tset _ _ h

theorem Core.putTcms_wf (c : Core) (off n v : Nat) (h : Memory.wf c.tcm) : Memory.wf (c.putTcms off n v).tcm := by
  suffices H : ∀ (l : List Nat) (c : Core), Memory.wf c.tcm → Memory.wf (l.foldl (fun c i => c.putTcm (off + i) (byteOf v i)) c).tcm from
    H _ _ h
  intro l
  induction l with
  | nil => exact fun _ h => h
  | cons i r ih => exact fun c h => ih _ (Core.putTcm_wf c _ _ h)

/-- Scratch bytes and scratchpad bytes have no fixed content before they are written: their tables list every byte that has been, in
rising order. -/
theorem Core.putTcm_scratch (c : Core) (off : Nat) (b : Byte) (h : tsorted c.scratch = true) : tsorted (c.putTcm off b).scratch = true := by
  unfold Core.putTcm
  split
  · exact tsorted_tput _ _ h
  · exact h

theorem Cluster.putPads_sorted (k : Cluster) (off n v : Nat) (h : tsorted k.pad = true) : tsorted (k.putPads off n v).pad = true := by
  unfold Cluster.putPads
  dsimp only
  generalize List.range n = l
  generalize k.pad = m at h
  induction l generalizing m with
  | nil => exact h
  | cons i r ih => exact ih _ (tsorted_tput _ _ h)

/-- Every memory of the machine after reset has its form. -/
theorem State.reset_memories : Memory.wf State.reset.hbm ∧ Memory.wf State.reset.plat.hostMem ∧ (∀ c, Memory.wf (State.reset.core c).tcm) ∧
    ∀ k, tsorted (State.reset.cluster k).pad = true := ⟨⟨rfl, rfl⟩, ⟨rfl, rfl⟩, fun _ => ⟨rfl, rfl⟩, fun _ => rfl⟩

end Sys2Proof.Machine
end

