-- ==== Sys2Proof/Tests/Slice0.lean ====
section
/-!
SUPPORT. Tests of the model on small states, ill-formed terms that the well-formedness check refuses, and for every
statement a state and operands that meet its hypotheses.
-/

namespace Sys2Proof.Tests

open Sys2Proof Sys2Proof.Machine

/-! ### Helpers -/

/-- After reset, with the issuing context (core 0, context 0) changed. -/
def at0 (f : Ctx → Ctx) : State := State.reset.onCur f
/-- After reset, the issuing context running with a handler for every cause. -/
def s0 : State := at0 (fun c => { c with active := true, tvec := w64 (2 ^ 64 - 2 ^ 56 + 0x400) })
/-- The same with core 0 the one member of domain 1, of tenant 1 on node 1. -/
def sd : State :=
  ((s0.modCore 0 (fun c => { c with domain := some 1 })).modDomain 1 (fun m =>
    { m with vf := 1, node := 1, members := [0], levels := [0, 0, 0], size := 1, live := true })).modVf 1 (fun t => { t with node := 1 })

/-- 64-bit words from address 0 of core 0's TCM on, for a descriptor. -/
def desc (l : List W64) (s : State) : State :=
  s.modCore 0 (fun c => (l.foldl (fun (p : Core × Nat) w => (p.1.putTcms p.2 8 w.toNat, p.2 + 8)) (c, 0)).1)
/-- A page-table entry of a class: valid, tier 0, readable and writable, frame 1. -/
def pte (cls : Nat) : W64 := w64 (1 + 2 * cls + 2 ^ 18 + 2 ^ 19 + 2 ^ 20 + 2 ^ 34)
/-- Tenant 1 with page 1 (address 0x10000) of a class under its tables, and x1 pointing to it. -/
def sg (cls : Nat) : State :=
  (sd.modVf 1 (fun t => { t with tables := [(0, 2), (1, 3), (2 ^ 14, 4)], pages := [(1, pte cls)] })).onCur (fun c => c.setX 1 0x10000)

/-- A word with no hint group and a legal encoding issues in a state where nothing is half executed. -/
theorem clear0 {i : Instr} {s : State} (h : s.issue = {}) (hb : badAtDecode [] i = false) : s.clear i := by
  unfold State.clear
  rw [h]
  exact ⟨rfl, rfl, rfl, hb, Nat.zero_le 1, rfl⟩

/-- Whatever free value picks one of one, it is that one. -/
theorem pick_one {l : List α} {x : α} (h : l = [x]) (n : Nat) : l[n % l.length]? = some x := by
  rw [h, List.length_singleton, Nat.mod_one]
  rfl

/-- The hypotheses of the shapes of Safety.lean, met together. -/
def PairMet (i : Instr) (d a b : BitVec 6) (result : State → W128 → W128 → W64) : Prop :=
  ∃ (s s1 s2 t : State) (x y : W128), s.clear i ∧ aBad d [a, b] = false ∧ Gives (ahPop a) s x s1 ∧ Gives (ahPop b) s1 y s2 ∧
    Does (ahPush d (result s x y)) s2 t ∧ t.readsOk
def OneMet (i : Instr) (d a : BitVec 6) (result : State → W128 → W64) : Prop :=
  ∃ (s s1 t : State) (x : W128), s.clear i ∧ aBad d [a] = false ∧ Gives (ahPop a) s x s1 ∧ Does (ahPush d (result s x)) s1 t ∧ t.readsOk
def BranchMet (i : Instr) (a b : BitVec 6) : Prop :=
  ∃ (s s1 s2 : State) (x y : W128), s.clear i ∧ ahSrc a = true ∧ ahSrc b = true ∧ Gives (ahPop a) s x s1 ∧ Gives (ahPop b) s1 y s2 ∧ s2.readsOk
def WordMet (i : Instr) (legal : State → Bool) (readA : M α) (readB : M β) (write : State → α → β → M Unit) : Prop :=
  ∃ (s s1 s2 t : State) (x : α) (y : β), s.clear i ∧ legal s = true ∧ Gives readA s x s1 ∧ Gives readB s1 y s2 ∧
    Does (write s x y) s2 t ∧ t.readsOk
def MaskedMet (i : Instr) (d a b : BitVec 6) (m : BitVec 3) (k : BitVec 1) (w : Nat) (lane : State → Nat → Nat → Nat → Lane) : Prop :=
  ∃ (s s1 s2 s3 s4 t : State) (act : List Bool) (old : Nat) (x y : W128),
    let r := (List.range (128 / w)).map (fun j => lane s j (laneOf w x.toNat j) (laneOf w y.toNat j))
    s.clear i ∧ s.vBad d [a, b] = false ∧ Gives (activeLanes m k w) s act s1 ∧ Gives (oldLanes d m k) s1 old s2 ∧
    Gives (vPop a) s2 x s3 ∧ Gives (vPop b) s3 y s4 ∧
    Does (vPush d (BitVec.ofNat 128 (mergeLanes w act (r.map (fun l => l.1)) old))) s4 t ∧ t.readsOk
def PartMet (i : Instr) (d a : BitVec 6) (extra : Option (BitVec 6)) (sw dw p : Nat) (f : State → W128 → Nat → Nat → Lane) : Prop :=
  ∃ (s s1 s2 s3 t : State) (old : Nat) (x y : W128), s.clear i ∧ s.vBad d (a :: extra.toList) = false ∧
    Gives (if dw < sw ∧ d.toNat < 48 then rsRead (vAddr s.issue.view d.toNat) 16 else pure 0) s old s1 ∧ Gives (vPop a) s1 x s2 ∧
    Gives (match extra with | some b => vPop b | none => pure 0) s2 y s3 ∧
    Does (vPush d (BitVec.ofNat 128 (partMap sw dw p (f s y) x.toNat old).1)) s3 t ∧ t.readsOk

/-! ### Ill-formed terms -/

/-- Terms that name units the module does not have, by check. -/
theorem test_wf_cores : ([.fetchDeliver 8192 0, .fetchDeliver 0 5, .walkerFetch 8192 0 0, .walkerFetch 0 5 0, .walkerFetch 0 0 8, .walkerStoreWrite 0 0 8,
    .translationWalk 8192 0 false, .translationWalk 0 (2 ^ 39) false, .startMessage 8192 0 0, .coreArrive 8192 0, .coreArrive 0 4, .corePark 8192,
    .resume 8192, .deltaArrive (2 ^ 25) 0, .saveSignal 8192, .decideProceed 0 0, .decideProceed 0 4, .globalAccessPerformed 8192,
    .debuggerAttach 0 5 true, .debuggerResume 8192 0] : List Instr).all (fun i => !i.wf) = true := by decide
theorem test_wf_engines : ([.matrixJobStart 1024, .drainRow 1024, .matrixJobComplete 1024, .chainForward 64, .streamPublishRead 0 64, .copyReusable 0 65536,
    .copyVisible 8192 0, .copyFault 0 65536, .pfeRun 1024, .pfeLand 1024, .sweepComplete 0 65536, .bgemvComplete 8192 0, .nbuFault 0 65536,
    .collStart 4 0, .collComplete 0 8, .collTimeout 4 0, .poll 0 (.core 8192), .decideCommit 0 (.cluster 64), .decideAbort 0 (.die 4),
    .timingReplay true 1024, .currentLimit 4, .thermalTrip true 16 0, .thermalTrip false 4 0, .derate false 8192, .recoverySelfTest true 1024,
    .currentFallsBack 4] : List Instr).all (fun i => !i.wf) = true := by decide
theorem test_wf_tenants : ([.pageBringUp 193 0, .pageBringUp 1 (2 ^ 39), .backgroundScrub (2 ^ 24), .lwpost 0 0, .lwcancel 193 0, .lwcqhead 0 0,
    .registerWrite 193 0 0, .registerWrite 1 4 0, .launchSelect 0, .gatePass 128, .recomputeDrop 0, .split 128, .merge 128, .release 128,
    .paddockConfigWrite 0 0x10 0, .paddockConfigWrite 1 256 0, .vfBind 0 0, .importConfirm 193, .warmReset 0 0, .warmReset 4 0, .start { failing := [17] }, .start { lanes := [(4, 0, 0, 0)] }, .start { dev := 4096 },
    .powerStateApply 0, .setkey 0 0, .tdispLockInterface 193, .tdispStartInterface 0, .stopInterface 193] : List Instr).all (fun i => !i.wf) = true := by decide
theorem test_wf_links : ([.d2dFlitReceive 4 0 0 true, .d2dFlitReceive 0 2 0 true, .d2dNak 4 0, .moduleRetrain 0 8, .moduleRetrainDone 0 0 [64] [],
    .moduleRetrainDone 0 0 [] [64], .edgeDown 4, .llynnalFlitReceive 32 0 [] 0, .llynnalFlitReceive 0 0 (List.replicate 31 0) 0, .portRetrain 32,
    .portRetrainDone 32 true, .heartbeatFlit 32 0, .deviceFailed 0 4096, .getVersion 193, .getCapabilities 193, .negotiateAlgorithms 193 true true true true,
    .getCertificate 193, .challenge 193 0, .getMeasurements 193 0, .keyExchange 193 0, .finish 193 0] : List Instr).all (fun i => !i.wf) = true := by decide

/-! ### Words written out from the encoding tables (R165, R171-R173 and the tables of each chapter) -/

def reads (w : BitVec 32) (i : Instr) : Bool := match decode w with | .ok j => decide (j = i) | .error _ => false
theorem test_decode_access_integer : ([(0x01169581, .aadd 5 41 22 1), (0x02169581, .asub 5 41 22 1), (0x03169581, .aand 5 41 22 1), (0x04169581, .aorr 5 41 22 1),
    (0x05169581, .axor 5 41 22 1), (0x06169581, .ashl 5 41 22 1), (0x07169581, .ashr 5 41 22 1), (0x08169581, .asar 5 41 22 1),
    (0x09169581, .amul 5 41 22 1), (0x0A169581, .amad 5 41 22 1), (0x0B169581, .amin 5 41 22 1), (0x0C169581, .amax 5 41 22 1),
    (0x0D169581, .aminu 5 41 22 1), (0x0E169581, .amaxu 5 41 22 1), (0x0F169581, .aslt 5 41 22 1), (0x10169581, .asltu 5 41 22 1),
    (0x11169016, .aaddi 5 41 22), (0x12169016, .aandi 5 41 22), (0x13169016, .ashli 5 41 22), (0x14169016, .ashri 5 41 22),
    (0x15169016, .asari 5 41 22), (0x16140029, .ali 5 41), (0x17140029, .alui 5 41)] : List (BitVec 32 × Instr)).all
    (fun p => reads p.1 p.2) = true := by decide
theorem test_decode_access_flow_and_work : ([(0x18169016, .abeq 5 41 22), (0x19169016, .abne 5 41 22), (0x1A169016, .ablt 5 41 22), (0x1B169016, .abge 5 41 22),
    (0x1C169016, .abltu 5 41 22), (0x1D169016, .abgeu 5 41 22), (0x1E040029, .abq 1 41), (0x1F000005, .ajmp 5),
    (0x20000005, .acall 5), (0x21000000, .aret), (0x22169016, .ajr 5 41 22), (0x23140029, .tnext 5 41), (0x24000000, .tend),
    (0x25169580, .spawn 5 41 22), (0x26005A40, .fan 5 41), (0x27169000, .gang 5 41), (0x28169000, .tqpush 5 41)] : List (BitVec 32 × Instr)).all
    (fun p => reads p.1 p.2) = true := by decide
theorem test_decode_access_memory : ([(0x291690B2, .ld 5 41 22 2), (0x2A1690B2, .st 5 41 22 2), (0x2B1690B2, .ldg 5 41 22 2), (0x2C1690B2, .stg 5 41 22 2),
    (0x2D169602, .latm 5 41 6 2), (0x2E1695A0, .atom 5 41 22 1 0 0), (0x2F169582, .put 5 41 22 2), (0x30169581, .msg 5 41 22 1)] : List (BitVec 32 × Instr)).all
    (fun p => reads p.1 p.2) = true := by decide
theorem test_decode_access_walkers_and_rings : ([(0x31005001, .wcfg 5 1), (0x32000005, .wstart 5), (0x33000005, .wstop 5), (0x34140001, .wflags 5 1),
    (0x3516900A, .wpos 5 41 1 2), (0x36169000, .cpy 5 41), (0x37005002, .cpyw 5 2), (0x38005A40, .winset 5 41),
    (0x39169003, .winget 5 41 3), (0x3A005000, .pflist 5), (0x3B169012, .rcpy 5 41 1 2), (0x3C005009, .rcfg 5 9),
    (0x3D140009, .rwait 5 9), (0x3E140009, .rresv 5 9), (0x3F000005, .rprod 5), (0x40000005, .rcons 5),
    (0x41169006, .rslot 5 41 6), (0x42169580, .ssweep 5 41 22)] : List (BitVec 32 × Instr)).all
    (fun p => reads p.1 p.2) = true := by decide
theorem test_decode_execute_integer : ([(0x50169581, .add 5 41 22 1), (0x51169581, .sub 5 41 22 1), (0x52169581, .mul 5 41 22 1), (0x53169581, .mulh 5 41 22 1),
    (0x54169581, .mulhu 5 41 22 1), (0x55169581, .div 5 41 22 1), (0x56169581, .divu 5 41 22 1), (0x57169581, .rem 5 41 22 1),
    (0x58169581, .remu 5 41 22 1), (0x59169581, .and 5 41 22 1), (0x5A169581, .or 5 41 22 1), (0x5B169581, .xor 5 41 22 1),
    (0x5C169581, .shl 5 41 22 1), (0x5D169581, .shr 5 41 22 1), (0x5E169581, .sar 5 41 22 1), (0x5F169581, .min 5 41 22 1),
    (0x60169581, .max 5 41 22 1), (0x61169581, .minu 5 41 22 1), (0x62169581, .maxu 5 41 22 1), (0x63169581, .slt 5 41 22 1),
    (0x64169581, .sltu 5 41 22 1), (0x65169581, .seq 5 41 22 1), (0x66169581, .sel 5 41 22 1), (0x67169003, .clz 5 41 3),
    (0x68169003, .popc 5 41 3), (0x69169003, .sext 5 41 3), (0x6A169016, .addi 5 41 22), (0x6B169016, .andi 5 41 22),
    (0x6C169016, .ori 5 41 22), (0x6D169016, .xori 5 41 22), (0x6E169016, .shli 5 41 22), (0x6F169016, .shri 5 41 22),
    (0x70169016, .sari 5 41 22), (0x71140029, .li 5 41), (0x72140029, .lui 5 41)] : List (BitVec 32 × Instr)).all
    (fun p => reads p.1 p.2) = true := by decide
theorem test_decode_execute_float : ([(0x7316958A, .fadd 5 41 22 2 2), (0x7416958A, .fsub 5 41 22 2 2), (0x7516958A, .fmul 5 41 22 2 2),
    (0x7616958A, .fma 5 41 22 2 2), (0x77169581, .fmin 5 41 22 1), (0x78169581, .fmax 5 41 22 1), (0x7916958A, .fcmp 5 41 22 2 2),
    (0x7A169C88, .fcvt 5 41 3 2 1 0), (0x7B16958A, .fsgn 5 41 22 2 2), (0x7C169003, .fclass 5 41 3), (0x7D169019, .frnd 5 41 6 1),
    (0x7E005002, .epb 5 2), (0x7F140016, .ebnz 5 0 22)] : List (BitVec 32 × Instr)).all
    (fun p => reads p.1 p.2) = true := by decide
theorem test_decode_vector_integer : ([(0x80169591, .vadd 5 41 22 2 0 1), (0x81169591, .vsub 5 41 22 2 0 1), (0x82169591, .vmul 5 41 22 2 0 1),
    (0x83169591, .vmulh 5 41 22 2 0 1), (0x84169591, .vmin 5 41 22 2 0 1), (0x85169591, .vmax 5 41 22 2 0 1),
    (0x86169591, .vminu 5 41 22 2 0 1), (0x87169591, .vmaxu 5 41 22 2 0 1), (0x88169591, .vand 5 41 22 2 0 1),
    (0x89169591, .vor 5 41 22 2 0 1), (0x8A169591, .vxor 5 41 22 2 0 1), (0x8B169591, .vshl 5 41 22 2 0 1),
    (0x8C169591, .vshr 5 41 22 2 0 1), (0x8D169591, .vsar 5 41 22 2 0 1), (0x8E169591, .vsadd 5 41 22 2 0 1),
    (0x8F169591, .vsaddu 5 41 22 2 0 1), (0x9016958A, .vcmp 5 41 22 2 2), (0x91169592, .vsel 5 41 22 2 2)] : List (BitVec 32 × Instr)).all
    (fun p => reads p.1 p.2) = true := by decide
theorem test_decode_vector_float : ([(0x92169591, .vfadd 5 41 22 2 0 1), (0x93169591, .vfsub 5 41 22 2 0 1), (0x94169591, .vfmul 5 41 22 2 0 1),
    (0x95169591, .vfma 5 41 22 2 0 1), (0x96169591, .vfmin 5 41 22 2 0 1), (0x97169591, .vfmax 5 41 22 2 0 1),
    (0x9816958A, .vfcmp 5 41 22 2 2), (0x99169C88, .vfcvt 5 41 3 2 1 0), (0x9A16958A, .vfsgn 5 41 22 2 2),
    (0x9B169003, .vfclass 5 41 3), (0x9C16900D, .vfred 5 41 3 1), (0x9D169591, .vdot 5 41 22 2 1), (0x9E169582, .voptw 5 41 22 2)] : List (BitVec 32 × Instr)).all
    (fun p => reads p.1 p.2) = true := by decide
theorem test_decode_vector_moves : ([(0x9F169036, .vmov 5 41 6 1 2), (0xA0169036, .vsplat 5 41 6 1 2), (0xA1169032, .vext 5 41 3 2), (0xA2169032, .vins 5 41 3 2),
    (0xA3169591, .vperm 5 41 22 2 0 1), (0xA416958A, .vshuf 5 41 22 2 2), (0xA5169586, .vnarrow 5 41 22 1 2),
    (0xA616900E, .vwiden 5 41 1 1 2), (0xA7169591, .vslide 5 41 22 1 1), (0xA8169599, .vqpack 5 41 22 1 2 1),
    (0xA9169599, .vqunpk 5 41 22 1 2 1), (0xAA16900D, .vscale 5 41 3 1), (0xAB169031, .vmpop 5 41 6 1),
    (0xAC169031, .vmfirst 5 41 6 1), (0xAD169586, .vrot 5 41 22 1 2)] : List (BitVec 32 × Instr)).all
    (fun p => reads p.1 p.2) = true := by decide
theorem test_decode_cordic_stamped_store : ([(0xAE169582, .cord 5 41 22 2), (0xAF169582, .vcord 5 41 22 2), (0xB0169006, .sset 5 41 6), (0xB1169000, .sread 5 41),
    (0xB2169582, .sadd 5 41 22 2), (0xB3169582, .smrg 5 41 22 2), (0xB4169000, .vsread 5 41),
    (0xB5169582, .vsaddStamped 5 41 22 2), (0xB6169582, .vsmrg 5 41 22 2), (0xB71690B2, .rsld 5 41 22 2),
    (0xB81690B2, .rsst 5 41 22 2)] : List (BitVec 32 × Instr)).all
    (fun p => reads p.1 p.2) = true := by decide
theorem test_decode_matrix_and_banks : ([(0xC0005009, .tvld 5 9), (0xC1140009, .mloadn 5 9), (0xC2140009, .mloadw 5 9), (0xC3169000, .mjob 5 41),
    (0xC4169000, .mwait 5 41), (0xC5169000, .mpoll 5 41), (0xC6169006, .mpub 5 41 6), (0xC7169580, .msub 5 41 22),
    (0xC8005000, .munsub 5), (0xC9169006, .mchain 5 41 6), (0xCA169580, .msend 5 41 22), (0xCB169580, .mcap 5 41 22),
    (0xCC140000, .mhnd 5), (0xCD000016, .mdone 1 0 6), (0xCE169000, .bgemv 5 41), (0xCF169000, .bwait 5 41)] : List (BitVec 32 × Instr)).all
    (fun p => reads p.1 p.2) = true := by decide
theorem test_decode_synchronisation : ([(0xD0169000, .coll 5 41), (0xD1169000, .cwait 5 41), (0xD2005A72, .csig 5 41 6 2), (0xD3169019, .bar 5 41 6 1),
    (0xD4005003, .vote 5 0 3), (0xD5005000, .stepadv 5), (0xD6000029, .fence 5 1), (0xD7000028, .fenceSc 5),
    (0xD8000000, .fenceBank), (0xD9169591, .wait 5 41 22 2 1)] : List (BitVec 32 × Instr)).all
    (fun p => reads p.1 p.2) = true := by decide
theorem test_decode_system_loops_hints : ([(0xE0140A40, .csrr 5 41), (0xE1140A40, .csrw 5 41), (0xE2140A40, .csrs 5 41), (0xE3140A40, .csrc 5 41), (0xE4000005, .trap 5),
    (0xE5000000, .eret), (0xE6000000, .halt), (0xE7000000, .nop), (0xE8169001, .feat 5 41 1), (0xE9000005, .dbrk 5),
    (0xEA005029, .loop 5 41), (0xEB000005, .loopi 5), (0xEC009016, .loopw 1 1 22), (0xED000001, .lbrk 1), (0xF8000005, .himm 5),
    (0xF9000551, .hmod 5 0 1 2 1), (0xFA0000AD, .hsched 5 0 3 1)] : List (BitVec 32 × Instr)).all
    (fun p => reads p.1 p.2) = true := by decide

/-! ### Hypotheses that can be met: the access half -/

theorem wit_encoded : encode (.aadd 3 1 56 2) = some 0x010F8000#32 ∨ encode (.aadd 3 1 56 2) = some 0x010C1E02#32 := .inr rfl
theorem wit_decoded : decode 0x010C1E02#32 = .ok (.aadd 3 1 56 2) := rfl

theorem wit_access_pair : PairMet (.aadd 3 1 2 3) 3 1 2 (fun _ x y => sext 64 (IntOp.add.eval 64 x.toNat y.toNat)) :=
  ⟨s0, _, _, _, _, _, clear0 rfl rfl, rfl, rfl, rfl, rfl, rfl, .inl rfl⟩
theorem wit_access_queue : PairMet (.aadd 57 56 57 3) 57 56 57 (fun _ x y => sext 64 (IntOp.add.eval 64 x.toNat y.toNat)) :=
  ⟨at0 (fun c => { c with xq := [{ data := 1 }], sq := [{ data := 2 }] }), _, _, _, _, _, clear0 rfl rfl, rfl, rfl, rfl, rfl, rfl, .inl rfl⟩
theorem wit_access_mad : xOrZero 3 = true ∧ PairMet (.amad 3 1 2 3) 3 1 2
    (fun s x y => sext (widthOf 3) ((s.xval 3).toNat + x.toNat * y.toNat)) :=
  ⟨rfl, s0, _, _, _, _, _, clear0 rfl rfl, rfl, rfl, rfl, rfl, rfl, .inl rfl⟩
theorem wit_access_imm : OneMet (.aaddi 3 1 0x7FF) 3 1 (fun s x => w64 (IntOp.add.eval 64 x.toNat (wi (s.imm 0x7FF#12)).toNat)) :=
  ⟨s0, _, _, _, clear0 rfl rfl, rfl, rfl, rfl, rfl, .inl rfl⟩
theorem wit_access_ali : ∃ t, s0.clear (.ali 57 1) ∧ ahDst 57 = true ∧ Does (ahPush 57 (wi (s0.imm 1#18))) s0 t ∧ t.readsOk ∧
    s0.clear (.alui 63 1) ∧ xOrZero 63 = true :=
  ⟨_, clear0 rfl rfl, rfl, rfl, ⟨rfl, .inl rfl⟩, clear0 rfl rfl, rfl⟩
theorem wit_branch : BranchMet (.abeq 0 63 5) 0 63 ∧ (s0.clear (.abltu 1 32 5) ∧ ahSrc 32 = false ∧ s0.cur.handled 2 0 = true) ∧
    (at0 (fun c => { c with bq := [true] })).clear (.abq 1 5) ∧ (at0 (fun c => { c with bq := [true] })).cur.bq = [true] :=
  ⟨⟨s0, _, _, _, _, clear0 rfl rfl, rfl, rfl, rfl, rfl, rfl, .inl rfl⟩, ⟨clear0 rfl rfl, rfl, by decide⟩, clear0 rfl rfl, rfl⟩
theorem wit_jump : s0.clear (.ajmp 5) ∧ s0.clear (.acall 5) ∧ s0.clear .aret ∧ (s0.clear (.ajr 0 31 0) ∧ xOnly 0 = true ∧ xOnly 31 = true) ∧
    s0.clear (.ajr 63 31 0) ∧ xOnly 63 = false ∧ s0.cur.handled 2 0 = true :=
  ⟨clear0 rfl rfl, clear0 rfl rfl, clear0 rfl rfl, ⟨clear0 rfl rfl, rfl, rfl⟩, clear0 rfl rfl, rfl, by decide⟩

/-! ### Local and global memory -/

theorem wit_load : let l := s0.locate 0 (s0.localAddr 1 0 3) 8
    s0.clear (.ld 57 1 0 3) ∧ loadBad 57 1 3 = false ∧ s0.fencePassed ∧ s0.freeAt l 8 ∧ s0.soundAt l (s0.localAddr 1 0 3) 8 ∧
      s0.cur.injects 2 = false ∧ s0.cur.injects 3 = false ∧ s0.cur.lq.length < 16 ∧ s0.clear (.ld 5 1 0 3) ∧ loadBad 5 1 3 = false :=
  ⟨clear0 rfl rfl, rfl, (fun h => by cases h), ⟨(fun _ _ h => by cases h), rfl, rfl, rfl⟩, ⟨rfl, rfl⟩, by decide, by decide, by decide, clear0 rfl rfl, rfl⟩
/-- A load of 16 bytes before and behind the read of its low half, to lq and to nothing. -/
theorem wit_load_wide : let l := s0.locate 0 (s0.localAddr 1 0 4) 16; let s := at0 (fun c => { c with loaded := [{ value := 7 }] })
    s0.clear (.ld 57 1 0 4) ∧ loadBad 57 1 4 = false ∧ s0.freeAt l 16 ∧ s0.soundAt l (s0.localAddr 1 0 4) 16 ∧ partOf s0.readSoFar 0 = none ∧
      s.clear (.ld 63 1 0 4) ∧ loadBad 63 1 4 = false ∧ s.fencePassed ∧ s.freeAt l 16 ∧ partOf s.readSoFar 0 = some { value := 7 } ∧
      s.cur.lq.length < 16 :=
  ⟨clear0 rfl rfl, rfl, ⟨(fun _ _ h => by cases h), rfl, rfl, rfl⟩, ⟨rfl, rfl⟩, rfl, clear0 rfl rfl, rfl, (fun h => by cases h),
    ⟨(fun _ _ h => by cases h), rfl, rfl, rfl⟩, rfl, by decide⟩
theorem wit_store : ∃ q t u, let l := s0.locate 0 (s0.localAddr 0 255 3) 8
    s0.clear (.st 2 0 255 3) ∧ storeBad 2 0 3 = false ∧ xOnly 2 = true ∧ Gives (ahPop 2) s0 0 s0 ∧ s0.unread ∧
      s0.freeAt l 8 ∧ s0.takeEntry 0 l = .ok (q, t) ∧ t.issue = s0.issue ∧ l = .tcm 2040 ∧ s0.lwriteAt 0 l 8 5 (some q) = .ok u ∧
      tsorted (s0.core 0).tcm = true ∧ s0.locate 0 (2 ^ 24 + 8) 8 = .unconf :=
  ⟨_, _, _, clear0 rfl rfl, rfl, rfl, rfl, ⟨rfl, rfl⟩, ⟨(fun _ _ h => by cases h), rfl, rfl, rfl⟩, rfl, rfl, rfl, rfl, rfl, rfl⟩
/-- A store that is the only one free to be performed is performed. -/
theorem one_performed {s : State} {c k : Nat} {x : Held} (h : s.storesFree c k = [x]) : ∃ t, s.storeWrite c k = some t := by
  simp only [State.storeWrite, pick_one h]
  exact ⟨_, rfl⟩
/-- A store on the store path that nothing holds back, and one in a scratch window. -/
theorem wit_store_performed : (∃ t, (at0 (fun c => { c with stores := [{ loc := .tcm 8, size := 8, data := 5 }] })).storeWrite 0 0 = some t) ∧
    ∃ u, s0.lwriteAt 0 (.pad 64 0 0 1 0) 8 5 (some 0) = .ok u := by
  exact ⟨one_performed rfl, _, rfl⟩
theorem wit_atomic : ∃ w u, let l := s0.locate 0 ((s0.xval 1).toNat % 2 ^ 32) 8
    s0.clear (.latm 30 1 9 3) ∧ xOrZero 1 = true ∧ xOnly 30 = true ∧ 1 ≤ (30#6).toNat ∧ (30#6).toNat ≤ 30 ∧ s0.fencePassed ∧
      (if 2 ≤ s0.kind then s0.released (Nat.min s0.scope (localReach 0)) else s0.pointPassed true) ∧
      s0.freeAt l 8 ∧ s0.soundAt l 0 8 ∧ atomOp 9 64 (s0.lreadAt 0 l 8) 0 0 = some w ∧ (s0.touched l).lwriteAt 0 l 8 (w % 2 ^ 64) none = .ok u ∧ u.issue = s0.issue ∧
      atomOp 9 64 (s0.lreadAt 0 l 8) 0 1 = none :=
  ⟨_, _, clear0 rfl rfl, rfl, rfl, by decide, by decide, (fun h => by cases h), rfl, ⟨(fun _ _ h => by cases h), rfl, rfl, rfl⟩, ⟨rfl, rfl⟩, rfl, rfl, rfl, rfl⟩

theorem wit_global_load : ∃ phys e, let s := sg 2
    s.clear (.ldg 57 1 0 3) ∧ loadBad 57 1 3 = false ∧ loadBad 5 1 3 = false ∧ s.fencePassed ∧ (s.globalAddr 1 0 3).toNat % 8 = 0 ∧
      s.xlate (s.tenantOf 0) (s.globalAddr 1 0 3) .read = .ok phys 2 e ∧ s.allRead 8 = none ∧
      (let t := s.onCur (fun c => { c with loaded := [{ value := 9 }] }); t.clear (.ldg 57 1 0 3) ∧ t.allRead 8 = some (9, none) ∧ t.cur.lq.length < 16) ∧
      let m : Mark := { line := 64, committed := true }
      let t := s.onCur (fun c => { c with loaded := [{ value := 9, mark := some m }, { part := 1 }] })
      t.clear (.ldg 57 1 0 4) ∧ t.allRead 16 = some (9, some m) ∧ t.cur.lq.length < 16 :=
  ⟨_, _, clear0 rfl rfl, rfl, rfl, (fun h => by cases h), rfl, rfl, rfl, ⟨clear0 rfl rfl, rfl, by decide⟩, clear0 rfl rfl, rfl, by decide⟩
theorem wit_global_store : ∃ u w d, (sg 2).clear (.stg 2 1 0 3) ∧ storeBad 2 1 3 = false ∧ Gives (ahPop 2) (sg 2) 0 (sg 2) ∧ (sg 2).unread ∧
    ((sg 2).globalAddr 1 0 3).toNat % 8 = 0 ∧ (sg 2).gprepare 0 ((sg 2).tenantOf 0) ((sg 2).globalAddr 1 0 3) = .ok (.posted, u) ∧
    u.issue = (sg 2).issue ∧ (sg 1).clear (.stg 2 1 0 3) ∧
    (sg 1).gprepare 0 ((sg 1).tenantOf 0) ((sg 1).globalAddr 1 0 3) = .ok (.delta d, w) ∧ w.issue = (sg 1).issue :=
  ⟨_, _, _, clear0 rfl rfl, rfl, rfl, ⟨rfl, rfl⟩, rfl, rfl, rfl, clear0 rfl rfl, rfl, rfl⟩
theorem wit_put : ∃ s3 die, (sg 1).clear (.put 63 1 2 3) ∧ ahSrc 1 = true ∧ xOrZero 2 = true ∧ Gives (ahPop 1) (sg 1) 0x10000 (sg 1) ∧ (sg 1).unread ∧
    Gives (globalTarget 0x10000 8) (sg 1) (some die) s3 ∧ s3.unread ∧ s3.issue.core = 0 ∧ (s3.die die).storeUsed < Config.deltaEntries ∧
    (sd.clear (.put 0 2 57 4) ∧ sd.targetBad 0 (sd.xval 0) = false ∧ sd.here (sd.xval 0) = true ∧
      (sd.cluster 0).poolUsed < Config.poolEntries) :=
  ⟨_, _, clear0 rfl rfl, rfl, rfl, rfl, ⟨rfl, rfl⟩, rfl, ⟨rfl, rfl⟩, rfl, by decide, clear0 rfl rfl, rfl, rfl, by decide⟩
theorem wit_atom_msg : sd.clear (.atom 0 1 2 1 1 8) ∧ ahSrc 1 = true ∧ xOrZero 2 = true ∧ Gives (ahPop 1) sd 0 sd ∧ Gives (ahPop 2) sd 0 sd ∧
    sd.unread ∧ sd.targetBad 0 (sd.xval 0) = false ∧ sd.here (sd.xval 0) = true ∧ (sd.cluster 0).poolUsed < Config.poolEntries ∧
    (sd.core 0).mailUsed < Config.mailboxWords ∧
    sd.clear (.msg 0 1 2 1) ∧ ahSrc 2 = true ∧ sd.participates 0 0 = true ∧ (sd.core 0).mailUsed + 2 ≤ Config.mailboxWords ∧ sd.clear (.msg 0 1 0 0) :=
  ⟨clear0 rfl rfl, rfl, rfl, rfl, rfl, ⟨rfl, rfl⟩, rfl, rfl, by decide, by decide, clear0 rfl rfl, rfl, rfl, by decide, clear0 rfl rfl⟩
theorem wit_atom_global : ∃ s3 die, (sg 1).clear (.atom 63 1 2 1 1 0) ∧ Gives (ahPop 1) (sg 1) 0x10000 (sg 1) ∧ Gives (globalTarget 0x10000 8) (sg 1) (some die) s3 ∧
    s3.unread ∧ s3.issue.core = 0 ∧ (s3.die die).storeUsed < Config.deltaEntries ∧ (s3.core 0).mailUsed < Config.mailboxWords :=
  ⟨_, _, clear0 rfl rfl, rfl, rfl, ⟨rfl, rfl⟩, rfl, by decide, by decide⟩
/-- sd with device 1 in the launch's list too, and x5 a core of it. -/
def sfar : State := (sd.modDomain 1 (fun m => { m with devices := [0, 1] })).onCur (fun c => c.setX 5 0x2003)
theorem wit_far : sfar.clear (.put 5 1 2 3) ∧ sfar.clear (.put 5 1 57 4) ∧ sfar.clear (.atom 5 1 2 1 1 8) ∧ sfar.clear (.msg 5 1 2 1) ∧ xOnly 5 = true ∧
    Gives (ahPop 1) sfar 0 sfar ∧ Gives (ahPop 2) sfar 0 sfar ∧ sfar.unread ∧ sfar.targetBad 0 (sfar.xval 5) = false ∧
    sfar.here (sfar.xval 5) = false ∧ sfar.cur.handled 13 6 = true ∧ (sfar.core 0).mailUsed < Config.mailboxWords :=
  ⟨clear0 rfl rfl, clear0 rfl rfl, clear0 rfl rfl, clear0 rfl rfl, rfl, rfl, rfl, ⟨rfl, rfl⟩, rfl, rfl, rfl, by decide⟩

/-! ### Walkers, copies, windows, rings, work -/

/-- A load pattern of 4 elements of 8 bytes. -/
def pattern : State := desc [w64 (3 * 2 ^ 32 + 4096), w64 (4 + 8 * 2 ^ 32), 1, 1] s0
set_option maxRecDepth 16384 in
theorem wit_walker : ∃ l, pattern.clear (.wcfg 0 7) ∧ xOnly 0 = true ∧ Gives (descRead (pattern.xval 0).toNat 64) pattern l pattern ∧ pattern.unread ∧
    patternBad l = false ∧ (pattern.walker 7).held = [] ∧ s0.clear (.wstart 7) ∧ s0.clear (.wstop 7) ∧ s0.clear (.wflags 63 7) ∧
    s0.clear (.wpos 3 0 0 7) ∧ s0.clear (.wpos 3 0 1 7) ∧ (s0.xval 0).toNat ≤ (s0.walker 7).count :=
  ⟨_, clear0 rfl rfl, rfl, rfl, ⟨rfl, rfl⟩, rfl, rfl, clear0 rfl rfl, clear0 rfl rfl, clear0 rfl rfl, clear0 rfl rfl, clear0 rfl rfl, by decide⟩

/-- A copy descriptor: one row of 8 bytes from TCM offset 512 to 1024. -/
def copyDesc : State := desc [512, 1024, w64 (8 + 2 ^ 24)] s0
set_option maxRecDepth 16384 in
theorem wit_copy : ∃ l t, copyDesc.clear (.cpy 3 0) ∧ xOrZero 3 = true ∧ xOnly 0 = true ∧ Gives (descRead (copyDesc.xval 0).toNat 32) copyDesc l copyDesc ∧
    (let k := { copyOfDesc l with flags := copyDesc.kind, scope := copyDesc.scope }
     Gives (checkCopy k (bf (wd l 2) 48 16 != 0)) copyDesc false copyDesc ∧ k.len * k.rows = 8 ∧ Does (copyOrder k) copyDesc copyDesc ∧
      copyDesc.copyQueued (teamOf 0) < Config.copyQueue ∧
      (copyDesc.core 0).ranges.length + (copyDesc.copyRanges 0 k (copyDesc.core 0).copyNext).length ≤ Config.scoreboardEntries ∧
      copyDesc.reserveAll 0 k.dg ((copyDesc.destLines 0 k).map w64) = .ok t ∧ t.issue = copyDesc.issue) :=
  ⟨_, _, clear0 rfl rfl, rfl, rfl, rfl, rfl, rfl, rfl, by decide, by decide, rfl, rfl⟩
theorem wit_sweep : ∃ id t, s0.clear (.ssweep 3 0 0) ∧ xOrZero 3 = true ∧ (s0.xval 0).toNat ≤ 2 ^ 32 ∧ bf (s0.xval 0) 0 55 % 8 = 0 ∧
    bit (s0.xval 0) 63 = false ∧ bf (s0.xval 0) 32 31 = 0 ∧ bf (s0.xval 0) 0 32 % 8 = 0 ∧ 8 * (s0.xval 0).toNat ≤ s0.windowSize 0 0 ∧
    Gives (issueCopy { src := 0, dst := 0, len := 8, rows := 0, sstride := 8, dstride := 8, kind := .sweep 0 (BitVec.ofNat 24 s0.stamp24) } 0) s0 id t ∧
    t.unread :=
  ⟨_, _, clear0 rfl rfl, rfl, by decide, rfl, rfl, rfl, rfl, by decide, rfl, rfl, rfl⟩
/-- A ring 15 of 4 slots of 16 bytes at TCM offset 256, of producer side 1 and consumer side 0. -/
def ringState (p : Nat) (l : List RSlot) : State :=
  s0.modCore 0 (fun c => { c with rings := [(15, { base := 256, lslot := 4, cap := 4, prod := p, pnext := l.length, slots := l })] })
theorem wit_ring_copy : ∃ ring slot id t, (ringState 1 []).clear (.rcpy 3 0 0 15) ∧ ((ringState 1 []).core 0).ring 15 = some ring ∧ ring.prod = 1 ∧
    Gives (checkCopy { src := 0, dst := w64 ring.base.toNat, len := ring.slotBytes, rows := 1 } (bf (0 : W64) 32 31 != 0)) (ringState 1 []) false (ringState 1 []) ∧
    (ringState 1 []).nextSlot 0 ring = some slot ∧
    Gives (issueCopy { src := 0, dst := w64 slot.1, len := ring.slotBytes, rows := 1, kind := .fill 15 ring.pnext,
                       flags := (ringState 1 []).kind, scope := (ringState 1 []).scope } ring.slotBytes) (ringState 1 []) id t ∧
    t.unread ∧ t.issue.core = 0 ∧ (t.core 0).copies.any (fun x => x.id == id) = true :=
  ⟨_, _, _, _, clear0 rfl rfl, rfl, rfl, rfl, rfl, rfl, ⟨rfl, rfl⟩, rfl, rfl⟩
theorem wit_copy_wait : ∃ k, let s := s0.modCore 0 (fun c => { c with copies := [{ id := 0, reusable := true }] })
    s.clear (.cpyw 0 1) ∧ xOrZero 0 = true ∧ (s.core 0).copies.find? (fun x => x.id == bf (s.xval 0) 0 16) = some k ∧ k.reusable = true ∧
    s.clear (.cpyw 0 3) ∧ s0.clear (.cpyw 0 2) ∧ (s0.core 0).copies.find? (fun x => x.id == bf (s0.xval 0) 0 16) = none :=
  ⟨_, clear0 rfl rfl, rfl, rfl, rfl, clear0 rfl rfl, clear0 rfl rfl, rfl⟩
theorem wit_copy_empty : ∃ l, s0.clear (.cpy 3 0) ∧ Gives (descRead (s0.xval 0).toNat 32) s0 l s0 ∧ s0.unread ∧
    (let k := { copyOfDesc l with flags := s0.kind, scope := s0.scope }
     Gives (checkCopy k (bf (wd l 2) 48 16 != 0)) s0 false s0 ∧ k.len * k.rows = 0) :=
  ⟨_, clear0 rfl rfl, rfl, ⟨rfl, rfl⟩, rfl, rfl⟩
theorem wit_ring_drain : ∃ ring slot id t, let s := (ringState 0 [{ state := .full, addr := 256 }]).modRing 0 15 (fun g => { g with cons := 1 })
    s.clear (.rcpy 3 0 1 15) ∧ (s.core 0).ring 15 = some ring ∧ ring.cons = 1 ∧
    Gives (checkCopy { src := w64 ring.base.toNat, dst := 0, len := ring.slotBytes, rows := 1 } (bf (0 : W64) 32 31 != 0)) s false s ∧
    ring.at ring.cnext = some slot ∧ slot.state = .full ∧
    Gives (issueCopy { src := w64 slot.addr, dst := 0, len := ring.slotBytes, rows := 1, kind := .drain 15 ring.cnext,
                       flags := s.kind, scope := s.scope } ring.slotBytes) s id t ∧
    t.unread ∧ t.issue.core = 0 ∧ (t.core 0).copies.any (fun x => x.id == id) = true :=
  ⟨_, _, _, _, clear0 rfl rfl, rfl, rfl, rfl, rfl, rfl, rfl, ⟨rfl, rfl⟩, rfl, rfl⟩

theorem wit_window : ∃ l, let s := s0.onCur (fun c => c.setX 1 255)
    s.clear (.winset 1 0) ∧ xOnly 1 = true ∧ (s.xval 1).toNat = 255 ∧ Gives (descRead (s.xval 0).toNat 32) s l s ∧ winBad l = false ∧
    s.winsetsAtOnce = true ∧ tfind (s.cluster 0).instant 255 = none ∧ (s.onCur (fun c => { c with barred := true })).winsetsAtOnce = false ∧
    (s.cluster 0).pending.length < Config.winsetEntries ∧ s.clear (.winget 63 1 2) ∧ xOrZero 63 = true :=
  ⟨_, clear0 rfl rfl, rfl, rfl, rfl, rfl, rfl, rfl, rfl, by decide, clear0 rfl rfl, rfl⟩
/-- Immediate WINSETs to an entry that this core, or another one, has written at once. -/
theorem wit_window_again : ∃ l, let s := (s0.onCur (fun c => c.setX 1 255)).modCluster 0 (fun k => { k with instant := [(255, 0)] })
    let t := (s0.onCur (fun c => c.setX 1 255)).modCluster 0 (fun k => { k with instant := [(255, 7)] })
    s.clear (.winset 1 0) ∧ Gives (descRead (s.xval 0).toNat 32) s l s ∧ winBad l = false ∧ s.winsetsAtOnce = true ∧
    tfind (s.cluster 0).instant 255 = some s.issue.core ∧ t.clear (.winset 1 0) ∧ t.winsetsAtOnce = true ∧
    tfind (t.cluster 0).instant 255 = some 7 ∧ 7 ≠ t.issue.core :=
  ⟨_, clear0 rfl rfl, rfl, rfl, rfl, rfl, clear0 rfl rfl, rfl, rfl, by decide⟩
theorem walk_last {s : State} {e : Elem} (h : s.elemAt c v a = .ok e) (hn : ({ e with last := n == 0 } : Elem).next = 0) :
    s.walkChain c v a (n + 1) = .ok [{ e with last := n == 0 }] := by
  unfold State.walkChain
  rw [h]
  exact if_pos hn
theorem wit_pflist : s0.clear (.pflist 0) ∧ s0.pointPassed true ∧ (sg 2).pointPassed true ∧ bf (s0.xval 0) 0 5 = 0 ∧ bf (s0.xval 0) 55 9 = 0 ∧ (s0.cancelChains 0).issue = s0.issue ∧ s0.xval 0 = 0 ∧
    ∃ x l, (sg 2).clear (.pflist 1) ∧ (sg 2).xval 1 ≠ 0 ∧ bf ((sg 2).xval 1) 0 5 = 0 ∧
      (sg 2).walkChain 0 ((sg 2).tenantOf 0) 0x10000 (65535 + 1) = .ok (x :: l) ∧
      ((((sg 2).lookups 0 ((sg 2).tenantOf 0) ((x :: l).map (fun e => e.addr.toNat))).cancelChains 0).handOver 0 (x :: l)).issue = (sg 2).issue :=
  ⟨clear0 rfl rfl, rfl, rfl, rfl, rfl, rfl, rfl, _, _, clear0 rfl rfl, by decide, rfl, walk_last rfl rfl, rfl⟩
/-- The descriptor of a ring of 4 slots of 16 bytes at TCM offset 256. -/
def ringWord : W64 := 0x4400000100
def ringDesc : State := desc [ringWord] s0
set_option maxRecDepth 16384 in
theorem wit_ring_read : Gives (descRead (ringDesc.xval 0).toNat 32) ringDesc [ringWord, 0, 0, 0] ringDesc := rfl
theorem wit_ring_config : ringDesc.clear (.rcfg 0 15) ∧ ringDesc.unread ∧ ([ringWord, 0, 0, 0] : List W64).all (fun w => w == 0) = false ∧
    ringBad [ringWord, 0, 0, 0] = false ∧ (ringDesc.core 0).ring 15 = none ∧
    (ringDesc.core 0).bufferUsed + (ringOfDesc [ringWord, 0, 0, 0]).cap ≤ Config.bufferEntries :=
  ⟨clear0 rfl rfl, ⟨rfl, rfl⟩, rfl, rfl, rfl, by decide⟩
theorem wit_ring : (∃ r slot, (ringState 0 []).clear (.rresv 3 15) ∧ ((ringState 0 []).core 0).ring 15 = some r ∧ r.prod = 0 ∧
      (ringState 0 []).nextSlot 0 r = some slot) ∧
    (∃ r x, (ringState 0 [{ state := .filling }]).clear (.rprod 15) ∧ ((ringState 0 [{ state := .filling }]).core 0).ring 15 = some r ∧ r.prod = 0 ∧
      r.lowest .filling = some x ∧ (ringState 0 [{ state := .filling }]).released 1) ∧
    (∃ r x, (ringState 0 [{ state := .full }]).clear (.rwait 3 15) ∧ ((ringState 0 [{ state := .full }]).core 0).ring 15 = some r ∧ r.cons = 0 ∧
      r.at r.cnext = some x ∧ x.state = .full) ∧
    (∃ r x, (ringState 0 [{ state := .draining }]).clear (.rcons 15) ∧ ((ringState 0 [{ state := .draining }]).core 0).ring 15 = some r ∧
      r.lowest .draining = some x ∧ (ringState 0 [{ state := .draining }]).released 1) ∧
    ∃ r, (ringState 0 []).clear (.rslot 3 0 15) ∧ ((ringState 0 []).core 0).ring 15 = some r :=
  ⟨⟨_, _, clear0 rfl rfl, rfl, rfl, rfl⟩, ⟨_, _, clear0 rfl rfl, rfl, rfl, rfl, rfl⟩, ⟨_, _, clear0 rfl rfl, rfl, rfl, rfl, rfl⟩,
    ⟨_, _, clear0 rfl rfl, rfl, rfl, rfl⟩, _, clear0 rfl rfl, rfl⟩
/-- An all-zero descriptor for a handle whose ring has every slot free, and for one whose ring has a slot that is not. -/
theorem wit_ring_drop : (ringState 0 []).clear (.rcfg 1 15) ∧ xOnly 1 = true ∧
    Gives (descRead ((ringState 0 []).xval 1).toNat 32) (ringState 0 []) [0, 0, 0, 0] (ringState 0 []) ∧ (ringState 0 []).unread ∧
    (∃ r, ((ringState 0 []).core 0).ring 15 = some r ∧ r.slots = []) ∧
    (∃ r, let s := ringState 0 [{ state := .full }]
      Gives (descRead (s.xval 1).toNat 32) s [0, 0, 0, 0] s ∧ (s.core 0).ring 15 = some r ∧ r.slots ≠ [] ∧ s.issue.ign = [] ∧ s.cur.handled 2 0 = true) :=
  ⟨clear0 rfl rfl, rfl, rfl, ⟨rfl, rfl⟩, ⟨_, rfl, rfl⟩, _, rfl, rfl, by decide, rfl, rfl⟩

theorem wit_tile : ∃ m, sd.clear (.tnext 5 6) ∧ sd.issue.ctx ≠ 4 ∧ xOrZero 5 = true ∧ sd.domOf 0 = some m ∧ (tget m.deal 0 (0, 0)).2 ≤ (sd.core 0).dealt ∧
    ∃ n, let s := sd.modDomain 1 (fun x => { x with deal := [(0, (3, 2))] })
      s.clear (.tnext 5 6) ∧ s.domOf 0 = some n ∧ (s.core 0).dealt < (tget n.deal 0 (0, 0)).2 :=
  ⟨_, clear0 rfl rfl, by decide, rfl, rfl, by decide, _, clear0 rfl rfl, rfl, by decide⟩
set_option maxRecDepth 16384 in
theorem wit_work : s0.clear .tend ∧ s0.inHandler = false ∧ s0.cur.unwritten.isEmpty = true ∧ (s0.retire 0 0).issue = s0.issue ∧
    (s0.clear (.spawn 3 1 2) ∧ xOnly 2 = true ∧ (s0.ctx 0 1).active = false ∧ ∀ j < 1, (s0.ctx 0 j).active = true) ∧
    (∃ m, sd.clear (.fan 1 2) ∧ sd.domOf 0 = some m) ∧
    (∃ l m, let s := desc [w64 (2 ^ 63)] sd
      s.clear (.gang 3 0) ∧ Gives (descRead (s.xval 0).toNat 128) s l s ∧ s.unread ∧ (gangOf l).2 = false ∧ (s.core 0).domain = some 1 ∧ s.domOf 0 = some m ∧
      s.clear (.tqpush 63 0)) :=
  ⟨clear0 rfl rfl, rfl, rfl, rfl, ⟨clear0 rfl rfl, rfl, rfl, fun j h => by rw [show j = 0 by omega]; rfl⟩, ⟨_, clear0 rfl rfl, rfl⟩,
    _, _, clear0 rfl rfl, rfl, ⟨rfl, rfl⟩, rfl, rfl, rfl, clear0 rfl rfl⟩
theorem wit_spawn_full : let s := s0.modCore 0 (fun c => ((c.modCtx 1 (fun x => { x with active := true })).modCtx 2 (fun x => { x with active := true })).modCtx 3
      (fun x => { x with active := true }))
    s.clear (.spawn 3 1 2) ∧ ∀ k < 4, (s.ctx 0 k).active = true := by
  refine ⟨clear0 rfl rfl, ?_⟩
  decide

/-! ### The execute half -/

theorem wit_execute : WordMet (.add 63 0 1 3) (fun s => !s.gBad 63 [0, 1]) (gPop 0) (gPop 1)
    (fun _ x y => gPush 63 (sext 64 (IntOp.add.eval 64 x.toNat y.toNat))) ∧
    WordMet (.seq 57 63 63 0) (fun s => !s.gBad 57 [63, 63]) (gPop 63) (gPop 63) (fun _ x y => gPush 57 (sext 8 (IntOp.seq.eval 8 x.toNat y.toNat))) ∧
    WordMet (.clz 47 47 3) (fun s => !s.gBad 47 [47]) (gPop 47) (pure ()) (fun _ x _ => gPush 47 (sext 64 (leadingZeros 64 x.toNat))) ∧
    WordMet (.popc 1 2 0) (fun s => !s.gBad 1 [2]) (gPop 2) (pure ()) (fun _ x _ => gPush 1 (sext 8 (popCount 8 x.toNat))) ∧
    WordMet (.sext 1 2 0) (fun s => !s.gBad 1 [2]) (gPop 2) (pure ()) (fun _ x _ => gPush 1 (sext 8 x.toNat)) :=
  ⟨⟨s0, _, _, _, _, _, clear0 rfl rfl, rfl, rfl, rfl, rfl, rfl, .inr (by decide)⟩, ⟨s0, _, _, _, _, _, clear0 rfl rfl, rfl, rfl, rfl, rfl, rfl, .inl rfl⟩,
    ⟨s0, _, _, _, _, _, clear0 rfl rfl, rfl, rfl, rfl, rfl, rfl, .inr (by decide)⟩, ⟨s0, _, _, _, _, _, clear0 rfl rfl, rfl, rfl, rfl, rfl, rfl, .inr (by decide)⟩,
    s0, _, _, _, _, _, clear0 rfl rfl, rfl, rfl, rfl, rfl, rfl, .inr (by decide)⟩
theorem wit_select : ∃ s1 s2 s3 t c x y, s0.clear (.sel 3 1 2 3) ∧ gOnly 3 = true ∧ s0.gBad 3 [1, 2] = false ∧ Gives (gPop 3) s0 c s1 ∧
    Gives (gPop 1) s1 x s2 ∧ Gives (gPop 2) s2 y s3 ∧ Does (gPush 3 (sext 64 (if c ≠ 0 then x else y).toNat)) s3 t ∧ t.readsOk :=
  ⟨_, _, _, _, _, _, _, clear0 rfl rfl, rfl, rfl, rfl, rfl, rfl, rfl, rfl, .inr (by decide)⟩
theorem wit_divide : ∃ s1 s2 t x y, s0.clear (.div 3 1 2 3) ∧ s0.gBad 3 [1, 2] = false ∧ Gives (gPop 1) s0 x s1 ∧ Gives (gPop 2) s1 y s2 ∧
    y.toNat = 0 ∧ Does (gPush 3 (sext 64 (wrap 64 (-1)))) (s2.addFlags IDZ) t ∧ t.readsOk :=
  ⟨_, _, _, _, _, clear0 rfl rfl, rfl, rfl, rfl, rfl, rfl, rfl, .inr (by decide)⟩
theorem wit_execute_imm : WordMet (.addi 3 1 0xFFF) (fun s => !s.gBad 3 [1]) (gPop 1) (pure ())
      (fun s x _ => gPush 3 (w64 (IntOp.add.eval 64 x.toNat (wi (s.imm 0xFFF#12)).toNat))) ∧
    WordMet (.li 3 1) (fun s => !s.gBad 3 []) (pure ()) (pure ()) (fun s _ _ => gPush 3 (wi (s.imm 1#18))) ∧
    WordMet (.lui 63 1) (fun _ => gOrZero 63) (gPop 63) (pure ()) (fun s x _ => gPush 63 (w64 (bf (wi (s.imm 1#18)) 0 32 * 2 ^ 32 + bf x 0 32))) ∧
    WordMet (.feat 3 63 1) (fun s => !s.gBad 3 [63]) (do
      let x ← gPop 63
      require ((1#1) == 0 || (x &&& ~~~ (Config.fset.setWidth 64)) == 0) 4 (x &&& ~~~ (Config.fset.setWidth 64))
      pure x) (pure ()) (fun _ x _ => gPush 3 (x &&& ~~~ (Config.fset.setWidth 64))) :=
  ⟨⟨s0, _, _, _, _, _, clear0 rfl rfl, rfl, rfl, rfl, rfl, rfl, .inr (by decide)⟩, ⟨s0, _, _, _, _, _, clear0 rfl rfl, rfl, rfl, rfl, rfl, rfl, .inl rfl⟩,
    ⟨s0, _, _, _, _, _, clear0 rfl rfl, rfl, rfl, rfl, rfl, rfl, .inl rfl⟩, s0, _, _, _, _, _, clear0 rfl rfl, rfl, rfl, rfl, rfl, rfl, .inl rfl⟩
theorem wit_execute_branch : ∃ s1 x, s0.clear (.epb 4 3) ∧ s0.ehSrc false 4 = true ∧ Gives (gPop 4) s0 x s1 ∧ s1.readsOk ∧ s1.cur.bq.length < 8 ∧
    s0.clear (.ebnz 4 0 5) ∧ s0.clear (.ebnz 4 1 5) ∧ s1.issue.addr = s0.issue.addr ∧ ((x != 0) == ((0#1) == 1)) = true ∧
    ((x != 0) == ((1#1) == 1)) = false ∧ (s1.onCur (fun c => c.follow 0 c.eh.isEmpty)).readsOk :=
  ⟨_, _, clear0 rfl rfl, rfl, rfl, ⟨rfl, .inr (by decide)⟩, by decide, clear0 rfl rfl, clear0 rfl rfl, rfl, by decide, by decide, rfl, .inr (by decide)⟩
theorem wit_float : WordMet (.fadd 3 1 2 7 2) (fun s => !s.gBad 3 [1, 2]) (gPop 1) (gPop 2)
      (fun s x y => gPush 3 (w64 (FpOp.add.lane (fmtOf 2) (s.mode 7 0) x.toNat y.toNat).1)) ∧
    WordMet (.fclass 3 1 2) (fun s => !s.gBad 3 [1]) (gPop 1) (pure ()) (fun _ x _ => gPush 3 (w64 (classLane (fmtOf 2) x.toNat).1)) ∧
    ∃ s1 s2 s3 t c x y, s0.clear (.fma 3 1 2 0 1) ∧ gOrZero 3 = true ∧ s0.gBad 3 [1, 2] = false ∧ Gives (gPop 3) s0 c s1 ∧ Gives (gPop 1) s1 x s2 ∧
      Gives (gPop 2) s2 y s3 ∧ Does (gPush 3 (w64 (fmaLane (fmtOf 1) (s0.mode 0 0) x.toNat y.toNat c.toNat).1)) s3 t ∧ t.readsOk :=
  ⟨⟨s0, _, _, _, _, _, clear0 rfl rfl, rfl, rfl, rfl, rfl, rfl, .inr (by decide)⟩, ⟨s0, _, _, _, _, _, clear0 rfl rfl, rfl, rfl, rfl, rfl, rfl, .inr (by decide)⟩,
    _, _, _, _, _, _, _, clear0 rfl rfl, rfl, rfl, rfl, rfl, rfl, rfl, rfl, .inr (by decide)⟩

/-! ### Vectors -/

theorem wit_masked : MaskedMet (.vadd 3 1 2 0 0 2) 3 1 2 0 0 32 (fun _ _ x y => (IntOp.add.eval 32 x y, 0)) ∧
    MaskedMet (.vadd 3 1 2 7 1 3) 3 1 2 7 1 64 (fun _ _ x y => (IntOp.add.eval 64 x y, 0)) ∧
    MaskedMet (.vfadd 3 1 2 1 0 2) 3 1 2 1 0 32 (fun s j => FpOp.add.lane (fmtOf 2) (s.mode 7 j)) :=
  ⟨⟨s0, _, _, _, _, _, _, _, _, _, clear0 rfl rfl, rfl, rfl, rfl, rfl, rfl, rfl, rfl, .inr (by decide)⟩,
    ⟨s0, _, _, _, _, _, _, _, _, _, clear0 rfl rfl, rfl, rfl, rfl, rfl, rfl, rfl, rfl, .inr (by decide)⟩,
    s0, _, _, _, _, _, _, _, _, _, clear0 rfl rfl, rfl, rfl, rfl, rfl, rfl, rfl, rfl, .inr (by decide)⟩
theorem wit_vfma : ∃ s1 s2 s3 s4 t act c x y, s0.clear (.vfma 3 1 2 0 0 2) ∧ gOrZero 3 = true ∧ s0.vBad 3 [1, 2] = false ∧
    Gives (activeLanes 0 0 32) s0 act s1 ∧ Gives (vPop 3) s1 c s2 ∧ Gives (vPop 1) s2 x s3 ∧ Gives (vPop 2) s3 y s4 ∧
    Does (vPush 3 (BitVec.ofNat 128 (mergeLanes 32 act (((List.range (128 / 32)).map (fun j => fmaLane (fmtOf 2) (s0.mode 7 j) (laneOf 32 x.toNat j)
      (laneOf 32 y.toNat j) (laneOf 32 c.toNat j))).map (fun l => l.1)) c.toNat))) s4 t ∧ t.readsOk :=
  ⟨_, _, _, _, _, _, _, _, _, clear0 rfl rfl, rfl, rfl, rfl, rfl, rfl, rfl, rfl, rfl, .inr (by decide)⟩
theorem wit_lanes : WordMet (.vcmp 3 1 2 5 2) (fun s => !s.vBad 3 [1, 2]) (vPop 1) (vPop 2) (fun _ x y => vPush 3 (BitVec.ofNat 128 (packLanes 32
      (((List.range (128 / 32)).map (fun j => (allOnes 32 (intCmp 5 32 (laneOf 32 x.toNat j) (laneOf 32 y.toNat j)), 0))).map (fun l => (l : Nat × Nat).1))))) ∧
    WordMet (.vfclass 3 1 2) (fun s => !s.vBad 3 [1]) (vPop 1) (pure ())
      (fun _ x _ => vPush 3 (BitVec.ofNat 128 (mapLanes 32 (classLane (fmtOf 2)) x.toNat).1)) ∧
    ∃ s1 s2 s3 t sel x y, s0.clear (.vsel 3 1 2 7 3) ∧ s0.vBad 3 [1, 2] = false ∧ Gives (rsRead (vAddr s0.issue.view 7) 16) s0 sel s1 ∧
      Gives (vPop 1) s1 x s2 ∧ Gives (vPop 2) s2 y s3 ∧ Does (vPush 3 (BitVec.ofNat 128 (packLanes 64 ((List.range (128 / 64)).map (fun j =>
        if laneOf 64 sel j % 2 = 1 then laneOf 64 x.toNat j else laneOf 64 y.toNat j))))) s3 t ∧ t.readsOk :=
  ⟨⟨s0, _, _, _, _, _, clear0 rfl rfl, rfl, rfl, rfl, rfl, rfl, .inr (by decide)⟩, ⟨s0, _, _, _, _, _, clear0 rfl rfl, rfl, rfl, rfl, rfl, rfl, .inr (by decide)⟩,
    _, _, _, _, _, _, _, clear0 rfl rfl, rfl, rfl, rfl, rfl, rfl, rfl, .inr (by decide)⟩
theorem wit_part : PartMet (.vfcvt 3 1 1 1 0 0) 3 1 none 32 16 1 (fun s _ j x => vcvtLane s.anm 1 0 (s.mode 0 j) x) ∧
    PartMet (.vqpack 3 1 2 3 1 2) 3 1 (some 2) 32 8 3 (fun s y j x => packLane s.anm (fmtOf 2) (narrowType 1) (s.mode 7 j) (y.toNat % 256) x) ∧
    PartMet (.vqunpk 3 1 2 3 1 2) 3 1 (some 2) 8 32 3 (fun s y j x => unpackLane s.anm (narrowType 1) (fmtOf 2) (s.mode 7 j) (y.toNat % 256) x) :=
  ⟨⟨s0, _, _, _, _, _, _, _, clear0 rfl rfl, rfl, rfl, rfl, rfl, rfl, rfl, .inr (by decide)⟩,
    ⟨s0, _, _, _, _, _, _, _, clear0 rfl rfl, rfl, rfl, rfl, rfl, rfl, rfl, .inr (by decide)⟩,
    s0, _, _, _, _, _, _, _, clear0 rfl rfl, rfl, rfl, rfl, rfl, rfl, rfl, .inr (by decide)⟩
theorem wit_dot : ∃ s1 s2 s3 u c x y, s0.clear (.vdot 3 1 2 0 4) ∧ gOnly 3 = true ∧ s0.vBad 3 [1, 2] = false ∧ Gives (vPop 3) s0 c s1 ∧
    Gives (vPop 1) s1 x s2 ∧ Gives (vPop 2) s2 y s3 ∧ Does (vPush 3 (BitVec.ofNat 128 (packLanes 32 (((List.range 4).map (fun j => dotLane s0.anm (dotType 4)
      (s0.mode 0 j) (laneOf 32 x.toNat j) (laneOf 32 y.toNat j) (laneOf 32 c.toNat j))).map (fun v => v.1))))) s3 u ∧ u.readsOk :=
  ⟨_, _, _, _, _, _, _, clear0 rfl rfl, rfl, rfl, rfl, rfl, rfl, rfl, rfl, .inr (by decide)⟩
theorem wit_move : WordMet (.vslide 3 1 2 3 1) (fun s => !s.vBad 3 [1, 2]) (vPop 1) (vPop 2) (fun _ x y => vPush 3 (BitVec.ofNat 128
      (packLanes 64 ((List.range (128 / 64)).map (fun i => pairLane 64 x.toNat y.toNat (i + 1)))))) ∧
    WordMet (.vext 3 1 3 1) (fun s => s.ehSrc true 1 && s.ehDst false 3) (vPop 1) (pure ()) (fun _ x _ => gPushV 3 (sext 64 (laneOf 64 x.toNat 1))) ∧
    WordMet (.vmpop 3 1 0 0) (fun s => s.ehDst false 3 && s.ehSrc true 1) (activeLanes 0 0 8) (vPop 1)
      (fun _ act x => gPushV 3 (w64 (((List.range (128 / 8)).map (fun j => b2n (act.getD j false && laneOf 8 x.toNat j % 2 == 1))).sum))) ∧
    WordMet (.vins 3 1 3 1) (fun s => gOnly 3 && s.ehSrc false 1) (vPop 3) (gPop 1) (fun _ old x => vPush 3 (BitVec.ofNat 128 (packLanes 64
      ((List.range (128 / 64)).map (fun j => if j = 1 then x.toNat % 2 ^ 64 else laneOf 64 old.toNat j))))) :=
  ⟨⟨s0, _, _, _, _, _, clear0 rfl rfl, rfl, rfl, rfl, rfl, rfl, .inr (by decide)⟩, ⟨s0, _, _, _, _, _, clear0 rfl rfl, rfl, rfl, rfl, rfl, rfl, .inr (by decide)⟩,
    ⟨s0, _, _, _, _, _, clear0 rfl rfl, rfl, rfl, rfl, rfl, rfl, .inr (by decide)⟩, s0, _, _, _, _, _, clear0 rfl rfl, rfl, rfl, rfl, rfl, rfl, .inr (by decide)⟩
theorem wit_move_masked : ∃ s1 s2 s3 t act old x, s0.clear (.vmov 3 1 1 0 2) ∧ s0.vBad 3 [1] = false ∧ Gives (activeLanes 1 0 32) s0 act s1 ∧
    Gives (oldLanes 3 1 0) s1 old s2 ∧ Gives (vPop 1) s2 x s3 ∧ Does (vPush 3 (BitVec.ofNat 128 (mergeLanes 32 act (lanes 32 x.toNat) old))) s3 t ∧ t.readsOk :=
  ⟨_, _, _, _, _, _, _, clear0 rfl rfl, rfl, rfl, rfl, rfl, rfl, rfl, .inr (by decide)⟩
theorem wit_splat_perm : (∃ s1 s2 s3 t act old x, s0.clear (.vsplat 3 1 0 0 3) ∧ s0.vBad 3 [] = false ∧ s0.ehSrc false 1 = true ∧
      Gives (activeLanes 0 0 64) s0 act s1 ∧ Gives (oldLanes 3 0 0) s1 old s2 ∧ Gives (gPop 1) s2 x s3 ∧
      Does (vPush 3 (BitVec.ofNat 128 (mergeLanes 64 act (List.replicate (128 / 64) (x.toNat % 2 ^ 64)) old))) s3 t ∧ t.readsOk) ∧
    ∃ s1 s2 s3 s4 t act old x y, s0.clear (.vperm 3 1 2 0 0 0) ∧ s0.vBad 3 [1, 2] = false ∧ Gives (activeLanes 0 0 8) s0 act s1 ∧
      Gives (oldLanes 3 0 0) s1 old s2 ∧ Gives (vPop 1) s2 x s3 ∧ Gives (vPop 2) s3 y s4 ∧
      Does (vPush 3 (BitVec.ofNat 128 (mergeLanes 8 act ((lanes 8 y.toNat).map (fun j => laneOf 8 x.toNat (j % (128 / 8)))) old))) s4 t ∧ t.readsOk :=
  ⟨⟨_, _, _, _, _, _, _, clear0 rfl rfl, rfl, rfl, rfl, rfl, rfl, rfl, rfl, .inr (by decide)⟩,
    _, _, _, _, _, _, _, _, _, clear0 rfl rfl, rfl, rfl, rfl, rfl, rfl, rfl, rfl, .inr (by decide)⟩

/-! ### CORDIC, stamped words, the fused update, the register store by address -/

theorem wit_cordic : WordMet (.cord 3 1 1 0) (fun s => decide ((0#5).toNat ≤ 10) && ((0#5) != 2 || gOnly 3) && !s.gBad 3 [1]) (gPop 1) (pure (0 : W64))
      (fun _ y x => gPushV 3 (w64 (cordLane 0 1 (bf y 0 32) (bf x 0 32)).1)) ∧
    WordMet (.sset 3 1 15) (fun s => !s.gBad 3 [1]) (gPop 1) (pure ()) (fun s x _ => gPushV 3 (w64 (swMake (bf x 0 32) s.stamp24 15 (notFinite (bf x 0 32))))) ∧
    WordMet (.sadd 3 1 2 0) (fun s => !s.gBad 3 [1, 2]) (gPop 1) (gPop 2)
      (fun s x y => gPushV 3 (w64 (swAdd s.dcs s.stamp24 (s.mode 0 0) x.toNat y.toNat).1)) ∧
    WordMet (.vsread 3 1) (fun s => !s.vBad 3 [1]) (vPop 1) (pure ())
      (fun s x _ => vPush 3 (BitVec.ofNat 128 (mapLanes 64 (fun w => swRead s.dcs w s.stamp24) x.toNat).1)) :=
  ⟨⟨s0, _, _, _, _, _, clear0 rfl rfl, rfl, rfl, rfl, rfl, rfl, .inr (by decide)⟩, ⟨s0, _, _, _, _, _, clear0 rfl rfl, rfl, rfl, rfl, rfl, rfl, .inr (by decide)⟩,
    ⟨s0, _, _, _, _, _, clear0 rfl rfl, rfl, rfl, rfl, rfl, rfl, .inr (by decide)⟩, s0, _, _, _, _, _, clear0 rfl rfl, rfl, rfl, rfl, rfl, rfl, .inr (by decide)⟩
theorem wit_fused : ∃ s1 s2 s3 s4 s5 t1 t2 t3 g w m v h, s0.clear (.voptw 0 1 46 44) ∧ gOnly 0 = true ∧ s0.ehSrc true 1 = true ∧ (46#6).toNat ≤ 46 ∧
    (44#6).toNat ≤ 44 ∧ (0#6).toNat ≠ (46#6).toNat + 1 ∧ Gives (vPop 1) s0 g s1 ∧ Gives (rsRead (vAddr s0.issue.view 0) 16) s1 w s2 ∧
    Gives (rsRead (vAddr s0.issue.view 46) 16) s2 m s3 ∧ Gives (rsRead (vAddr s0.issue.view 47) 16) s3 v s4 ∧ Gives (rsRead (8 * 44) 32) s4 h s5 ∧ s5.readsOk ∧
    Does (rsWrite (vAddr s0.issue.view 46) 16 0) s5 t1 ∧ Does (rsWrite (vAddr s0.issue.view 47) 16 0) t1 t2 ∧
    Does (rsWrite (vAddr s0.issue.view 0) 16 0) t2 t3 ∧ t3.readsOk :=
  ⟨_, _, _, _, _, _, _, _, _, _, _, _, _, clear0 rfl rfl, rfl, rfl, by decide, by decide, by decide, rfl, rfl, rfl, rfl, rfl, ⟨rfl, .inr (by decide)⟩,
    rfl, rfl, rfl, rfl, .inr (by decide)⟩
theorem wit_register_store : (∃ s1 s2 t base v, s0.clear (.rsld 5 63 511 3) ∧ gOrZero 63 = true ∧ s0.gBad 5 [] = false ∧ Gives (gPop 63) s0 base s1 ∧
      Gives (rsRead (alignTo 8 ((base + wi (2 ^ 3 * s0.imm (511#9))).toNat % 2048)) 8) s1 v s2 ∧ Does (gPushV 5 (sext 64 v)) s2 t ∧ t.readsOk) ∧
    ∃ s1 s2 t base v, s0.clear (.rsst 3 63 1 4) ∧ gOrZero 63 = true ∧ s0.ehSrc true 3 = true ∧ Gives (gPop 63) s0 base s1 ∧
      Gives (do return (← vPop 3).toNat) s1 v s2 ∧ s2.readsOk ∧
      Does (rsWrite (alignTo 16 ((base + wi (2 ^ 4 * s0.imm (1#9))).toNat % 2048)) 16 (v % 2 ^ 128)) s2 t ∧ t.readsOk :=
  ⟨⟨_, _, _, _, _, clear0 rfl rfl, rfl, rfl, rfl, rfl, rfl, rfl, .inr (by decide)⟩,
    _, _, _, _, _, clear0 rfl rfl, rfl, rfl, rfl, rfl, ⟨rfl, .inr (by decide)⟩, rfl, rfl, .inr (by decide)⟩

/-! ### Engines -/

/-- A job of one row, one step and one column, with no masks; it opens its group and, when one is set, accumulates and closes it. -/
def jobState (acc : Nat) (s : State) : State :=
  s.onCur (fun c => c.rsPut 0 16 (2 ^ 18 + 2 ^ 26 + 2 ^ 36 + 2 ^ 45 + acc * (2 ^ 44 + 2 ^ 46) + (63 * 2 ^ 8 + 63 * 2 ^ 14 + 63 * 2 ^ 20) * 2 ^ 64))
set_option maxRecDepth 16384 in
theorem wit_view : ∃ l, let s := desc [0, w64 (1 + 2 ^ 10), 0, 0] s0
    s.clear (.tvld 0 15) ∧ Gives (descRead (s.xval 0).toNat 32) s l s ∧ s.unread ∧ viewBad l = false :=
  ⟨_, clear0 rfl rfl, rfl, ⟨rfl, rfl⟩, rfl⟩
theorem wit_load_tile : ∃ t, s0.clear (.mloadw 3 0) ∧ s0.clear (.mloadn 3 0) ∧ s0.ehDst false 3 = true ∧ Does (viewsReady [0]) s0 s0 ∧
    Does (commandOrder (s0.kind != 0) s0.scope) s0 s0 ∧ (s0.team 0).queue.length < Config.jobQueue ∧
    Does (gPush 3 (w64 (s0.core 0).jobNext)) (s0.submitted 0 { core := 0, load := true, west := true, stv := (s0.core 0).view 0, scope := s0.scope, weight := 8 }) t ∧
    t.readsOk :=
  ⟨_, clear0 rfl rfl, clear0 rfl rfl, rfl, rfl, rfl, by decide, rfl, rfl, .inl rfl⟩
set_option maxRecDepth 16384 in
theorem wit_job : ∃ j s1 s2 t, let s := jobState 0 s0
    s.clear (.mjob 3 0) ∧ s.ehDst false 3 = true ∧ Gives (jobOfRegs 0) s j s1 ∧ s1.readsOk ∧ s1.issue.core = 0 ∧
    jobBad j (s1.core 0).rings (s1.core 0).group.isSome = false ∧ j.scope < 6 ∧ j.first = true ∧ j.final = false ∧
    Does (commandOrder (j.flagsReq != 0) j.scope) s1 s1 ∧ (s1.team 0).queue.length < Config.jobQueue ∧ Gives (reserveJob j 0) s1 true s2 ∧ s2.issue.core = 0 ∧
    (s2.team 0).queue.length < Config.jobQueue ∧
    Does (gPush 3 (w64 (s2.core 0).jobNext)) ((s2.submitted 0 { j with cls := 0, group := 0 }).modCore 0 (fun x => { x with group := some 0 })) t ∧ t.readsOk :=
  ⟨_, _, _, _, clear0 rfl rfl, rfl, rfl, ⟨rfl, .inr (by decide)⟩, rfl, rfl, by decide, rfl, rfl, rfl, by decide, rfl, rfl, by decide, rfl, rfl, .inr (by decide)⟩
set_option maxRecDepth 16384 in
theorem wit_send : ∃ j cap s1 s2 s3 t, let s := jobState 1 s0
    s.clear (.msend 3 0 63) ∧ s.ehDst false 3 = true ∧ s.ehSrc false 63 = true ∧ Gives (jobOfRegs 0) s j s1 ∧
    Gives (gPop 63) s1 cap s2 ∧ s2.readsOk ∧ s2.issue.core = 0 ∧ jobBad j (s2.core 0).rings (s2.core 0).group.isSome = false ∧ j.first = true ∧
    j.final = true ∧ j.acc = true ∧ j.skind = 0 ∧ j.dring = false ∧ j.scope < 6 ∧ Does (commandOrder (j.flagsReq != 0) j.scope) s2 s2 ∧
    (s2.team 0).queue.length < Config.jobQueue ∧ Gives (reserveJob j 0) s2 true s3 ∧ (s3.team 0).queue.length < Config.jobQueue ∧ s3.issue.core = 0 ∧
    Does (gPush 3 (w64 (s3.core 0).jobNext)) (s3.submitted 0 { j with cls := 8, group := 0, cap := cap }) t ∧ t.readsOk :=
  ⟨_, _, _, _, _, _, clear0 rfl rfl, rfl, rfl, rfl, rfl, ⟨rfl, .inr (by decide)⟩, rfl, rfl, rfl, rfl, rfl, rfl, rfl, by decide, rfl, by decide, rfl,
    by decide, rfl, rfl, rfl, .inr (by decide)⟩
theorem wit_job_record : WordMet (.mpoll 3 63) (fun s => !s.gBad 3 [63]) (gPop 63) get (fun _ x t => gPush 3 (t.jobRecord 0 (bf x 0 16))) ∧
    ∃ s1 t x, s0.clear (.mwait 3 63) ∧ s0.gBad 3 [63] = false ∧ Gives (gPop 63) s0 x s1 ∧ s1.readsOk ∧ bf (s1.jobRecord 0 (bf x 0 16)) 0 2 = 3 ∧
      Does (gPush 3 (s1.jobRecord 0 (bf x 0 16))) s1 t ∧ t.readsOk :=
  ⟨⟨s0, _, _, _, _, _, clear0 rfl rfl, rfl, rfl, rfl, rfl, rfl, .inl rfl⟩,
    _, _, _, clear0 rfl rfl, rfl, rfl, ⟨rfl, .inl rfl⟩, rfl, rfl, rfl, .inl rfl⟩
/-- A core with tile view 0 of one element of f16. -/
def viewState : State := s0.modCore 0 (fun c => { c with views := [(0, [0, w64 (1 + 2 ^ 10 + 2 ^ 20), 0, 0])] })
set_option maxRecDepth 16384 in
theorem wit_publish : ∃ t u, let s := viewState; let v : View := (s.core 0).view 0
    s.clear (.mpub 63 5 0) ∧ s.ehDst false 63 = true ∧ Does (viewsReady [0]) s s ∧ Does (commandOrder (s.kind != 0) s.scope) s s ∧ v.rows ≤ 128 ∧ v.fmt ≠ 0 ∧
    tfind (s.cluster 0).streams (5#6).toNat = none ∧ ((s.cluster 0).streams.map (fun x => x.2.bytes)).sum + streamBytes v ≤ Config.replayStore ∧
    Does (gPush 63 0) ((s.modCluster 0 (fun x => { x with streams := tput x.streams 5 { core := 0, view := v, subscribed := s.subscribed 0 5, bytes := streamBytes v } })).pend
      [.streamPublishRead 0 5]) t ∧ t.readsOk ∧
    (let w := s.modCluster 0 (fun x => { x with streams := [(5, {})] })
     (tfind (w.cluster 0).streams (5#6).toNat).isSome = true ∧ Does (gPush 63 1) w u ∧ u.readsOk) :=
  ⟨_, _, clear0 rfl rfl, rfl, rfl, rfl, by decide, by decide, rfl, by decide, rfl, ⟨rfl, .inl rfl⟩, rfl, rfl, rfl, .inl rfl⟩
theorem wit_subscribe : ∃ s1 t x, let s := at0 (fun c => c.rsPut 8 8 65535)
    s.clear (.msub 63 5 1) ∧ s.gBad 63 [1] = false ∧ Gives (gPop 1) s x s1 ∧ s1.readsOk ∧ x.toNat = 65535 ∧
    (s1.team 0).subs.any (fun y => y.sid == (5#6).toNat) = false ∧
    Does (gPush 63 0) ((s1.modTeam 0 (fun y => { y with subs := y.subs ++ [{ sid := 5, left := x.toNat }] })).modCluster 0
      (fun k => match tfind k.streams 5 with | some y => { k with streams := tput k.streams 5 { y with subscribed := true } } | none => k)) t ∧ t.readsOk ∧
    s0.clear (.munsub 5) ∧ (((s0.modTeam 0 (fun y => { y with subs := y.subs.filter (fun z => z.sid != 5) })).endStream 0 5).pend
      [.matrixJobStart 0]).issue = s0.issue :=
  ⟨_, _, _, clear0 rfl rfl, rfl, rfl, ⟨rfl, .inr (by decide)⟩, rfl, rfl, rfl, ⟨rfl, .inr (by decide)⟩, clear0 rfl rfl, rfl⟩
theorem ite_ne_zero {p : Prop} [Decidable p] {a b : Nat} (ha : a ≠ 0) (hb : b ≠ 0) : (if p then a else b) ≠ 0 := by
  split <;> assumption
set_option maxRecDepth 16384 in
theorem wit_chain : ∃ s1 cap, let s := at0 (fun c => c.rsPut 8 8 (2 ^ 18))
    s.clear (.mchain 63 1 4) ∧ s.gBad 63 [1] = false ∧ (4#3).toNat ≤ 4 ∧ Gives (gPop 1) s cap s1 ∧ s1.readsOk ∧ s1.capStatus 0 cap 4 ≠ 0 :=
  ⟨_, _, clear0 rfl rfl, rfl, by decide, rfl, ⟨rfl, .inr (by decide)⟩,
    ite_ne_zero (by decide) (fun h => by rw [if_pos (by decide)] at h; cases h)⟩
/-- A check computed for the capability's own bits passes, whatever the free value is. -/
theorem cap_passes (check : W64 → BitVec 42 → BitVec 22) (k : W64) :
    let cap := w64 (4096 + (check k 4096).toNat * 2 ^ 42)
    bf cap 42 22 = (check k (BitVec.ofNat 42 (bf cap 0 42))).toNat ∧ bf cap 0 42 = 4096 := by
  have h := (check k 4096).isLt
  have low : bf (w64 (4096 + (check k 4096).toNat * 2 ^ 42)) 0 42 = 4096 := by simp only [bf, w64, BitVec.toNat_ofNat]; omega
  exact ⟨by rw [low]; show _ = (check k 4096).toNat; simp only [bf, w64, BitVec.toNat_ofNat]; omega, low⟩
theorem bf_of_low {cap : W64} (h : bf cap 0 42 = 4096) (i n : Nat) (hn : i + n ≤ 42) : bf cap i n = 4096 / 2 ^ i % 2 ^ n := by
  have e : 2 ^ 42 = 2 ^ i * 2 ^ (42 - i) := by rw [← Nat.pow_add, Nat.add_sub_cancel' (by omega)]
  simp only [bf, Nat.shiftRight_eq_div_pow, Nat.pow_zero, Nat.div_one] at h ⊢
  rw [← h, e, Nat.mod_mul_right_div_self, Nat.mod_mod_of_dvd]
  exact Nat.pow_dvd_pow 2 (by omega)
set_option maxRecDepth 65536 in
theorem chain_links (cap : W64) (hc : bf cap 42 22 = (Config.capCheck (s0.capKey 0) (BitVec.ofNat 42 (bf cap 0 42))).toNat)
    (hl : bf cap 0 42 = 4096) : (at0 (fun c => { c with lq := [] })).capStatus 0 cap 4 = 0 := by
  unfold State.capStatus
  rw [if_neg (by intro g; exact g hc), bf_of_low hl 18 8 (by decide), bf_of_low hl 26 16 (by decide), bf_of_low hl 0 10 (by decide),
    bf_of_low hl 10 8 (by decide)]
  decide
theorem wit_chain_linked : ∃ s1 t cap, let s := at0 (fun c => { c with lq := [{ data := cap.setWidth 128 }] })
    let keys := (List.range 4).flatMap (fun i => (s1.team i).queue.map (fun j => j.key * 16 + i))
    s.clear (.mchain 63 56 4) ∧ s.gBad 63 [56] = false ∧ Gives (gPop 56) s cap s1 ∧ s1.readsOk ∧ s1.capStatus 0 cap 4 = 0 ∧
    Does (gPush 63 0) ((s1.modCluster 0 (fun k => { k with chainNext := some (4, keys) })).linkChain 0) t ∧ t.readsOk := by
  have h := cap_passes Config.capCheck (s0.capKey 0)
  have e : ∀ cap : W64, Gives (gPop 56) (at0 (fun c => { c with lq := [{ data := cap.setWidth 128 }] })) cap (at0 (fun c => { c with lq := [] })) := by
    intro cap
    show Except.ok (w64 _, _) = Except.ok _
    congr 2
    apply BitVec.eq_of_toNat_eq
    simpa [w64] using cap.isLt
  exact ⟨at0 (fun c => { c with lq := [] }), _, w64 (4096 + (Config.capCheck (s0.capKey 0) 4096).toNat * 2 ^ 42), clear0 rfl rfl, rfl, e _,
    ⟨rfl, .inl rfl⟩, chain_links _ h.1 h.2, rfl, rfl, .inl rfl⟩
theorem wit_capability : ∃ s1 s2 t x y, s0.clear (.mcap 3 1 2) ∧ s0.gBad 3 [1, 2] = false ∧ Gives (gPop 1) s0 x s1 ∧ Gives (gPop 2) s1 y s2 ∧ s2.readsOk ∧
    bf x 13 51 = 0 ∧ bf y 16 48 = 0 ∧ Does (gPush 3 (w64 ((Config.capCheck (s0.capKey 0) 0).toNat * 2 ^ 42))) s2 t ∧ t.readsOk :=
  ⟨_, _, _, _, _, clear0 rfl rfl, rfl, rfl, rfl, ⟨rfl, .inr (by decide)⟩, rfl, rfl, rfl, rfl, .inr (by decide)⟩

/-- The handler context of core 0 with row 0 of job 0 of team 0, whose target is a view of f32. -/
def rowState : State :=
  let j : Job := { words := [w64 (2 ^ 18 + 2 ^ 26 + 2 ^ 36 + 2 ^ 46), 0, 0, 0], dtv := [4096, w64 (1 + 2 ^ 10), 0, 0], left := [], busyRows := 1 }
  let s := (State.reset.modTeam 0 (fun t => { t with jobs := [j] })).modCtx 0 4 (fun c => { c with active := true, row := some {} })
  { s with issue := { ctx := 4 } }
theorem clear4 {i : Instr} (hb : badAtDecode [] i = false) : rowState.clear i := ⟨rfl, rfl, rfl, hb, Nat.zero_le 1, rfl⟩
theorem wit_row : ∃ t r j, rowState.clear (.mhnd 3) ∧ rowState.issue.ctx = 4 ∧ rowState.ehDst false 3 = true ∧ rowState.cur.row = some r ∧
    (rowState.team r.team).jobs.find? (fun j => j.key == r.job) = some j ∧ Does (gPush 3 0) rowState t ∧ t.readsOk ∧
    rowState.clear (.mdone 1 0 0) ∧ rowState.cur.ah = [] ∧ rowState.cur.unwritten.isEmpty = true ∧
    (rowState.endRow 0).issue = rowState.issue :=
  ⟨_, _, _, clear4 rfl, rfl, rfl, rfl, rfl, rfl, ⟨rfl, .inl rfl⟩, clear4 rfl, rfl, rfl, rfl⟩
theorem wit_bank : ∃ b s1 t x, let s := s0.modCore 0 (fun c => { c with banks := [{ state := 3 }] })
    s.clear (.bwait 3 63) ∧ s.gBad 3 [63] = false ∧ Gives (gPop 63) s x s1 ∧ s1.readsOk ∧ (s1.core 0).bankRecord (bf x 0 16) = b ∧ bf b 0 2 = 3 ∧
    Does (gPush 3 b) s1 t ∧ t.readsOk :=
  ⟨_, _, _, _, clear0 rfl rfl, rfl, rfl, ⟨rfl, .inl rfl⟩, rfl, rfl, rfl, rfl, .inl rfl⟩

/-! ### Collectives, barriers, waits and fences -/

theorem wit_collective : (sd.clear (.cwait 3 0) ∧ sd.collNamed 1 0 0 = .unknown) ∧
    (let s := sd.modDomain 1 (fun m => { m with collDone := [{ dom := 1, status := 1 }] })
     s.clear (.cwait 3 0) ∧ s.collNamed 1 0 0 = .ended { dom := 1, status := 1 }) ∧
    (let s := sd.modDie 3 (fun x => { x with colls := [(0, { dom := 1 })] })
     s.clear (.cwait 3 0) ∧ s.collNamed 1 0 0 = .flying) ∧
    ∃ u p e, (sg 2).clear (.csig 1 0 5 2) ∧ ahSrc 1 = true ∧ (5#3).toNat < 6 ∧ Gives (ahPop 1) (sg 2) 0x10000 (sg 2) ∧ Gives (ahPop 0) (sg 2) 0 (sg 2) ∧
      (sg 2).unread ∧ ((sg 2).xval 1).toNat % 8 = 0 ∧
      (sg 2).xlate ((sg 2).tenantOf 0) ((sg 2).xval 1) .write = .ok p 2 e ∧
      (sg 2).gprepare 0 ((sg 2).tenantOf 0) ((sg 2).xval 1) = .ok (.posted, u) ∧ u.issue = (sg 2).issue :=
  ⟨⟨clear0 rfl rfl, rfl⟩, ⟨clear0 rfl rfl, rfl⟩, ⟨clear0 rfl rfl, rfl⟩, _, _, _, clear0 rfl rfl, rfl, by decide, rfl, rfl, ⟨rfl, rfl⟩, rfl, rfl, rfl, rfl⟩
/-- An all-reduce of one f32 of the live page 1, whose ready word lies behind its bucket. -/
def collState : State := (sg 2).modCore 0 (fun c => { c with tcm := [(10, 1), (16, 1), (24, 8), (26, 1), (32, 1)] })
theorem coll_tcm : (collState.core 0).tcm = [(10, 1), (16, 1), (24, 8), (26, 1), (32, 1)] := rfl
theorem coll_cfg : (collState.core 0).tcmcfg = 0 := rfl
theorem coll_byte (i : Nat) : (collState.core 0).tcmByte 0 i = tget [(10, 1), (16, 1), (24, 8), (26, 1), (32, 1)] i 0 := by
  unfold Core.tcmByte
  rw [coll_tcm, coll_cfg, if_neg]
  intro h
  revert h
  simp [inScratch, show bf (0#64) 0 8 = 0 from rfl, show bf (0#64) 8 8 = 0 from rfl]
set_option maxRecDepth 16384 in
theorem coll_read : collState.lreadAt 0 (.tcm 0) 64 = 2^256 + 0x10008 * 2^192+2^128+0x10000*2^64 := by
  unfold State.lreadAt
  dsimp only
  rw [funext coll_byte]
  decide
set_option maxRecDepth 16384 in
theorem coll_desc : Gives (descRead 0 64) collState [0, 0x10000, 1, 0x10008, 1, 0, 0, 0] collState := by
  refine .bind (show Gives (localAccess 0 64) collState (.tcm 0) collState from rfl) (.bind (show Does (checkMark 0 (.tcm 0) 64) collState collState from rfl)
    (.bind (show Does (checkParity 0 (.tcm 0) 64) collState collState from rfl) (.bind (.get _) ?_)))
  rw [show collState.issue.core = 0 from rfl, coll_read]
  rfl
set_option maxRecDepth 65536 in
theorem wit_coll : ∃ l slot, let o : Coll := { vf := 1, dom := 1, core := 0, words := l }
    collState.clear (.coll 3 0) ∧ Gives (descRead (collState.xval 0).toNat 64) collState l collState ∧ collState.unread ∧ collBad o = false ∧
    (o.w 1).toNat % 8 = 0 ∧ (o.w 3).toNat % 8 = 0 ∧ (o.w 5).toNat % 8 = 0 ∧ collState.collFault 1 o = none ∧ collState.collTagged 1 o.tag = none ∧
    (collState.die 0).freeSlot = some slot ∧ collState.pointPassed true := by
  refine ⟨[0, 0x10000, 1, 0x10008, 1, 0, 0, 0], 0, ?_, ?_, ?_, ?_, ?_, ?_, ?_, ?_, ?_, ?_, ?_⟩
  · exact clear0 rfl rfl
  · exact coll_desc
  · exact ⟨rfl, rfl⟩
  · rfl
  · rfl
  · rfl
  · rfl
  · decide
  · rfl
  · rfl
  · rfl
theorem wit_barrier : sd.clear (.bar 3 63 0 0) ∧ sd.inHandler = false ∧ ahDst 3 = true ∧ ahSrc 63 = true ∧ sd.slotBound 0 0 = true ∧ sd.cur.residue = 0 ∧
    Gives (ahPop 63) sd 0 sd ∧ sd.unread ∧ sd.cur.unwritten.isEmpty = true ∧
    (((sd.onCur (fun c => { c with await := .bar 0 0 0 3, barred := true, barSlot := some (sd.slot (.bar 3 63 0 0)) })).onCore
      (fun c => { c with lastBar := 0 })).checkArrive 0).issue = sd.issue ∧
    sd.clear (.vote 0 0 2) ∧ sd.clear (.stepadv 63) ∧ sd.ehSrc false 63 = true :=
  ⟨clear0 rfl rfl, rfl, rfl, rfl, rfl, rfl, rfl, ⟨rfl, rfl⟩, rfl, rfl, clear0 rfl rfl, clear0 rfl rfl, rfl⟩
theorem wit_fences : s0.clear (.fence 5 1) ∧ s0.clear (.fence 5 3) ∧ (5#3).toNat ≤ 5 ∧ s0.settledNow ∧ s0.clear (.fenceSc 5) ∧ s0.clear .fenceBank ∧
    (s0.core 0).banks.all (fun b => b.ctx != 0 || (b.state == 3 && b.out.isEmpty)) = true :=
  ⟨clear0 rfl rfl, clear0 rfl rfl, by decide, ⟨rfl, rfl, rfl, rfl⟩, clear0 rfl rfl, clear0 rfl rfl, rfl⟩
/-- An open FENCE.SC without a tick, behind a local store or none, and one whose margin ends at this tick, or at the next. -/
theorem wit_sc_fence : let s := at0 (fun c => { c with sc := some { seq := 3, scope := 5 } })
    ((s.ctx 0 0).sc = some { seq := 3, scope := 5 } ∧ s.accessesDone 0 0 3 = true) ∧
    (s.onCur (fun c => { c with stores := [{}] })).accessesDone 0 0 3 = false ∧
    (let t := { at0 (fun c => { c with sc := some { tick := some 2, scope := 5 } }) with hbt := 7 }
     (t.ctx 0 0).sc = some { tick := some 2, scope := 5 } ∧ 2 + scMargin 5 ≤ t.hbt ∧ ({ t with hbt := 6 } : State).hbt < 2 + scMargin 5) :=
  ⟨⟨rfl, rfl⟩, rfl, rfl, by decide, by decide⟩
theorem wit_wait : (∃ t, let s := s0.modCore 0 (fun c => { c with mail := [7] })
      s.clear (.wait 3 0 0 0 0) ∧ ahDst 3 = true ∧ (s.core 0).mail ≠ [] ∧ Does (ahPush 3 1) s t ∧ t.readsOk) ∧
    (∃ t, let s := s0.modCore 0 (fun c => { c with chanW := [{}] })
      s.clear (.wait 57 0 15 0 1) ∧ (s.core 0).chanSet &&& ((15#6).toNat % 16) ≠ 0 ∧ Does (ahPush 57 8) s t ∧ t.readsOk) ∧
    (∃ t, s0.clear (.wait 3 0 63 0 4) ∧ Gives (ahPop 63) s0 0 s0 ∧ Does (ahPush 3 s0.tick) s0 t ∧ t.readsOk) ∧
    ∃ w s3 t, s0.clear (.wait 3 0 63 5 3) ∧ ahSrc 0 = true ∧ ahSrc 63 = true ∧ Gives (waitWord 0) s0 (.word w) s3 ∧ w = 0 ∧ Does (ahPush 3 w) s3 t ∧
      t.readsOk ∧ s0.clear (.wait 3 0 63 5 2) :=
  ⟨⟨_, clear0 rfl rfl, rfl, by decide, rfl, rfl, .inl rfl⟩, ⟨_, clear0 rfl rfl, by decide, rfl, rfl, .inl rfl⟩,
    ⟨_, clear0 rfl rfl, rfl, rfl, rfl, .inl rfl⟩, _, _, _, clear0 rfl rfl, rfl, rfl, rfl, rfl, rfl, ⟨rfl, .inl rfl⟩, clear0 rfl rfl⟩

/-! ### CSRs, traps, hints and loops -/

theorem wit_csr : (∃ t, s0.clear (.csrr 4 0x40) ∧ csrAssigned (0x40#12).toNat = true ∧ s0.ehDst false 4 = true ∧
      Does (gPush 4 (s0.csr s0.issue.view s0.issue.loops (0x40#12).toNat)) s0 t ∧ t.readsOk) ∧
    s0.clear (.csrw 63 1) ∧ csrAssigned (1#12).toNat = true ∧ s0.ehSrc false 63 = true ∧ Gives (gPop 63) s0 0 s0 ∧ csrBad (1#12).toNat 0 = false ∧
    s0.clear (.csrs 63 0xC4) ∧ s0.clear (.csrc 63 0xC8) ∧ csrBad 0xC8 0 = false ∧
    (∃ s1 v, let s := at0 (fun c => c.rsPut 8 8 0x448)
      s.clear (.csrw 1 0x61) ∧ Gives (gPop 1) s v s1 ∧ s1.readsOk ∧ csrBad 0x61 v = false) :=
  ⟨⟨_, clear0 rfl rfl, rfl, rfl, rfl, rfl, .inl rfl⟩, clear0 rfl rfl, rfl, rfl, rfl, rfl, clear0 rfl rfl, clear0 rfl rfl, rfl,
    _, _, clear0 rfl rfl, rfl, ⟨rfl, .inr (by decide)⟩, rfl⟩
theorem wit_trap : (s0.ctx 0 0).handled 17 (groupOf 17 false) = true ∧ (s0.ctx 0 0).handled 9 (groupOf 9 true) = true ∧
    badAtDecode s0.issue.himm (.cord 3 1 0 0) = true ∧ (encode (.cord 3 1 0 0)).isSome = true ∧ s0.cur.handled 1 0 = true ∧
    badAtDecode s0.issue.himm (.illegalInstruction 0) = true :=
  ⟨rfl, rfl, rfl, rfl, rfl, rfl⟩
set_option maxRecDepth 16384 in
theorem wit_system : s0.clear (.trap 5) ∧ s0.cur.handled 17 0 = true ∧ s0.clear (.dbrk 5) ∧ s0.cur.attached = false ∧ s0.cur.handled 16 0 = true ∧
    s0.clear .halt ∧ s0.inHandler = false ∧ s0.cur.unwritten.isEmpty = true ∧ (s0.retire 0 0).readsOk ∧
    s0.clear .eret ∧ bit s0.cur.tstatus 0 = false ∧ s0.cur.handled 1 0 = true ∧
    (let s := s0.onCur (fun c => { c with attached := true })
     s.clear (.dbrk 5) ∧ s.clear .halt ∧ s.cur.attached = true) ∧
    (let s := { (s0.modCtx 0 4 (fun c => { c with tvec := 2 ^ 56 })) with issue := { ctx := 4 } }
     s.clear .halt ∧ s.clear (.bar 3 63 0 0) ∧ s.inHandler = true ∧ s.cur.attached = false ∧ s.cur.handled 1 0 = true) :=
  ⟨clear0 rfl rfl, rfl, clear0 rfl rfl, rfl, rfl, clear0 rfl rfl, rfl, rfl, ⟨rfl, .inl rfl⟩, clear0 rfl rfl, rfl, rfl,
    ⟨clear0 rfl rfl, clear0 rfl rfl, rfl⟩, ⟨rfl, rfl, rfl, rfl, by decide, rfl⟩, ⟨rfl, rfl, rfl, rfl, by decide, rfl⟩, rfl, rfl, rfl⟩
theorem wit_return : ∃ h z, let s := s0.onCur (fun c => { c with tstatus := 1, shadow := some { trapped := some { instr := .trap 5, iss := {} } } })
    s.clear .eret ∧ bit s.cur.tstatus 0 = true ∧ s.cur.shadow = some h ∧ (s.onCur Ctx.leaveHandler).readsOk ∧ h.trapped = some z ∧
    bit s.cur.tstatus 1 = false ∧ halfIn z.iss.himm z.instr = .eh :=
  ⟨_, _, clear0 rfl rfl, rfl, rfl, ⟨rfl, .inl rfl⟩, rfl, rfl, rfl⟩
/-- A handler returns from a trap of the access half, from a fetch fault with SKIP clear, and with SKIP set. -/
theorem wit_return_fetch : (∃ z, let s := s0.onCur (fun c => { c with tstatus := 1, shadow := some { trapped := some { instr := .wstart 0, iss := {} } } })
      s.clear .eret ∧ (s.onCur Ctx.leaveHandler).readsOk ∧ (s.cur.shadow.getD {}).trapped = some z ∧ halfIn z.iss.himm z.instr = .ah) ∧
    (∀ t : W64, t = 1 ∨ t = 3 → let s := s0.onCur (fun c => { c with tstatus := t, shadow := some { pc := 8, hfirst := some 4, himm := [5] } })
      s.clear .eret ∧ bit s.cur.tstatus 0 = true ∧ (s.onCur Ctx.leaveHandler).readsOk ∧ (s.cur.shadow.getD {}).trapped = none ∧
        (s.cur.shadow.getD {}).loops.depth = 0 ∧ bit s.cur.tstatus 1 = decide (t = 3)) := by
  refine ⟨⟨_, clear0 rfl rfl, ⟨rfl, .inl rfl⟩, rfl, rfl⟩, ?_⟩
  rintro t (rfl | rfl) <;> exact ⟨clear0 rfl rfl, rfl, ⟨rfl, .inl rfl⟩, rfl, rfl, rfl⟩
theorem wit_hints : s0.clear (.himm 0x12) ∧ (s0.onCur (fun c => { c with himm := c.himm ++ [0x12] })).readsOk ∧ s0.clear (.hmod 0 0 0 0 1) ∧
    s0.clear .nop ∧ s0.clear (.hsched 0 0 0 0) ∧ s0.clear (.nopHint 3 5) :=
  ⟨clear0 rfl rfl, ⟨rfl, .inl rfl⟩, clear0 rfl rfl, clear0 rfl rfl, clear0 rfl rfl, clear0 rfl rfl⟩
set_option maxRecDepth 16384 in
theorem wit_loop : s0.clear (.loopi 0x400) ∧ s0.clear (.loop 1 255) ∧ xOnly 1 = true ∧ s0.clear (.loopw 0 7 255) ∧ (s0.imm (255#12)).toNat + 1 ≤ 256 ∧
    s0.cur.loops.depth = 0 ∧ Gives (hintAt (4 + w64 (4 * 255))) s0 false s0 ∧ Gives (hintAt 4) s0 false s0 ∧ s0.xval 1 = 0 ∧
    (let s := s0.onCur (fun c => { c with loops := c.loops.setDepth 3 })
     s.clear (.lbrk 3) ∧ (3#2).toNat ≤ s.cur.loops.depth) :=
  ⟨clear0 rfl rfl, clear0 rfl rfl, rfl, clear0 rfl rfl, by decide, rfl, rfl, rfl, rfl, clear0 rfl rfl, by decide⟩


/-! ### Steps of the device -/

/-- A walker of core 0, context 0. -/
def walkerState (y : Walker) : State := at0 (fun c => { c with active := true, walkers := [(0, y)] })
set_option maxRecDepth 16384 in
theorem wit_dev_walkers : (let s := walkerState { active := true, c0 := 4, c1 := 1, c2 := 1, esize := 3 }
      let y := tget (s.ctx 0 0).walkers 0 {}
      (s.ctx 0 0).active = true ∧ y.active = true ∧ y.store = false ∧ y.fetched < 8 ∧ y.index.toNat + y.fetched < y.count ∧
      s.locate 0 (y.addr 0) y.size = .tcm 0 ∧ (s.core 0).busy (.tcm 0) y.size = false ∧ s.heldOver 0 0 (.tcm 0) y.size = false) ∧
    ∃ u, let h : Held := { loc := .tcm 8, size := 16, data := 5, seq := 1 }; let p := h.split 0
      let s := walkerState { held := [h] }
      s.walkerHeld 0 0 0 = [h] ∧ s.afterDone 0 0 h.after = true ∧ p.1.loc = .tcm 8 ∧
      (s.modCtx 0 0 (fun x => { x with walkers := tmod x.walkers 0 {} (fun z => { z with held := p.2.toList }) })).lwriteAt 0 p.1.loc p.1.size
        (p.1.data.toNat % 2 ^ (8 * p.1.size)) (some p.1.seq) = .ok u :=
  by
  refine ⟨⟨?_, ?_, ?_, ?_, ?_, ?_, ?_, ?_⟩, _, ?_, ?_, ?_, rfl⟩
  · first | decide | rfl
  · first | decide | rfl
  · first | decide | rfl
  · decide
  · decide
  · first | decide | rfl
  · first | decide | rfl
  · first | decide | rfl
  · first | decide | rfl
  · first | decide | rfl
  · first | decide | rfl
/-- A request of page 1 that may be performed. -/
def reqState : State := (sg 2).modCore 0 (fun c => { c with gstores := [{ addr := 0x10000, size := 8 }] })
set_option maxRecDepth 65536 in
theorem req_free : reqState.requestsFree 0 = [{ addr := 0x10000, size := 8 }] := by rfl
set_option maxRecDepth 65536 in
theorem req_runs : ({ reqState with fresh := reqState.fresh + 1 }.performReq 0 { addr := 0x10000, size := 8 }).isSome = true := by rfl
theorem req_cross : reqState.cross (dieOf 0) 0 = some reqState := by rfl
set_option maxRecDepth 65536 in
theorem wit_dev_request : (∃ t, (reqState.requestsFree 0)[Config.performChoice reqState.fresh % (reqState.requestsFree 0).length]? = some { addr := 0x10000, size := 8 } ∧
      { reqState with fresh := reqState.fresh + 1 }.performReq 0 { addr := 0x10000, size := 8 } = some t) ∧
    ∃ f e, let u := reqState.modCore 0 (fun x => { x with gstores := x.gstores.flatMap (fun h => if h.id = 0 then [] else [h]) })
      reqState.xlate (reqState.tenantOf 0) 0x10000 .write = .ok f 2 e ∧ reqState.xlate (reqState.tenantOf 0) 0x10000 .read = .ok f 2 e ∧
      reqState.cross (dieOf 0) (homeDie f) = some reqState ∧
      ((u.lookup 0 (reqState.tenantOf 0) 0x10000 false).scrubLine f).poisonAt f = false := by
  obtain ⟨t, h⟩ := Option.isSome_iff_exists.mp req_runs
  refine ⟨⟨t, pick_one req_free _, h⟩, _, _, rfl, rfl, ?_, by rfl⟩
  exact req_cross
theorem wit_dev_network : ((s0.modCore 0 (fun c => { c with gstores := [{}] })).core 0).gstores = [{}] ∧
    ((s0.modCore 0 (fun c => { c with flight := [{}] })).core 0).flight.filter (fun d => d.seq == 0) ≠ [] ∧
    (∃ d, sd.domOf 0 = some d ∧ d.members.contains 0 = true) ∧ (sd.vf (sd.tenantOf 0)).locked = false ∧
    ((s0.onCur (fun c => { c with await := .debugger })).ctx 0 0).await = .debugger ∧
    ((s0.onCur (fun c => { c with await := .debugger })).ctx 0 0).active = true :=
  ⟨rfl, by decide, ⟨_, rfl, rfl⟩, rfl, rfl, rfl⟩
/-- The smallest state in which a word is fetched: AADDI x5, x0, 0x345 on a code page. -/
def placed : State := State.reset.withFetchWord 32 0x11140345
theorem wit_dev_fetch : ∃ t, (placed.core 0).turns 0 = true ∧ (placed.ctx 0 0).mayDeliver = true ∧ (placed.ctx 0 0).edge = none ∧
    placed.fetch 0 (placed.ctx 0 0).pc = .word 0x11140345#32 t ∧ isHint (instrOf 0x11140345#32) = false :=
  ⟨_, rfl, rfl, rfl, rfl, rfl⟩
/-- A context's next word is fetched, decoded and run by the next step. -/
theorem wit_step : let b := placed.beat
    b.sched.turns = [.context 0 0] ∧ (({ b with sched := { b.sched with turns := [] } } : State).core 0).turns 0 = true ∧
    (b.ctx 0 0).ah = [] ∧ (b.ctx 0 0).eh = [] ∧ (b.ctx 0 0).edge = none ∧ decode 0x11140345#32 = .ok (.aaddi 5 0 0x345) ∧
    isHint (.aaddi 5 0 0x345) = false :=
  ⟨rfl, rfl, rfl, rfl, rfl, rfl, rfl⟩
theorem wit_step_event : (let s := { State.reset with sched := { turns := [.event (.split 1)] } }
    s.beat.sched.turns = [.event (.split 1)]) ∧ isStep (.split 1) = true ∧ (Instr.split 1).wf = true := ⟨rfl, rfl, rfl⟩

/-- TECMD and its operands. -/
def teState (cmd addr val len : W64) (s : State) : State :=
  (((s.setPf 0x108000 cmd).setPf 0x108008 addr).setPf 0x108010 val).setPf 0x108018 len
theorem wit_dev_command : (teState (w64 (1 + 256 + 2 * 2 ^ 16)) 0x20000 0x14 0 sd).commandIs 1 ∧ (teState (w64 (2 + 256)) 0x10000 0 8 sd).commandIs 2 ∧
    (teState (w64 (3 + 256 + 2 ^ 16)) 0x10000 0 8 sd).commandIs 3 ∧ (teState (w64 (4 + 256)) 0x10000 0 8 sd).commandIs 4 ∧
    (teState (w64 (5 + 256)) 0x10000 0 8 sd).commandIs 5 ∧ (teState (w64 (6 + 2 ^ 18)) 0 0 0 sd).commandIs 6 :=
  by simp only [State.commandIs]; decide
/-- Tenant 1 with page 1 on tier 2, in a paddock with memory. -/
def lowPage : State := (sg 2).modVf 1 (fun t => { t with pages := [(1, pte 2 ||| 0x40#64)], tblen := 4 }) |>.modNode 1 (fun n => { n with pmem := 8 })
set_option maxRecDepth 16384 in
theorem wit_dev_pages : (∃ f e, (sg 2).xlate ((sg 2).tenantOf 0) (w64 (1 * 65536)) .read = .ok f 2 e) ∧
    (∃ e f u, tfind (lowPage.vf 1).pages 1 = some e ∧ pteV e = true ∧ pteTier e ≠ 0 ∧ lowPage.backingGone 1 e = false ∧
      lowPage.frameFor (lowPage.vf 1).node (if pteClass e = 3 then some (ptePch e) else none) = some (f, u)) ∧
    tfind (State.reset.modPlat (fun p => { p with frames := [(3, {})] })).plat.frames 3 = some {} :=
  ⟨⟨_, _, rfl⟩, ⟨_, _, _, rfl, rfl, by decide, rfl, rfl⟩, rfl⟩
/-- A page whose backing store has no room for it any more: it is lost or not. -/
theorem wit_dev_lost : ∃ e, let s := lowPage.modVf 1 (fun t => { t with tblen := 1 })
    tfind (s.vf 1).pages 1 = some e ∧ pteV e = true ∧ pteTier e ≠ 0 ∧ s.backingGone 1 e = true ∧
      (Config.pageLost 1 1 = false ∨ Config.pageLost 1 1 = true) :=
  ⟨_, rfl, rfl, by decide, rfl, by cases Config.pageLost 1 1 <;> simp⟩
theorem wit_dev_setpte : ∃ t, let s := teState (w64 (1 + 256 + 2 * 2 ^ 16)) 0x20000 0x15 0 (sg 2)
    (s.performIssued s.teVf).addTables s.teVf 2 s.teAddr = some t ∧ (tfind (s.vf s.teVf).bigs (s.teAddr / 2 ^ 29)).any pteV = false ∧ s.teLevel = 2 ∧
    pteBad 2 s.teVal = false ∧ pteV s.teVal = true ∧ tfind (s.vf s.teVf).pages (s.teAddr / 2 ^ 16) = none ∧
    (s.vf s.teVf).locked = false ∧ pteKey s.teVal = (s.vf s.teVf).keyid ∧ pteKey s.teVal = 0 ∧ pteClass s.teVal = 2 := by
  refine ⟨_, rfl, ?_, ?_, ?_, ?_, ?_, ?_, ?_, ?_, ?_⟩ <;> first | decide | rfl
set_option maxRecDepth 16384 in
theorem wit_dev_transfers : (∃ e u, let s := teState (w64 (2 + 256)) 0x10000 0 8 lowPage
      (s.vf s.teVf).runs = false ∧ s.tePages = [1] ∧ tfind (s.vf s.teVf).pages 1 = some e ∧ pteV e = true ∧ pteTier e ≠ 0 ∧
      s.bringUp s.teVf 1 = some u) ∧
    (∃ u f, let s := teState (w64 (4 + 256)) 0x10000 0 8 (sg 2)
      s.teAddr % 8 = 0 ∧ s.teLen = 8 ∧ (s.vf s.teVf).locked = false ∧ (s.vf s.teVf).runs = false ∧ s.hostWord .write s.teVf s.teAddr = (u, f, 0)) ∧
    (∃ u f, let s := teState (w64 (5 + 256)) 0x10000 0 8 (sg 2)
      (s.vf s.teVf).locked = false ∧ s.hostWord .read s.teVf s.teAddr = (u, f, 0)) ∧
    (let s := teState (w64 (3 + 256 + 2 ^ 16)) 0x10000 0 8 sd
     (s.vf s.teVf).runs = false ∧ s.teLevel = 1) ∧
    let s := teState (w64 (6 + 2 ^ 18)) 0 0 0 sd
    s.teNode ≠ 0 ∧ s.teVal.toNat ≤ s.freeOf s.teNode :=
  ⟨⟨_, _, rfl, rfl, rfl, rfl, by decide, rfl⟩, ⟨_, _, rfl, rfl, rfl, rfl, rfl⟩, ⟨_, _, rfl, rfl⟩, ⟨rfl, rfl⟩, by decide, by decide⟩

/-- Engine 0 with a load of an empty tile at the head of class 0. -/
def loadState : State := State.reset.modTeam 0 (fun t => { t with queue := [{ load := true, stv := [0, 0, 0, 0] }] })
/-- Engine 0 with job 0 drained to no target, with these rows left. -/
def drainState (left : List Nat) : State :=
  let j : Job := { words := [w64 (2 ^ 18 + 2 ^ 26 + 2 ^ 36 + 2 ^ 46), w64 (63 * 2 ^ 8), 0, 0], dtv := [4096, w64 (1 + 2 ^ 10), 0, 0], left := left }
  State.reset.modTeam 0 (fun t => { t with jobs := [j] })
set_option maxRecDepth 16384 in
theorem wit_dev_matrix : (∃ u j, let t := loadState.modTeam 0 (fun x => { x with served := 0, deficit := tmod x.deficit 0 0 (fun d => d + 64 * 8) })
      ((List.range 9).map (fun i => ((loadState.team 0).served + 1 + i) % 9)).find? (fun c => match (loadState.team 0).head c with
        | some j => loadState.canStart 0 j
        | none => false) = some 0 ∧ (loadState.team 0).head 0 = some j ∧ loadState.weight 0 j = 8 ∧ t.jobReady 0 j = true ∧
      j.cost ≤ tget (t.team 0).deficit 0 0 ∧ t.startJob 0 j = .ok u) ∧
    (∃ j u, let s := drainState [0]; let vals := fun n => (tget ((s.team 0).bufferOf j.group) (0 * 128 + n) 0).toNat
      s.nextRow 0 = some (j, 0) ∧ j.dring = false ∧ j.handlerOf 0 = none ∧ s.finishRow (j.actor 0) 0 j 0 0 (fun _ => true) vals = .ok u) ∧
    (∃ j, let s := drainState []
      (s.team 0).jobs.find? (fun j => j.finished && (!s.leads 0 || (s.team 0).chainRows.isEmpty)) = some j) ∧
    (let s := (State.reset.modCluster 0 (fun k => { k with chain := 2 })).modTeam 0 (fun t => { t with chainRows := [{}] })
     (s.team 0).chainRows = [{}] ∧ 2 ≤ (s.cluster 0).chain ∧
      ((List.range (s.cluster 0).chain).drop 1).all (fun i => decide ((s.team (0 * 16 + i)).chainRows.length < 128)) = true) ∧
    ∃ rows u, let s := State.reset.modCluster 0 (fun k => { k with streams := [(5, {})] })
      tfind (s.cluster 0).streams 5 = some {} ∧
      ((List.range (View.rows [])).mapM (fun r => readRow { core := 0, cluster := 0 } [] [] r (View.cols []))).run s = .ok (rows, u) :=
  ⟨⟨_, _, rfl, rfl, rfl, rfl, by decide, rfl⟩, ⟨_, _, rfl, rfl, rfl, rfl⟩, ⟨_, rfl⟩, ⟨rfl, by decide, rfl⟩, _, _, rfl, rfl⟩
theorem wit_dev_handler : ∃ j, let k : Job := { words := [w64 (2 ^ 18 + 2 ^ 26 + 2 ^ 36 + 2 ^ 46), 1, 0, 0], left := [0] }
    let s := State.reset.modTeam 0 (fun t => { t with jobs := [k] })
    s.nextRow 0 = some (j, 0) ∧ j.dring = false ∧ j.handlerOf 0 = some 0 := ⟨_, rfl, rfl, rfl⟩

/-- Core 0 with this copy queued. -/
def queued (k : Copy) : State := s0.modCore 0 (fun c => { c with copies := [k] })
set_option maxRecDepth 16384 in
theorem wit_dev_copies : (∃ t, (queued {}).runCopy 0 0 = some ({}, .done t)) ∧ (queued {}).copyTurn 0 {} = true ∧
    (∃ t, (queued { kind := .sweep 0 0 }).runCopy 0 0 = some ({ kind := .sweep 0 0 }, .done t)) ∧
    ((queued { reusable := true }).core 0).copyOf 0 = some { reusable := true } ∧ (queued { reusable := true }).copyLanded 0 { reusable := true } = true ∧
    ∃ j f a u, let k : Copy := { src := w64 (2 ^ 63), len := 8, rows := 1 }
      (queued k).runCopy 0 0 = some (k, .fault j f a u) :=
  ⟨⟨_, rfl⟩, rfl, ⟨_, rfl⟩, rfl, rfl, _, _, _, _, rfl⟩
/-- A sweep whose deltas are on their way; a copy whose fault aborts the attempt, and one whose launch ignores its group; an element
skipped by its predicate; a result of a near-bank command to be written; a COLL_TIMEOUT stands below. -/
theorem wit_dev_copies_more : (let k : Copy := { kind := .sweep 0 0, rows := 1 }
      (queued k).copyLanded 0 k = true ∧ k.row < k.rows) ∧
    (let k : Copy := { src := w64 (2 ^ 63), len := 8, rows := 1 }
     ((queued k).faultRows 0 k ((queued k).deltaLines 0 k) false 0 1).2 = none ∧
      let s := ((queued k).modCore 0 (fun c => { c with domain := some 1 })).modDomain 1 (fun m => { m with ppol := 0, live := true, members := [0] })
     (s.faultRows 0 k (s.deltaLines 0 k) false 0 1).2 = some (1, false)) := by
  refine ⟨⟨rfl, by decide⟩, ?_, ?_⟩ <;> rfl
set_option maxRecDepth 16384 in
theorem wit_dev_bank_write : ∃ b u, let s := s0.modCore 0 (fun c => { c with banks := [{ w1 := 2, w3 := 512, out := [5] }] })
    (s.core 0).banks.find? (fun x => x.id == 0 && !x.out.isEmpty) = some b ∧
    (s.modCore 0 (fun x => { x with banks := x.banks.map (fun y => if y.id == 0 then { y with out := y.out.drop 1 } else y) })).writeResults
      { core := 0, cluster := 0 } b [(b.out.headD 0, b.nvec * b.m / 2 - b.out.length)] = .ok u := ⟨_, _, rfl, rfl⟩
/-- Team 0 with a chain of one element, of a line of page 0x10000 of tenant 1 into stage window 1, started or not. -/
def theElem (started : Bool) : Elem := { addr := 0x20000, words := [w64 (2 ^ 63), 0, w64 (2 ^ 27 + 2 ^ 51 + 2 ^ 63), 0], started := started, last := true }
def theChain (started : Bool) : Chain := { core := 0, vf := 1, elems := [theElem started] }
def chainState (started : Bool) : State :=
  ((sg 2).modTeam 0 (fun t => { t with chains := [theChain started] })).modCluster 0 (fun k =>
    { k with wins := [(1, { w0 := w64 (2 ^ 20 + 2 ^ 25), w1 := 0 })] })
set_option maxRecDepth 16384 in
theorem wit_dev_chain : ((chainState false).team 0).nextElem = some (theChain false, theElem false) ∧ ((chainState false).team 0).lastWasElem = false ∧
    (chainState false).elemCheck (theChain false) (theElem false) = .copy ∧ ((chainState true).team 0).running = some (theChain true, theElem true) ∧
    (chainState true).elemCheck (theChain true) (theElem true) = .copy ∧ (theElem true).next = 0 :=
  ⟨rfl, rfl, rfl, rfl, rfl, rfl⟩
theorem of_ok {x : Except ε α} (h : (match x with | .ok _ => true | .error _ => false) = true) : ∃ y, x = .ok y := by
  cases x with
  | ok y => exact ⟨y, rfl⟩
  | error _ => cases h
set_option maxRecDepth 16384 in
theorem wit_dev_banks : (∃ y, (runBank 0 { w0 := 0x10000, w1 := 2, w3 := 512 }).run (sg 3) = .ok y) ∧
    (((sg 3).modCore 0 (fun c => { c with banks := [{ w0 := 0x10000, w1 := 2, w3 := 512 }] })).core 0).bankOf 0 = some { w0 := 0x10000, w1 := 2, w3 := 512 } ∧
    ∃ k a, (runBank 0 { w0 := 0x10000, w1 := 2 }).run sd = .error (.fault k a) :=
  ⟨of_ok (by decide), rfl, _, _, rfl⟩
/-- Die 0 with an operation of domain 1, on the page 0x10000. -/
def ringing (devs : List Nat) (started : Bool) : State :=
  let o : Coll := { vf := 1, dom := 1, words := [0, 0x10000, 1, 0x10008, 0, 0, 0, 0], started := started, own := [0] }
  ((sg 2).modDomain 1 (fun m => { m with devices := devs })).modDie 0 (fun x => { x with colls := [(0, o)] })
set_option maxRecDepth 16384 in
theorem wit_dev_collectives : (∃ o l t u, let s := ringing [] false
      s.coll 0 0 = some o ∧ o.started = false ∧ s.yielded o.dom = false ∧ s.vread o.core o.vf (o.w 3) 8 = .ok (0, t) ∧ (o.w 4).toNat ≤ 0 ∧
      t.readBucket o = .ok (l, u)) ∧
    (∃ o, let s := ringing [] true
      s.coll 0 0 = some o ∧ o.started = true ∧ s.yielded o.dom = false ∧ s.participants o.dom = [s.plat.devNo.toNat] ∧
      s.collWaits o ((o.results [o.own] 0).map (fun e => o.w 1 + w64 (o.size * e.1)) ++ (if o.w 5 = 0#64 then [] else [o.w 5])) = []) ∧
    ∃ o, let s := ringing [0, 1] true
      s.coll 0 0 = some o ∧ o.started = true ∧ s.collLimit o ≤ o.ticks ∧ (s.participants o.dom).filter (fun p => !s.hasPosted o p) ≠ [] :=
  ⟨⟨_, _, _, _, rfl, rfl, rfl, rfl, by decide, rfl⟩, ⟨_, rfl, rfl, rfl, rfl, rfl⟩, _, rfl, rfl, by decide, by decide⟩

/-- Domain 1 and core 0, its one member, changed. -/
def dom1 (f : Core → Core) (g : Domain → Domain) : State := (sd.modCore 0 f).modDomain 1 g
set_option maxRecDepth 16384 in
theorem wit_dev_arrivals : (∃ m, let s := dom1 (fun c => { c with phase := .drain }) id
      (s.core 0).domain = some 1 ∧ s.domOf 0 = some m ∧ (s.core 0).phase = .drain ∧ (s.core 0).slot = 0 ∧ (s.core 0).early = none ∧
      s.drained 0 = true ∧ (s.core 0).chanSet = 0) ∧
    (let s := dom1 id (fun m => { m with inbox := [{}] })
     (s.domain 1).live = true ∧ (s.domain 1).inbox = [{}]) ∧
    (∃ t, let s := dom1 id (fun m => { m with insts := [{ slot := 1, inbox := [{}] }] })
      (s.domain 1).inbox = [] ∧ s.advanceInsts 1 = some t) ∧
    (let s := dom1 id (fun m => { m with root := some {}, pollAt := some 0, polling := [.cluster 0] })
     (s.domain 1).root = some {} ∧ (s.domain 1).decision = none ∧ (s.domain 1).pollAt = some 0 ∧ 0 ≤ s.hbt ∧
      (s.domain 1).polling.contains (.cluster 0) = true ∧ ∀ c, Party.cluster 0 ≠ .core c) ∧
    (let s := dom1 id (fun m => { m with polling := [.core 0], arrivals := [(0, {})] })
     (s.domain 1).polling.contains (.core 0) = true ∧ tfind (s.domain 1).arrivals 0 = some {}) ∧
    (let s := dom1 (fun c => { c with early := some (1, 0) }) id
     (s.core 0).early = some (1, 0) ∧ (s.core 0).domain = some 1 ∧ (s.domain 1).live = true ∧ (s.domain 1).decision = none ∧ (s.core 0).voted = false ∧ (s.core 0).phase = .run ∧
      ((s.modCore 0 (fun c => { c with phase := .arrived })).core 0).phase = .arrived) ∧
    let s := dom1 id (fun m => { m with wdRun := true })
    (s.domain 1).live = true ∧ (s.domain 1).decision = none ∧ (s.domain 1).wdRun = true ∧ (s.domain 1).wdBudget ≤ (s.domain 1).wdCount ∧ s.parentDev 1 = none :=
  ⟨⟨_, rfl, rfl, rfl, rfl, rfl, rfl, rfl⟩, ⟨rfl, rfl⟩, ⟨_, rfl, rfl⟩, ⟨rfl, rfl, rfl, Nat.le_refl 0, rfl, fun _ h => by cases h⟩, ⟨rfl, rfl⟩,
    ⟨rfl, rfl, rfl, rfl, rfl, rfl, rfl⟩, rfl, rfl, rfl, Nat.le_refl 0, rfl⟩
/-- Domain 1 with a decision carried out by these parties. -/
def deciding (p : Phase) (dec : Nat) (done : List Party) : State :=
  dom1 (fun c => { c with phase := p }) (fun m => { m with decision := some { dec := dec }, done := done })
set_option maxRecDepth 16384 in
theorem wit_dev_decisions : (∀ dec, ((deciding .arrived dec []).domain 1).decision = some { dec := dec }) ∧
    (let s := deciding .arrived 1 []; let m := s.domain 1
     m.done.contains (.core 0) = false ∧ m.parties.contains (.core 0) = true ∧ (s.core 0).phase = .arrived ∧ m.done.contains (.cluster 0) = false ∧
      m.parties.contains (.cluster 0) = true ∧ m.done.contains (.die 0) = false ∧ m.parties.contains (.die 0) = true ∧ s.deltaWaits 0 m.vf = []) ∧
    (let s := deciding .arrived 2 [.core 0]; let m := s.domain 1
     (s.core 0).takesAbort = true ∧ ((deciding .arrived 2 []).domain 1).done.contains (.core 0) = false ∧ m.parties.contains (.cluster 0) = true ∧
      m.parties.contains (.die 0) = true ∧ ∀ c ∈ m.members, .core c ∈ m.done) ∧
    (let s := deciding .arrived 1 [.core 0, .cluster 0, .die 0, .die 1, .die 2, .die 3]; let m := s.domain 1
     (∀ p ∈ m.parties, p ∈ m.done) ∧ s.awaitsDevices 1 = false) ∧
    (let s := dom1 (fun c => { c with phase := .commit }) id
     (s.core 0).domain = some 1 ∧ (s.domain 1).live = true ∧ (s.domain 1).decision = none ∧ (s.core 0).phase = .commit) ∧
    let x : PhaseInst := { slot := 1, decision := some {}, left := [0] }
    let s := dom1 (fun c => { c with phase := .arrived, slot := 1 }) (fun m => { m with insts := [x] })
    (s.core 0).domain = some 1 ∧ (s.domain 1).live = true ∧ (s.core 0).phase = .arrived ∧ (s.core 0).slot = 1 ∧
      (s.domain 1).insts.find? (fun x => x.slot == 1 && x.decision.isSome && x.left.contains 0) = some x ∧ x.decision = some {} :=
  ⟨fun _ => rfl, ⟨rfl, rfl, rfl, rfl, rfl, rfl, rfl, rfl⟩, ⟨rfl, rfl, rfl, rfl, by decide⟩, ⟨by decide, rfl⟩, ⟨rfl, rfl, rfl, rfl⟩,
    rfl, rfl, rfl, rfl, rfl, rfl⟩

/-- A context that waits at slot 0, an undo log of one line, and deltas of another tenant. -/
theorem wit_dev_contents : (let s := at0 (fun c => { c with await := .bar 0 1 2 3 }); 0 < 4 ∧ (s.ctx 0 0).await = .bar 0 1 2 3) ∧
    (let c : Core := { undo := [(63, 5)] }; tsorted c.tcm = true ∧ (c.undo.map (fun l => l.1)).Nodup ∧ (63, 5) ∈ c.undo) ∧
    (∃ y, y ∈ (((State.reset.modDie 0 (fun x => { x with deltas := [{ target := .page 2 0 }] })).commitDie 1 0).die 0).deltas ∧ y.target = .page 2 0) ∧
    ((let x : Decision := { dec := 2, acause := 9 }; x.acause = 9) ∧ let x : Decision := { dec := 2, acause := 8, esc := false }; x.acause ≠ 9 ∧ x.esc = false) :=
  ⟨⟨by decide, rfl⟩, ⟨rfl, by decide, .head _⟩, ⟨_, .head _, rfl⟩, rfl, by decide, rfl⟩

/-- Tenant 1 on the running node 1 with these records. -/
def withRecs (l : List Rec) : State := (sd.modVf 1 (fun t => { t with records := l })).modNode 1 (fun n => { n with state := .active })
theorem wit_dev_launch : ((sd.vf 1).node ≠ 0 ∧ bf (0 : W64) 8 56 = 0) ∧
    (∃ r d, let s := withRecs [{ lid := 5, state := .running, domain := some 1 }]
      (s.vf 1).node ≠ 0 ∧ (s.vf 1).exported = none ∧ (s.vf 1).unretired (bf (5 : W64) 0 16) = some r ∧ r.state = .running ∧ r.domain = some d) ∧
    (∃ r, let s := withRecs [{ lid := 5, state := .ready }]
      (s.vf 1).unretired (bf (5 : W64) 0 16) = some r ∧ r.state = .ready ∧ r.domain = none) ∧
    (∃ v r, let s := withRecs [{ lid := 5, state := .ready }]
      (s.node 1).state = .active ∧ (s.node 1).running = none ∧ s.nodeBusy 1 = false ∧ s.plat.warm = false ∧
      s.bestOf (s.candidates 1) = some (v, r) ∧ (s.vf v).replayFor r (s.vf v).records.length = none) ∧
    (∃ v r, let s := withRecs [{ lid := 5, state := .gating }]
      s.gating 1 = some (v, r) ∧ s.plat.warm = false ∧ s.gateOpen v r = true) ∧
    let s := (sd.modNode 1 (fun n => { n with pmem := w64 (2 ^ 16) })).modPlat (fun p => { p with shadows := [] })
    (s.node 1).running = none ∧ s.freeOf 1 < bf (s.node 1).pmem 16 15 * 1024 := by
  refine ⟨⟨by decide, rfl⟩, ⟨_, _, by decide, rfl, rfl, rfl, rfl⟩, ⟨_, rfl, rfl, rfl⟩, ⟨_, _, rfl, rfl, rfl, rfl, rfl, rfl⟩, ⟨_, _, rfl, rfl, rfl⟩, rfl, by decide⟩
/-- A saved launch with an absent core; a record whose dropped input its producer computes again. -/
theorem wit_dev_select : (∃ v r, let s := (withRecs [{ lid := 5, state := .yielded, domain := some 1 }]).modSpeed false 0 (fun x => { x with absent := true })
      s.bestOf (s.candidates 1) = some (v, r) ∧ r.domain = some 1 ∧ (s.domain 1).members.any s.coreAbsent = true) ∧
    ∃ v r p, let s := withRecs [{ lid := 5, state := .ended, order := 1 }, { lid := 6, words := [0, 0, 0, 0, 0, 0, 0, 0, 0, 5], state := .ready, order := 2, dropped := true }]
      s.bestOf (s.candidates 1) = some (v, r) ∧ r.domain = none ∧ (s.vf v).replayFor r (s.vf v).records.length = some p :=
  ⟨⟨_, _, rfl, rfl, rfl⟩, _, _, _, rfl, rfl, rfl⟩
/-- Registers of a bound VF, of one that is not bound, and of the PF. -/
theorem wit_dev_registers : (0 < 1 ∧ 1 ≤ Config.vfs ∧ (sd.vf 1).node ≠ 0 ∧ sd.plat.warm = false ∧ sd.plat.safe = false) ∧
    (State.reset.vf 2).node = 0 ∧ (0x7000#64 &&& 0xFFF#64 = 0) := by
  refine ⟨?_, rfl, ?_⟩ <;> decide
theorem wit_dev_admission : (∃ t v r, let s := withRecs [{ lid := 5, state := .gating, domain := some 1 }]
      s.gating 1 = some (v, r) ∧ s.plat.warm = false ∧ s.gateOpen v r = true ∧ s.admission 1 v r = .ok t) ∧
    (withRecs [{ lid := 5, state := .ended }, { lid := 6, words := [0, 0, 0, 0, 0, 0, 0, 0, 0, 5], state := .ready }]).droppable 1 ≠ [] :=
  ⟨⟨_, _, _, rfl, rfl, rfl, rfl⟩, by decide⟩
theorem wit_dev_tree : (let s := State.reset; (0 < 1 ∧ 1 < 64 ∧ (s.node 1).state = .idle)) ∧
    (let s := ((State.reset.modNode 1 (fun n => { n with state := .split })).modNode 2 (fun n => { n with state := .idle })).modNode 3 (fun n => { n with state := .idle })
     (s.node 1).state = .split ∧ (s.node 2).state = .idle ∧ (s.node 3).state = .idle ∧ (s.node 2).scrub = false ∧ (s.node 3).scrub = false) ∧
    (let s := State.reset.modNode 1 (fun n => { n with state := .held })
     (s.node 1).state = .held ∧ s.nodeLocked 1 = false) ∧
    (bf (0 : W64) 48 16 = 0 ∧ sd.nodeLocked 1 = false) ∧
    (bf (5 : W64) 5 3 = 0 ∧ bf (5 : W64) 40 24 = 0 ∧ bf (5 : W64) 0 4 ≠ 0) ∧
    (let x := w64 (2 ^ 33 + 3 + 2 ^ 16)
     bit x 15 = false ∧ bit x 31 = false ∧ bf x 47 17 = 0 ∧ bf x 16 15 ≤ bf x 32 15 ∧ bf x 32 15 ≤ bf x 0 15) ∧
    (State.reset.node 1).state ≠ .active := by
  refine ⟨?_, ?_, ?_, ?_, ?_, ?_, ?_⟩ <;> decide
theorem wit_dev_bind : (let n := bf (1 : W64) 0 7
      0 < 1 ∧ 1 ≤ Config.vfs ∧ bit (1 : W64) 7 = false ∧ bf (1 : W64) 11 53 = 0 ∧ n ≠ (State.reset.vf 1).node ∧ (State.reset.vf 1).locked = false ∧
      (State.reset.vf 1).records = [] ∧ (State.reset.vf 1).node = 0 ∧ (State.reset.node n).state = .idle) ∧
    0 ≠ (sd.vf 1).node ∧ (sd.vf 1).locked = false ∧ (sd.vf 1).records = [] := by
  refine ⟨?_, ?_, ?_, ?_⟩ <;> decide

/-- MGARG names tenant 1. -/
def migState (f : Vf → Vf) : State := (sd.setPf 0x200008 1).modVf 1 f
set_option maxRecDepth 16384 in
theorem wit_dev_yield : (let s := (dom1 (fun c => { c with phase := .yielded }) id).modVf 1 (fun t => { t with records := [{ state := .saving, domain := some 1 }] })
      (s.core 0).domain = some 1 ∧ (s.core 0).phase = .yielded ∧ (s.domain 1).saved.contains 0 = false ∧ s.recIs 1 .saving = true) ∧
    (withRecs [{ state := .copying, domain := some 1 }]).recIs 1 .copying = true ∧
    (∃ a r, let s := (withRecs [{ state := .restoring, domain := some 1 }]).modVf 1 (fun t => { t with areas := [{ domain := 1 }] })
      (s.vf (s.domain 1).vf).areas.find? (fun a => a.domain == 1) = some a ∧
      (s.vf (s.domain 1).vf).records.find? (fun r => r.domain == some 1 && r.state == .restoring) = some r) ∧
    (let s := migState id
     0 < s.mgVf ∧ s.mgVf ≤ Config.vfs ∧ (s.vf s.mgVf).node ≠ 0 ∧ (s.vf s.mgVf).locked = false ∧ (s.vf s.mgVf).records.any Rec.busy = false ∧
      (s.vf s.mgVf).exported = none) ∧
    (∃ x t, let s := (migState id).modPlat (fun p => { p with foreign := [{ ticket := [0, 0, 0, 0] }] })
      0 < s.mgVf ∧ s.mgVf ≤ Config.vfs ∧ (s.vf s.mgVf).locked = false ∧ (s.modPlat (fun p => { p with imported := 0 })).importCheck s.mgVf = .ok (x, t)) ∧
    (let s := migState (fun t => { t with exported := some { dev := 3 } })
     (s.vf 1).exported = some { dev := 3 } ∧ 3 ≠ s.plat.devNo.toNat ∧ (s.vf s.mgVf).exported = some { dev := 3 }) :=
  ⟨⟨rfl, rfl, rfl, rfl⟩, rfl, ⟨_, _, rfl, rfl⟩, ⟨by decide, by decide, by decide, rfl, rfl, rfl⟩, ⟨_, _, by decide, by decide, rfl, rfl⟩, rfl, by decide, rfl⟩
theorem wit_dev_reset : (State.reset.plat.safe = false ∧ State.reset.plat.warm = false) ∧
    (let x := w64 (2 + 1 * 2 ^ 4)
     bf x 0 4 = 2 ∧ bf x 11 53 = 0 ∧ (State.reset.node (bf x 4 7)).state = .idle) ∧
    (let s := (sd.setPf 0x200200 1).modNode 1 (fun n => { n with running := some 1 })
     bf (5 : W64) 40 24 = 0 ∧ (s.node (bf (s.pf 0x200200) 0 7)).running = some 1 ∧ (s.domain 1).wdBudget ≤ bf (5 : W64) 0 40) ∧
    (State.reset.modPlat (fun p => { p with warm := true })).plat.warm = true :=
  ⟨⟨rfl, rfl⟩, by decide, by decide, rfl⟩
/-- A membership list of this device alone in host memory. -/
def listed : State := ((State.reset.setPf 0x308000 7).setPf 0x308008 8).setPf 0x308010 1
theorem wit_dev_members : let job := bf (listed.pf 0x308000) 0 32; let count := bf (listed.pf 0x308010) 0 13
    let l := (List.range count).map (fun i => listed.hostRead ((listed.pf 0x308008).toNat + 2 * i) 2)
    job ≠ 0 ∧ 0 < count ∧ count ≤ 4096 ∧ (listed.pf 0x308008).toNat % 8 = 0 ∧ (∀ d ∈ l, d < 4096) ∧ rising l = true ∧ listed.jobBusy job = false ∧
    l.contains listed.plat.devNo.toNat = true := by
  refine ⟨?_, ?_, ?_, ?_, ?_, ?_, ?_, ?_⟩ <;> decide
theorem wit_dev_power : (0 < Config.teams ∧ (State.reset.team 0).marginCount ≠ State.reset.engineLimit ∧ 0 < Config.cores) ∧
    (0 < Config.dies ∧ (State.reset.die 0).stretched = false ∧ ((State.reset.modDie 0 (fun x => { x with stretched := true })).die 0).stretched = true) ∧
    (let s := (State.reset.setPf 0x408010 5).modSpeed true 0 (fun x => { x with trend := [5] })
     (s.speedOf true 0).pending = false ∧ s.derateAt ≤ (s.speedOf true 0).mean ∧ s.derateAt = 5) ∧
    ((State.reset.modSpeed false 8191 (fun x => { x with pending := true })).speedOf false 8191).pending = true ∧
    ((State.reset.speedOf true 0).absent = false ∧ State.reset.nodeBusy (State.reset.paddockOf (unitCluster true 0)) = false ∧
      State.reset.unitAbsent true 0 = false ∧
      ((State.reset.modSpeed false 0 (fun x => { x with absent := true })).speedOf false 0).absent = true) ∧
    (let s := State.reset.setPf 0x420000 1
     (s.node (bf (s.pf 0x420000) 0 7)).paddock = true ∧ (s.node (bf (s.pf 0x420000) 0 7)).state = .idle ∧ bf (3 : W64) 3 61 = 0) ∧
    ((State.reset.modNode 1 (fun n => { n with powerNext := some 3 })).node 1).powerNext = some 3 ∧
    ∀ k, k < 16 → bit (1 : W64) k = true → State.reset.plat.lent.getLsbD k = false ∧
      State.reset.plat.frames.any (fun p => p.2.used && p.1 / 2 ^ 20 == k) = false :=
  ⟨by decide, by decide, by decide, rfl, by decide, by decide, rfl, fun _ _ _ => ⟨by simp [State.reset], rfl⟩⟩

/-- Edge 0 with a module in retraining and another whose flit has failed nine times. -/
def edged (f : Edge → Edge) : State := State.reset.modEdge 0 f
set_option maxRecDepth 16384 in
theorem wit_dev_edges : (let s := edged (fun x => { x with dir0 := { x.dir0 with txNext := 1 } })
      (s.edge 0).dead = false ∧ ((s.edge 0).dir 0).rxNext = 0 ∧ (0 : BitVec 8) ≠ ((s.edge 0).dir 0).txNext ∧ ((s.edge 0).dir 0).nak ≠ some 0 ∧
      (((s.edge 0).modDir 0 (fun z => { z with rxNext := 1, acked := 1, skipping := false, nak := none, buffer := z.buffer.filter (fun f => f.seq != 0) })).dir 0).worn = none) ∧
    (let s := edged (fun x => { x with dir0 := { x.dir0 with nak := some 1 } })
     ((s.edge 0).dir 0).nak = some 1 ∧ (s.edge 0).dead = false) ∧
    (let s := edged (fun x => { x with dir0 := { x.dir0 with buffer := [{ fails := 9 }] } })
     (s.edge 0).carries 0 = true ∧ ∃ f ∈ (s.edge 0).dir0.buffer ++ (s.edge 0).dir1.buffer, f.module = 0 ∧ 9 ≤ f.fails) ∧
    ((edged (fun x => { x with modules := [(0, { mstate := 3 })] })).edge 0).module 0 = { mstate := 3 } ∧
    (let s := edged (fun x => { x with modules := (List.range 8).map (fun m => (m, { mstate := 3 })) })
     (s.edge 0).down = false ∧ (s.edge 0).dead = true ∧ s.domains = []) :=
  ⟨⟨by decide, rfl, by decide, by decide, rfl⟩, ⟨rfl, by decide⟩, ⟨by decide, _, .head _, rfl, Nat.le_refl 9⟩, rfl, rfl, by decide, rfl⟩
/-- Port 0 in a state. -/
def ported (f : Port → Port) : State := State.reset.modPort 0 f
theorem wit_dev_ports : (let s := ported id
      (s.port 0).state = 2 ∧ (0 : W64).setWidth 12 = (s.port 0).rxNext) ∧
    (let s := ported (fun p => { p with fails := 9 })
     (s.port 0).state = 2 ∧ 9 ≤ (s.port 0).fails) ∧
    (let s := ported (fun p => { p with naks := 9 })
     (s.port 0).state = 2 ∧ 9 ≤ (s.port 0).naks) ∧
    (let s := ported (fun p => { p with state := 1, failedRetrains := 2 })
     (s.port 0).state = 1 ∧ (s.port 0).failedRetrains = 2) ∧
    (let s := ported (fun p => { p with state := 1 })
     (s.port 0).state = 1 ∧ (s.port 0).failedRetrains < 2) ∧
    State.reset.plat.syncSince = none ∧ State.reset.domains = [] ∧
    (let m := (dom1 id (fun m => { m with devices := [0, 1] })).domain 1
     m.live = true ∧ m.members ≠ [] ∧ m.devices.contains 1 = true ∧ m.absent.contains 1 = false ∧ m.decision = none ∧ m.away = false) ∧
    ((dom1 id (fun m => { m with devices := [0, 1], away := true })).domain 1).away = true ∧
    (let s := dom1 id (fun m => { m with devices := [0, 1], decision := some {} })
     (s.domain 1).decision.isSome = true ∧ (s.domain 1).shrinking = false ∧ s.parentDev 1 = none) ∧
    (let s := dom1 id (fun m => { m with devices := [0, 1, 2], absent := [2], decision := some { dec := 2, acause := 9 } })
     (s.domain 1).absent.contains 1 = false ∧ (s.domain 1).shrinking = true ∧ s.parentDev 1 = none) ∧
    let s := (dom1 id (fun m => { m with devices := [0, 1], held := true })).modPlat (fun p => { p with devNo := 1 })
    (s.domain 1).held = true ∧ (s.domain 1).away = false ∧ (s.domain 1).absent.contains 0 = false ∧ s.parentDev 1 = some 0 := by
  refine ⟨?_, ?_, ?_, ?_, ?_, ?_, ?_, ?_, ?_, ?_, ?_, ?_⟩ <;> decide

/-- A session of tenant 1, whose interface is in a state. -/
def session (t : Tdisp) (x : Spdm) : State := (sd.modVf 1 (fun v => { v with tdisp := t })).modPlat (fun p => { p with spdm := [(1, x)] })
theorem wit_dev_sessions : 1 ≤ Config.vfs ∧ ((session .unlocked { version := true }).spdm 1).version = true ∧
    ((session .unlocked { capable := true }).spdm 1).capable = true ∧
    (let s := session .unlocked { negotiated := true, keyed := true, pendingKeys := some 3 }
     (s.spdm 1).negotiated = true ∧ (s.spdm 1).keyed = true ∧ (s.spdm 1).pendingKeys = some 3 ∧ (∃ i l, s.measured i = some l) ∧
      ∃ mac, mac ≠ Config.finishMac 1 3) ∧
    (let s := State.reset.setPf 0x18 1
     s.plat.warm = false ∧ s.plat.writing = none ∧ 0 < bf (s.pf 0x18) 0 24 ∧ bf (s.pf 0x18) 0 24 ≤ 2 ^ 23) ∧
    (State.reset.modPlat (fun p => { p with writing := some {} })).plat.writing = some {} ∧
    (let s := session .locked { session := some 0 }
     (s.spdm 1).session.isSome = true ∧ (s.vf 1).node ≠ 0 ∧ (s.vf 1).tdisp = .locked ∧ (s.vf 1).records = []) ∧
    ((session .unlocked {}).vf 1).tdisp = .unlocked :=
  ⟨by decide, rfl, rfl, ⟨rfl, rfl, rfl, ⟨1, _, rfl⟩, Config.finishMac 1 3 + 1, Nat.succ_ne_self _⟩, by decide, rfl, ⟨rfl, by decide, rfl, rfl⟩, rfl⟩

/-! ### More hypotheses of words -/

set_option maxRecDepth 16384 in
theorem wit_row_write : ∃ row s1 t j, Gives (rsRead (16 * bf rowState.issue.view 8 7) 512) rowState row s1 ∧ s1.readsOk ∧
    (rowState.team 0).jobs.find? (fun j => j.key == 0) = some j ∧
    s1.finishRow { core := 0, cluster := 0 } 0 j 0 0 (fun n => (2 ^ 128 - 1).testBit n) (fun n => row >>> (32 * n) % 2 ^ 32) = .ok t ∧
    (t.endRow 0).readsOk :=
  ⟨_, _, _, _, rfl, ⟨rfl, .inr (by decide)⟩, rfl, rfl, ⟨rfl, .inr (by decide)⟩⟩
/-- A near-bank command of two rows of 128 columns on the BANKMAT page of tenant 1, with its results at TCM offset 512. -/
def bankState : State := (sg 3).onCur (fun c => (c.rsPut 0 16 (0x10000 + (2 + 2 ^ 17) * 2 ^ 64)).rsPut 16 16 (512 * 2 ^ 64))
set_option maxRecDepth 16384 in
theorem wit_bank_start : ∃ lo hi s1 s2 u p e, let b : Bank := { ctx := 0, w0 := w64 lo, w1 := w64 (lo >>> 64), w2 := w64 hi, w3 := w64 (hi >>> 64) }
    let s3 := s2.onCore (fun x => { x with bankNext := 1 })
    bankState.clear (.bgemv 3 0) ∧ Gives (rsRead (vAddr bankState.issue.view 0) 16) bankState lo s1 ∧ Gives (rsRead (vAddr bankState.issue.view 1) 16) s1 hi s2 ∧
    s2.readsOk ∧ b.bad = false ∧ b.scope < 6 ∧ b.region % 65536 = 0 ∧ sideGlobal b.w3 = false ∧ sideGlobal b.w2 = false ∧
    bankState.xlate (bankState.tenantOf 0) (w64 b.region) .read = .ok p 3 e ∧ Does (commandOrder (b.order != 0) b.scope) s2 s2 ∧
    ((s2.core 0).banks.filter (fun x => x.state != 3)).length < Config.bankInFlight ∧
    s3.reserveAll 0 false ((s3.sideLines 0 false (sideBase b.w3) 0 1 (4 * b.nvec * b.m)).map w64) = .ok u ∧ u.issue.core = 0 :=
  ⟨_, _, _, _, _, _, _, clear0 rfl rfl, rfl, rfl, ⟨rfl, .inr (by decide)⟩, by decide, by decide, by decide, rfl, rfl, rfl, rfl, by decide, rfl, rfl⟩

/-! ### Where operands are read from and written to -/

theorem wit_places : xOrZero 0 = true ∧ xOrZero 63 = true ∧ (0 < (31#6).toNat ∧ (31#6).toNat < 32 ∧ tsorted s0.cur.x = true) ∧ (1#6 ≠ 31#6) ∧
    (at0 (fun c => { c with xq := [{}], sq := [{}], lq := [{}] })).cur.xq = [{}] ∧ (s0.cur.xq = [] ∧ s0.cur.sq = [] ∧ s0.cur.lq = [] ∧ (s0.core 0).mail = []) ∧
    s0.cur.lq.length < 16 ∧ ¬ (at0 (fun c => { c with lq := List.replicate 16 {} })).cur.lq.length < 16 ∧
    ¬ (at0 (fun c => { c with xq := List.replicate 8 {} })).cur.xq.length < 8 ∧ (gOnly 0 = true ∧ gOnly 31 = true) ∧ s0.readsOk ∧ s0.issue.ign = [] ∧
    ((s0.modCore 0 (fun c => { c with chanW := [{}] })).core 0).chan 3 = [{}] ∧ (s0.core 0).chan 3 = [] ∧
    ¬ (at0 (fun c => { c with sq := List.replicate 16 {} })).cur.sq.length < 16 ∧ ((s0.modCore 0 (fun c => { c with mail := [1] })).core 0).mail = [1] :=
  ⟨rfl, rfl, by decide, by decide, rfl, by decide, by decide, by decide, by decide, by decide, ⟨rfl, .inl rfl⟩, rfl, rfl, rfl, by decide, rfl⟩
/-- Codes 58 and 61 with an entry in the channel and with none; their neighbours with room, with none, absent, and arrived. -/
theorem wit_channels : s0.pointPassed false ∧ (58 : Nat) + 3 = 61 ∧ s0.coreAbsent (neighbour 0 3) = false ∧ (s0.core (neighbour 0 3)).phase ≠ .restore ∧
    ((s0.core (neighbour 0 3)).chan 1).length < 8 ∧
    8 ≤ (((s0.modCore (neighbour 0 0) (fun c => { c with chanS := List.replicate 8 {} })).core (neighbour 0 0)).chan 2).length ∧
    (s0.modSpeed false (neighbour 0 2) (fun x => { x with absent := true })).coreAbsent (neighbour 0 2) = true ∧
    (let s := s0.modCore (neighbour 0 1) (fun c => { c with phase := .arrived })
     (s.core (neighbour 0 1)).phase = .arrived ∧ (s.core (neighbour 0 1)).slot = 0) := by
  refine ⟨rfl, rfl, ?_, ?_, ?_, ?_, ?_, ?_⟩ <;> decide
set_option maxRecDepth 65536 in
/-- Store walker 7 with room for an element. -/
def storeWalker : State := at0 (fun c => { c with active := true, walkers := [(7, { store := true, active := true, c0 := 1, c1 := 1, c2 := 1, esize := 4 })] })
theorem store_entry : storeWalker.takeEntry 0 (.tcm 0) = .ok (0, storeWalker.modCore 0 (fun co => co.logLine 0 0 false)) := rfl
set_option maxRecDepth 65536 in
/-- Walkers 0 and 7: a load walker with an element fetched, with none and at its end; a store walker with room, and full. -/
theorem wit_walker_codes : (let s := walkerState { active := true, c0 := 1, c1 := 1, c2 := 1, esize := 3, fetched := 1 }; let k := s.walker 0
      k.active = true ∧ k.index.toNat < k.count ∧ k.fetched ≠ 0 ∧ s.locate 0 (k.addr 0) k.size = .tcm 0 ∧ (s.core 0).busy (.tcm 0) 8 = false ∧
      s.ahAhead (.tcm 0) 8 false = false ∧ s.heldOver 0 0 (.tcm 0) 8 = false ∧ s.soundAt (.tcm 0) 0 8) ∧
    (let s := walkerState { active := true, c0 := 1, c1 := 1, c2 := 1, esize := 3, index := 1 }; (s.walker 0).count ≤ (s.walker 0).index.toNat) ∧
    (let s := walkerState { active := true, c0 := 1, c1 := 1, c2 := 1, esize := 3 }; (s.walker 0).fetched = 0) ∧
    (∃ q t, let s := storeWalker; let k := s.walker 7; let l := s.locate 0 (k.addr 0) k.size
      k.active = true ∧ k.index.toNat < k.count ∧ k.held.length < 8 ∧ l = .tcm 0 ∧ s.ahAhead (.tcm 0) 16 true = false ∧ s.takeEntry 0 (.tcm 0) = .ok (q, t) ∧
      t.issue = s.issue ∧ s.readsOk) ∧
    8 ≤ ((walkerState { store := true, active := true, held := List.replicate 8 {} }).walker 0).held.length := by
  refine ⟨⟨?_, ?_, ?_, ?_, ?_, ?_, ?_, ?_⟩, ?_, rfl, ?_, ?_⟩
  · rfl
  · decide
  · decide
  · decide
  · rfl
  · rfl
  · rfl
  · exact ⟨rfl, rfl⟩
  · decide
  · refine ⟨_, _, rfl, by decide, by decide, by decide, by rfl, store_entry, rfl, ⟨rfl, .inl rfl⟩⟩
  · decide
theorem wit_csr_written : csrAssigned 0x5F = true ∧ csrWritable.contains 0x5F = true ∧ csrWritable.contains 0x40 = false ∧ csrAssigned 0x40 = true ∧
    csrAssigned 0x24 = true ∧ tsorted s0.cur.dc = true := ⟨rfl, by decide, by decide, rfl, rfl, rfl⟩
theorem wit_points : (at0 (fun c => c.rsPut 8 8 65535)).pointPassed true ∧ (at0 (fun c => { c with lq := [] })).pointPassed true ∧ (sg 1).pointPassed false ∧
    sd.pointPassed false ∧ sfar.pointPassed false := ⟨rfl, rfl, rfl, rfl, rfl⟩
theorem wit_start : State.reset.plat.safe = false ∧ ((State.reset.modPlat (fun p => { p with warm := true })).plat.devNo.toNat = 0) ∧
    (State.reset.runStep [] 15).outcome = 1 ∧ (State.reset.runStep [15] 15).outcome ≠ 1 := by
  refine ⟨rfl, rfl, ?_, ?_⟩ <;> decide
set_option maxRecDepth 65536 in
theorem elem_pred : (chainState true).peek 0 1 0x10000 4 = .ok 0 := by rfl
/-- A conditional element whose predicate word, at 0x10000, holds its compare value. -/
def skipElem : Elem := { (theElem true) with words := [w64 (2 ^ 63 + 1), w64 (2 ^ 52), w64 (2 ^ 27 + 2 ^ 51 + 2 ^ 63), 0] }
theorem wit_elem_skipped : (chainState true).elemCheck (theChain true) skipElem = .skipped := by
  have h1 : skipElem.pred = 0x10000 := by decide
  have h2 : skipElem.skip = true := by decide
  have h3 : skipElem.cmp = 0 := by decide
  have h4 : skipElem.next = 0 := by decide
  have h5 : skipElem.reserved = false := by decide
  have h6 : skipElem.dwin = 1 := by decide
  have h7 : tget ((chainState true).cluster 0).wins 1 ({} : Win) = { w0 := w64 (2 ^ 20 + 2 ^ 25), w1 := 0 } := rfl
  have h8 : w64 0x10000 = 0x10000 := rfl
  have h9 : skipElem.words.isEmpty = false := rfl
  have c1 : (theChain true).core = 0 := rfl
  have c2 : (theChain true).vf = 1 := rfl
  have w1 : (tget ((chainState true).cluster 0).wins 1 ({} : Win)).lsize ≠ 0 := by rw [h7]; decide
  have w2 : (tget ((chainState true).cluster 0).wins 1 ({} : Win)).cls = 2 := by rw [h7]; decide
  simp only [State.elemCheck, h1, h2, h3, h4, h5, h6, h8, h9, c1, c2, clusterOf, elem_pred, Nat.zero_div, w2, if_true]
  simpa using w1
theorem wit_frame : (∃ p ∈ accessAlu, ∃ a b w, Instr.aadd 3 1 2 3 = p.1 3 a b w ∧ ahPlain a = true ∧ ahPlain b = true) ∧ s0.clear (.aadd 3 1 2 3) ∧
    (∃ p ∈ executeImm, ∃ a im, Instr.addi 3 1 7 = p.1 3 a im ∧ ehPlain a = true) ∧ s0.clear (.addi 3 1 7) ∧ s0.cur.marks = [] ∧ s0.cur.parityDue = false :=
  ⟨⟨_, .head _, _, _, _, rfl, rfl, rfl⟩, clear0 rfl rfl, ⟨_, .head _, _, _, rfl, rfl⟩, clear0 rfl rfl, rfl, by decide⟩
theorem wit_memory : Memory.wf State.reset.hbm ∧ tsorted State.reset.hbm = true ∧ step placed ≠ .fault .noSuchUnit := by
  refine ⟨by decide, rfl, fun h => by cases h⟩
/-- Words of the worked examples of R168-R185 and the memory chapter. -/
theorem test_decode_examples : reads 0x500F8143 (.add 3 56 5 3) = true ∧ reads 0x29E44012 (.ld 57 4 2 2) = true ∧
    reads 0x010C1E02 (.aadd 3 1 56 2) = true ∧ reads 0x2D144103 (.latm 5 4 1 3) = true ∧ reads 0x31006002 (.wcfg 6 2) = true ∧
    reads 0x9224A2D6 (.vfadd 9 10 11 2 1 2) = true ∧ reads 0x9D105182 (.vdot 4 5 6 0 2) = true := by
  refine ⟨?_, ?_, ?_, ?_, ?_, ?_, ?_⟩ <;> decide

/-! ### Single steps: the worked examples of the manual -/

/-- What an instruction leaves when it goes on. -/
def after (i : Instr) (s : State) (f : State → Bool) : Bool := match exec i s with | .next t => f t | _ => false
/-- 08 R180, the example: 0x7FFF_FFFF and 1 at 32 bits. -/
def sumState (q : W128) : State := at0 (fun c => { c.setX 1 0x7FFFFFFF with xq := [{ data := q }] })
theorem test_aadd_example : after (.aadd 3 1 56 2) (sumState 1) (fun t => (t.ctx 0 0).xreg 3 == 0xFFFFFFFF80000000#64 && (t.ctx 0 0).xq == []) = true := by
  decide
theorem test_amaxu_example : after (.amaxu 3 1 56 2) (sumState 1) (fun t => (t.ctx 0 0).xreg 3 == 0x7FFFFFFF#64) = true ∧
    after (.amaxu 3 1 56 2) (sumState 0x80000000) (fun t => (t.ctx 0 0).xreg 3 == 0xFFFFFFFF80000000#64) = true := by
  constructor <;> decide
/-- 07 R170, the example: HIMM 0x12 and 0x345 compose to 74,565. -/
theorem test_immediate_example : after (.aaddi 5 0 0x345) { s0 with issue := { himm := [0x12] } } (fun t => (t.ctx 0 0).xreg 5 == 74565#64) = true := by
  decide
/-- 09, the example of FCVT: 7.0 to e2m1 is 6, and sets OF and NX; towards zero only NX. -/
theorem test_fcvt_example : after (.fcvt 5 6 0 5 0 0) (at0 (fun c => c.rsPut 48 8 0x40E00000)) (fun t => (t.ctx 0 0).rsGet 40 8 == 7 && (t.ctx 0 0).fcsr == 20#64) = true ∧
    after (.fcvt 5 6 0 5 0 1) (at0 (fun c => c.rsPut 48 8 0x40E00000)) (fun t => (t.ctx 0 0).rsGet 40 8 == 7 && (t.ctx 0 0).fcsr == 16#64) = true := by
  constructor <;> decide
/-- The first word after reset, placed and fetched. -/
theorem test_first_step : (match step placed with | .next t => (t.ctx 0 0).xreg 5 == 0x345#64 && (t.ctx 0 0).pc == 0x7FFFFF0004#64 | _ => false) = true := by
  decide
/-- 11 R228: TRAP goes to the handler of TVEC with its cause and its address. -/
theorem test_trap : after (.trap 5) s0 (fun t => (t.ctx 0 0).pc == 0x400#64 && bit (t.ctx 0 0).tstatus 0 && bf (t.ctx 0 0).tcause 0 6 == 17) = true := by
  decide

set_option maxRecDepth 20000 in
/-- The CRC-64 of the nine bytes "123456789" with the ECMA-182 polynomial, as catalogues of CRCs list it (23 R395). -/
theorem test_crc64 : ([0x31, 0x32, 0x33, 0x34, 0x35, 0x36, 0x37, 0x38, 0x39] : List Byte).foldl crcByte 0 = 0x6C40DF5F0B497347#64 := by decide
/-- An error of HBM that cannot be corrected poisons its line, and a parity error of TCM waits for its user's next read (25 R413). -/
theorem test_memory_error : ((State.reset.memoryError 6 0 0x1008 false).poisonAt 0x1000) = true ∧
    ((State.reset.memoryError 2 8 0 false).core 1).bad ≠ [] := by decide

end Sys2Proof.Tests
end

namespace Sys2Proof.Machine
/-!
SUPPORT. The access half's transfers (08 R183-R185): words of their fields, illegal operands, and the branches, jumps and calls
themselves.
-/

open Sys2Proof Sys2Proof.Laws

/-! ### Words written from an opcode and their fields -/

/-- A word with a 12-bit field: the field is its last two parts. -/
theorem append_eq_join_field12 (op : BitVec 8) (d a : BitVec 6) (o : BitVec 12) :
    (op ++ d ++ a ++ o : BitVec 32) = join op d a (o.extractLsb' 6 6) (o.extractLsb' 0 6) := by
  apply BitVec.eq_of_getLsbD_eq
  intro i h
  simp only [join, BitVec.getLsbD_extractLsb', BitVec.getLsbD_append]
  grind

/-- A word with a 24-bit field: the field is its four parts. -/
theorem append_eq_join_field24 (op : BitVec 8) (im : BitVec 24) :
    (op ++ im : BitVec 32) = join op (im.extractLsb' 18 6) (im.extractLsb' 12 6) (im.extractLsb' 6 6) (im.extractLsb' 0 6) := by
  apply BitVec.eq_of_getLsbD_eq
  intro i h
  simp only [join, BitVec.getLsbD_extractLsb', BitVec.getLsbD_append]
  grind

/-- A word with a 12-bit field decodes to the instruction of its parts. -/
theorem decode_append_field12 {i : Instr} (hi : RoundTrip.Statement i) {op : BitVec 8} {d a : BitVec 6} {o : BitVec 12}
    (he : encode i = some (join op d a (o.extractLsb' 6 6) (o.extractLsb' 0 6))) : decode (op ++ d ++ a ++ o : BitVec 32) = .ok i :=
  hi _ (by rw [he, append_eq_join_field12])

/-- A word with a 24-bit field decodes to the instruction of its parts. -/
theorem decode_append_field24 {i : Instr} (hi : RoundTrip.Statement i) {op : BitVec 8} {im : BitVec 24}
    (he : encode i = some (join op (im.extractLsb' 18 6) (im.extractLsb' 12 6) (im.extractLsb' 6 6) (im.extractLsb' 0 6))) :
    decode (op ++ im : BitVec 32) = .ok i :=
  hi _ (by rw [he, append_eq_join_field24])

/-- Opcode 0x21 with a field that is not zero is reserved. -/
theorem decode_aret_reserved {im : BitVec 24} (h : im ≠ 0) : decode (0x21#8 ++ im) = .error .reservedBits := by
  rw [append_eq_join_field24, decode_join]
  refine if_neg fun hz => h ?_
  simp only [Bool.and_eq_true, beq_iff_eq] at hz
  obtain ⟨⟨⟨hd, ha⟩, hb⟩, hf⟩ := hz
  rw [← part68 im, hd, ha, hb, hf]
  rfl

/-! ### Operands that are illegal -/

/-- An encoding that is legal at decode is reported by its own half. -/
theorem State.clear.trapHalf {s : State} (h : s.clear i) : s.trapHalf i = halfOf i := by
  obtain ⟨-, -, -, hb, -⟩ := h
  simp [State.trapHalf, halfIn, hb]

/-- A clear word with an illegal operand has cause 2 as its first. -/
theorem firstCause_operand {s : State} (h : s.clear i) : s.firstCause i false true = some 2 := by
  obtain ⟨-, -, -, hb, -⟩ := h
  simp [State.firstCause, hb]

/-- A trap whose cause has its handler goes there (R228). -/
theorem settle_of_trap {body : M Unit} (ha : attempt i ill opd vec body s = .error (.trap c v false)) (hc : c ≠ 10)
    (hh : s.cur.handled c (groupOf c false) = true) : settle i ill opd vec body s n = (s.trapsTo i (s.trapHalf i) c v).quiet := by
  have he : ((s.onCur (fun x => x.report (s.trapHalf i) s.issue.first c v)).cur).handled c (groupOf c false) = true := by
    rw [State.onCur_cur]; exact hh
  unfold settle
  rw [ha]
  simp only [State.takeTrap, hc, if_false]
  rw [if_pos (by exact he)]
  simp [State.trapsTo, State.onCur, State.modCtx_modCtx]

/-- A clear access-half word with an illegal operand, and no checks of its own as it issues, traps with cause 2 and its word. -/
theorem run_operand_traps {body : M Unit} (h : s.clear i) (hhalf : halfOf i = .ah) (hchk : checksAtIssue i = false) (hopd : opd = true)
    (hh : s.cur.handled 2 0 = true) : run i false opd body s = .next (s.trapsTo i .ah 2 (wordOf i)).quiet := by
  subst hopd
  have ha : attempt i false true false body s = .error (.trap 2 (wordOf i) false) := by
    unfold attempt
    simp [h.1, firstCause_operand h, hchk]
  have hset := settle_of_trap (n := 17) ha (by decide) hh
  rw [h.trapHalf, hhalf] at hset
  exact congrArg _ hset

/-! ### Transfers -/

theorem jump_gives (target : W64) (s : State) : Does (jump target) s (s.onCur (fun c => { c with pc := target, edge := none })) := rfl

/-- A branch changes the issuing context only: its pc is the target, or the front end goes on after it. -/
theorem branch_gives (taken : Bool) (target : W64) (s : State) :
    Does (branch taken target) s (s.onCur (fun c =>
      if taken then { c with pc := target, edge := none } else c.follow s.issue.addr c.eh.isEmpty)) := by
  cases taken
  · exact fallThrough_gives s
  · exact jump_gives target s

/-- A link register written and a jump taken. -/
theorem link_jump_gives {d : BitVec 6} (hd : xOnly d = true) (link target : W64) (s : State) :
    Does (do xset d link; jump target) s (s.onCur (fun c => { c.setX d.toNat link with pc := target, edge := none })) := by
  have hput : s.putX d link = s.onCur (fun c => c.setX d.toNat link) := if_pos (of_decide_eq_true hd)
  exact (Gives.bind (xset_gives d link s) (jump_gives target _)).to (by rw [hput, State.onCur_onCur])

/-- Each branch of R183 is the template with its comparison, belongs to the access half and makes no checks of its own as it issues. -/
theorem exec_accessBranch (hp : p ∈ accessBranches) (a b : BitVec 6) (o : BitVec 12) :
    exec (p.1 a b o) = ahBranch (p.1 a b o) p.2 a b o ∧ halfOf (p.1 a b o) = .ah ∧ checksAtIssue (p.1 a b o) = false := by
  simp only [accessBranches, List.mem_cons, List.not_mem_nil, or_false] at hp
  obtain rfl | rfl | rfl | rfl | rfl | rfl := hp <;> exact ⟨rfl, rfl, rfl⟩

/-- The template of R183 pops A, then B, and branches from the word's own address. -/
theorem ahBranch_branches (hexec : exec i = ahBranch i p a b o) : AccessBranch i a b o p := by
  intro s s1 s2 x y hclear ha hb hx hy hreads
  obtain ⟨haddr1, -, -, -, hlow1⟩ := ahPop_issue hx
  obtain ⟨haddr2, -, -, -, hlow2⟩ := ahPop_issue hy
  have ⟨_, hlow, _⟩ := hclear
  obtain ⟨hbad, -⟩ := hreads
  have hlow' : s2.issue.low = none := by rw [hlow2, hlow1, hlow]
  have haddr : s2.issue.addr = s.issue.addr := haddr2.trans haddr1
  rw [hexec]
  exact run_ok hclear rfl (by simp [ha, hb])
    (Gives.bind hx (Gives.bind hy ((branch_gives _ _ s2).to (by rw [haddr]; rfl)))) ⟨hbad, .inl hlow'⟩

/-- A source of a branch that is no access-half source is an illegal operand. -/
theorem ahBranch_operand_traps (hexec : exec i = ahBranch i p a b o) (hhalf : halfOf i = .ah) (hchk : checksAtIssue i = false)
    (h : s.clear i) (hsrc : ahSrc a = false ∨ ahSrc b = false) (hh : s.cur.handled 2 0 = true) :
    exec i s = .next (s.trapsTo i .ah 2 (wordOf i)).quiet := by
  rw [hexec]
  exact run_operand_traps h hhalf hchk (by simpa using hsrc) hh

/-- ABQ pops the head of the branch queue and is taken when it equals the sense (R184). -/
theorem exec_abq (h : s.clear (.abq z o)) (hq : s.cur.bq = p :: r) :
    exec (.abq z o) s = .next (s.onCur (fun c =>
      let c := { c with bq := r }
      if p == (z == 1) then { c with pc := s.issue.addr + wi (4 * s.imm o), edge := none } else c.follow s.issue.addr c.eh.isEmpty)).quiet := by
  refine run_ok h rfl rfl (Gives.bind (Gives.getCtx s) ?_) (h.readsOk' rfl)
  rw [hq]
  exact (Gives.bind (Gives.modCtx (fun c => { c with bq := r }) s) (branch_gives _ _ _)).to (State.onCur_onCur s _ _)

/-- Settles O13: each branch is one template over its comparison, and a branch changes its own context only. -/
theorem accessBranchesChooseTheNextWord : Obligations.AccessBranchesChooseTheNextWord := by
  refine ⟨fun p hp a b o => ?_, fun p hp a b o s h hsrc hh => ?_, fun a b o => ⟨?_, ?_, ?_, ?_, ?_, ?_⟩, fun z o s p r h hq => exec_abq h hq⟩
  · obtain ⟨hexec, -, -⟩ := exec_accessBranch hp a b o
    exact ahBranch_branches hexec
  · obtain ⟨hexec, hhalf, hchk⟩ := exec_accessBranch hp a b o
    exact ahBranch_operand_traps hexec hhalf hchk h hsrc hh
  · exact decode_append_field12 (RoundTrip.abeq a b o) rfl
  · exact decode_append_field12 (RoundTrip.abne a b o) rfl
  · exact decode_append_field12 (RoundTrip.ablt a b o) rfl
  · exact decode_append_field12 (RoundTrip.abge a b o) rfl
  · exact decode_append_field12 (RoundTrip.abltu a b o) rfl
  · exact decode_append_field12 (RoundTrip.abgeu a b o) rfl

/-! ### Jumps and calls -/

/-- The words of AJMP, ACALL, ARET and AJR (R185). -/
theorem decode_jumps (im : BitVec 24) (d a : BitVec 6) (o : BitVec 12) :
    decode (0x1F#8 ++ im) = .ok (.ajmp im) ∧ decode (0x20#8 ++ im) = .ok (.acall im) ∧ decode 0x21000000#32 = .ok .aret ∧
      decode (0x22#8 ++ d ++ a ++ o) = .ok (.ajr d a o) :=
  ⟨decode_append_field24 (RoundTrip.ajmp im) rfl, decode_append_field24 (RoundTrip.acall im) rfl,
    RoundTrip.aret _ rfl, decode_append_field12 (RoundTrip.ajr d a o) rfl⟩

theorem exec_ajmp (h : s.clear (.ajmp im)) :
    exec (.ajmp im) s = .next (s.onCur (fun c => { c with pc := s.issue.addr + wi (4 * s.imm im), edge := none })).quiet :=
  run_ok h rfl rfl (jump_gives _ s) (h.readsOk' rfl)

theorem exec_acall (h : s.clear (.acall im)) :
    exec (.acall im) s = .next (s.onCur (fun c =>
      { c.setX 31 (s.issue.addr + 4) with pc := s.issue.addr + wi (4 * s.imm im), edge := none })).quiet :=
  run_ok h rfl rfl (link_jump_gives (d := 31) rfl _ _ s) (h.readsOk' rfl)

theorem exec_aret (h : s.clear .aret) :
    exec .aret s = .next (s.onCur (fun c => { c with pc := w64 (alignTo 4 (s.xval 31).toNat), edge := none })).quiet :=
  run_ok h rfl rfl (Gives.bind (Gives.xget 31 s) (jump_gives _ s)) (h.readsOk' rfl)

/-- AJR takes its base from the state before the link is written (R185). -/
theorem exec_ajr (h : s.clear (.ajr d a im)) (hd : xOnly d = true) (ha : xOnly a = true) :
    exec (.ajr d a im) s = .next (s.onCur (fun c =>
      { c.setX d.toNat (s.issue.addr + 4) with pc := w64 (alignTo 4 (s.xval a + wi (s.imm im)).toNat), edge := none })).quiet :=
  run_ok h rfl (by simp [hd, ha]) (Gives.bind (Gives.xget a s) (link_jump_gives hd _ _ s)) (h.readsOk' rfl)

theorem exec_ajr_operand_traps (h : s.clear (.ajr d a im)) (hx : xOnly d = false ∨ xOnly a = false) (hh : s.cur.handled 2 0 = true) :
    exec (.ajr d a im) s = .next (s.trapsTo (.ajr d a im) .ah 2 (wordOf (.ajr d a im))).quiet :=
  run_operand_traps h rfl rfl (by simpa using hx) hh

/-- Settles O14: a jump is one write of the context, and the link's write is composed before it. -/
theorem jumpsAndCallsSetThePcAndTheLink : Obligations.JumpsAndCallsSetThePcAndTheLink := by
  refine ⟨fun im d a o => ?_, fun d a im s h hx hh => exec_ajr_operand_traps h hx hh, fun im s h => exec_ajmp h,
    fun im s h => exec_acall h, fun s h => exec_aret h, fun d a im s h hd ha => exec_ajr h hd ha⟩
  obtain ⟨hajmp, hacall, haret, hajr⟩ := decode_jumps im d a o
  exact ⟨hajmp, hacall, haret, hajr, decode_aret_reserved⟩

end Sys2Proof.Machine

namespace Sys2Proof.Machine
/-!
SUPPORT. The words and their instructions: every instruction that has a word decodes from it, and a word that decodes is the
word of its instruction (07 R165, R166, R171-R173).
-/

open Sys2Proof Sys2Proof.Laws

/-- Settles O3: each word is read off the decoder. -/
theorem wordsOfTheSpecDecode : Obligations.WordsOfTheSpecDecode :=
  ⟨rfl, rfl, rfl, rfl, rfl, rfl, rfl, rfl, rfl, rfl, rfl, rfl, rfl, rfl, rfl, rfl⟩

/-- Settles O1: a word per instruction, each decoding from its own fields; a step has none. -/
theorem encodedWordDecodesToItsInstruction : Obligations.EncodedWordDecodesToItsInstruction := by
  intro i
  cases i with
  | aadd d a b w => exact RoundTrip.aadd d a b w
  | asub d a b w => exact RoundTrip.asub d a b w
  | aand d a b w => exact RoundTrip.aand d a b w
  | aorr d a b w => exact RoundTrip.aorr d a b w
  | axor d a b w => exact RoundTrip.axor d a b w
  | ashl d a b w => exact RoundTrip.ashl d a b w
  | ashr d a b w => exact RoundTrip.ashr d a b w
  | asar d a b w => exact RoundTrip.asar d a b w
  | amul d a b w => exact RoundTrip.amul d a b w
  | amad d a b w => exact RoundTrip.amad d a b w
  | amin d a b w => exact RoundTrip.amin d a b w
  | amax d a b w => exact RoundTrip.amax d a b w
  | aminu d a b w => exact RoundTrip.aminu d a b w
  | amaxu d a b w => exact RoundTrip.amaxu d a b w
  | aslt d a b w => exact RoundTrip.aslt d a b w
  | asltu d a b w => exact RoundTrip.asltu d a b w
  | aaddi d a i => exact RoundTrip.aaddi d a i
  | aandi d a i => exact RoundTrip.aandi d a i
  | ashli d a i => exact RoundTrip.ashli d a i
  | ashri d a i => exact RoundTrip.ashri d a i
  | asari d a i => exact RoundTrip.asari d a i
  | ali d i => exact RoundTrip.ali d i
  | alui d i => exact RoundTrip.alui d i
  | abeq a b o => exact RoundTrip.abeq a b o
  | abne a b o => exact RoundTrip.abne a b o
  | ablt a b o => exact RoundTrip.ablt a b o
  | abge a b o => exact RoundTrip.abge a b o
  | abltu a b o => exact RoundTrip.abltu a b o
  | abgeu a b o => exact RoundTrip.abgeu a b o
  | abq s o => exact RoundTrip.abq s o
  | ajmp i => exact RoundTrip.ajmp i
  | acall i => exact RoundTrip.acall i
  | aret => exact RoundTrip.aret
  | ajr d a i => exact RoundTrip.ajr d a i
  | tnext d i => exact RoundTrip.tnext d i
  | tend => exact RoundTrip.tend
  | spawn d a b => exact RoundTrip.spawn d a b
  | fan a b => exact RoundTrip.fan a b
  | gang d a => exact RoundTrip.gang d a
  | tqpush d a => exact RoundTrip.tqpush d a
  | ld d b o s => exact RoundTrip.ld d b o s
  | st d b o s => exact RoundTrip.st d b o s
  | ldg d b o s => exact RoundTrip.ldg d b o s
  | stg d b o s => exact RoundTrip.stg d b o s
  | latm d b p s => exact RoundTrip.latm d b p s
  | atom d a b r w p => exact RoundTrip.atom d a b r w p
  | put d a b s => exact RoundTrip.put d a b s
  | msg d a b f => exact RoundTrip.msg d a b f
  | wcfg a n => exact RoundTrip.wcfg a n
  | wstart n => exact RoundTrip.wstart n
  | wstop n => exact RoundTrip.wstop n
  | wflags d n => exact RoundTrip.wflags d n
  | wpos d a f n => exact RoundTrip.wpos d a f n
  | cpy d a => exact RoundTrip.cpy d a
  | cpyw a e => exact RoundTrip.cpyw a e
  | winset a b => exact RoundTrip.winset a b
  | winget d a k => exact RoundTrip.winget d a k
  | pflist a => exact RoundTrip.pflist a
  | rcpy d a r h => exact RoundTrip.rcpy d a r h
  | rcfg a h => exact RoundTrip.rcfg a h
  | rwait d h => exact RoundTrip.rwait d h
  | rresv d h => exact RoundTrip.rresv d h
  | rprod h => exact RoundTrip.rprod h
  | rcons h => exact RoundTrip.rcons h
  | rslot d a h => exact RoundTrip.rslot d a h
  | ssweep d a b => exact RoundTrip.ssweep d a b
  | add d a b w => exact RoundTrip.add d a b w
  | sub d a b w => exact RoundTrip.sub d a b w
  | mul d a b w => exact RoundTrip.mul d a b w
  | mulh d a b w => exact RoundTrip.mulh d a b w
  | mulhu d a b w => exact RoundTrip.mulhu d a b w
  | div d a b w => exact RoundTrip.div d a b w
  | divu d a b w => exact RoundTrip.divu d a b w
  | rem d a b w => exact RoundTrip.rem d a b w
  | remu d a b w => exact RoundTrip.remu d a b w
  | and d a b w => exact RoundTrip.and d a b w
  | or d a b w => exact RoundTrip.or d a b w
  | xor d a b w => exact RoundTrip.xor d a b w
  | shl d a b w => exact RoundTrip.shl d a b w
  | shr d a b w => exact RoundTrip.shr d a b w
  | sar d a b w => exact RoundTrip.sar d a b w
  | min d a b w => exact RoundTrip.min d a b w
  | max d a b w => exact RoundTrip.max d a b w
  | minu d a b w => exact RoundTrip.minu d a b w
  | maxu d a b w => exact RoundTrip.maxu d a b w
  | slt d a b w => exact RoundTrip.slt d a b w
  | sltu d a b w => exact RoundTrip.sltu d a b w
  | seq d a b w => exact RoundTrip.seq d a b w
  | sel d a b w => exact RoundTrip.sel d a b w
  | clz d a w => exact RoundTrip.clz d a w
  | popc d a w => exact RoundTrip.popc d a w
  | sext d a w => exact RoundTrip.sext d a w
  | addi d a i => exact RoundTrip.addi d a i
  | andi d a i => exact RoundTrip.andi d a i
  | ori d a i => exact RoundTrip.ori d a i
  | xori d a i => exact RoundTrip.xori d a i
  | shli d a i => exact RoundTrip.shli d a i
  | shri d a i => exact RoundTrip.shri d a i
  | sari d a i => exact RoundTrip.sari d a i
  | li d i => exact RoundTrip.li d i
  | lui d i => exact RoundTrip.lui d i
  | fadd d a b r f => exact RoundTrip.fadd d a b r f
  | fsub d a b r f => exact RoundTrip.fsub d a b r f
  | fmul d a b r f => exact RoundTrip.fmul d a b r f
  | fma d a b r f => exact RoundTrip.fma d a b r f
  | fmin d a b f => exact RoundTrip.fmin d a b f
  | fmax d a b f => exact RoundTrip.fmax d a b f
  | fcmp d a b c f => exact RoundTrip.fcmp d a b c f
  | fcvt d a k t s r => exact RoundTrip.fcvt d a k t s r
  | fsgn d a b o f => exact RoundTrip.fsgn d a b o f
  | fclass d a f => exact RoundTrip.fclass d a f
  | frnd d a r f => exact RoundTrip.frnd d a r f
  | epb a c => exact RoundTrip.epb a c
  | ebnz a s o => exact RoundTrip.ebnz a s o
  | vadd d a b m k w => exact RoundTrip.vadd d a b m k w
  | vsub d a b m k w => exact RoundTrip.vsub d a b m k w
  | vmul d a b m k w => exact RoundTrip.vmul d a b m k w
  | vmulh d a b m k w => exact RoundTrip.vmulh d a b m k w
  | vmin d a b m k w => exact RoundTrip.vmin d a b m k w
  | vmax d a b m k w => exact RoundTrip.vmax d a b m k w
  | vminu d a b m k w => exact RoundTrip.vminu d a b m k w
  | vmaxu d a b m k w => exact RoundTrip.vmaxu d a b m k w
  | vand d a b m k w => exact RoundTrip.vand d a b m k w
  | vor d a b m k w => exact RoundTrip.vor d a b m k w
  | vxor d a b m k w => exact RoundTrip.vxor d a b m k w
  | vshl d a b m k w => exact RoundTrip.vshl d a b m k w
  | vshr d a b m k w => exact RoundTrip.vshr d a b m k w
  | vsar d a b m k w => exact RoundTrip.vsar d a b m k w
  | vsadd d a b m k w => exact RoundTrip.vsadd d a b m k w
  | vsaddu d a b m k w => exact RoundTrip.vsaddu d a b m k w
  | vcmp d a b c w => exact RoundTrip.vcmp d a b c w
  | vsel d a b m w => exact RoundTrip.vsel d a b m w
  | vfadd d a b m k w => exact RoundTrip.vfadd d a b m k w
  | vfsub d a b m k w => exact RoundTrip.vfsub d a b m k w
  | vfmul d a b m k w => exact RoundTrip.vfmul d a b m k w
  | vfma d a b m k w => exact RoundTrip.vfma d a b m k w
  | vfmin d a b m k w => exact RoundTrip.vfmin d a b m k w
  | vfmax d a b m k w => exact RoundTrip.vfmax d a b m k w
  | vfcmp d a b c f => exact RoundTrip.vfcmp d a b c f
  | vfcvt d a p t s r => exact RoundTrip.vfcvt d a p t s r
  | vfsgn d a b o f => exact RoundTrip.vfsgn d a b o f
  | vfclass d a f => exact RoundTrip.vfclass d a f
  | vfred d a o f => exact RoundTrip.vfred d a o f
  | vdot d a b r t => exact RoundTrip.vdot d a b r t
  | voptw d a b p => exact RoundTrip.voptw d a b p
  | vmov d a m k w => exact RoundTrip.vmov d a m k w
  | vsplat d a m k w => exact RoundTrip.vsplat d a m k w
  | vext d a w k => exact RoundTrip.vext d a w k
  | vins d a w k => exact RoundTrip.vins d a w k
  | vperm d a b m k w => exact RoundTrip.vperm d a b m k w
  | vshuf d a b o w => exact RoundTrip.vshuf d a b o w
  | vnarrow d a b m w => exact RoundTrip.vnarrow d a b m w
  | vwiden d a h s w => exact RoundTrip.vwiden d a h s w
  | vslide d a b w s => exact RoundTrip.vslide d a b w s
  | vqpack d a b p t f => exact RoundTrip.vqpack d a b p t f
  | vqunpk d a b p t f => exact RoundTrip.vqunpk d a b p t f
  | vscale d a t f => exact RoundTrip.vscale d a t f
  | vmpop d a m w => exact RoundTrip.vmpop d a m w
  | vmfirst d a m w => exact RoundTrip.vmfirst d a m w
  | vrot d a b r w => exact RoundTrip.vrot d a b r w
  | cord d a n f => exact RoundTrip.cord d a n f
  | vcord d a n f => exact RoundTrip.vcord d a n f
  | sset d a c => exact RoundTrip.sset d a c
  | sread d a => exact RoundTrip.sread d a
  | sadd d a b r => exact RoundTrip.sadd d a b r
  | smrg d a b r => exact RoundTrip.smrg d a b r
  | vsread d a => exact RoundTrip.vsread d a
  | vsaddStamped d a b r => exact RoundTrip.vsaddStamped d a b r
  | vsmrg d a b r => exact RoundTrip.vsmrg d a b r
  | rsld d b o s => exact RoundTrip.rsld d b o s
  | rsst d b o s => exact RoundTrip.rsst d b o s
  | tvld a n => exact RoundTrip.tvld a n
  | mloadn d n => exact RoundTrip.mloadn d n
  | mloadw d n => exact RoundTrip.mloadw d n
  | mjob d a => exact RoundTrip.mjob d a
  | mwait d a => exact RoundTrip.mwait d a
  | mpoll d a => exact RoundTrip.mpoll d a
  | mpub d a n => exact RoundTrip.mpub d a n
  | msub d a b => exact RoundTrip.msub d a b
  | munsub a => exact RoundTrip.munsub a
  | mchain d a n => exact RoundTrip.mchain d a n
  | msend d a b => exact RoundTrip.msend d a b
  | mcap d a b => exact RoundTrip.mcap d a b
  | mhnd d => exact RoundTrip.mhnd d
  | mdone d a m => exact RoundTrip.mdone d a m
  | bgemv d a => exact RoundTrip.bgemv d a
  | bwait d a => exact RoundTrip.bwait d a
  | coll d a => exact RoundTrip.coll d a
  | cwait d a => exact RoundTrip.cwait d a
  | csig a b s k => exact RoundTrip.csig a b s k
  | bar d a o s => exact RoundTrip.bar d a o s
  | vote a c k => exact RoundTrip.vote a c k
  | stepadv a => exact RoundTrip.stepadv a
  | fence s k => exact RoundTrip.fence s k
  | fenceSc s => exact RoundTrip.fenceSc s
  | fenceBank => exact RoundTrip.fenceBank
  | wait d a b s c => exact RoundTrip.wait d a b s c
  | csrr d c => exact RoundTrip.csrr d c
  | csrw d c => exact RoundTrip.csrw d c
  | csrs d c => exact RoundTrip.csrs d c
  | csrc d c => exact RoundTrip.csrc d c
  | trap i => exact RoundTrip.trap i
  | eret => exact RoundTrip.eret
  | halt => exact RoundTrip.halt
  | nop => exact RoundTrip.nop
  | feat d a t => exact RoundTrip.feat d a t
  | dbrk i => exact RoundTrip.dbrk i
  | loop a i => exact RoundTrip.loop a i
  | loopi i => exact RoundTrip.loopi i
  | loopw f w i => exact RoundTrip.loopw f w i
  | lbrk n => exact RoundTrip.lbrk n
  | himm p => exact RoundTrip.himm p
  | hmod e s n c k => exact RoundTrip.hmod e s n c k
  | hsched x k r l => exact RoundTrip.hsched x k r l
  | nopHint op p => exact RoundTrip.nopHint op p
  | _ => exact RoundTrip.of_none rfl

/-! ### A six-bit part of a word is put together from its fields -/

theorem fields_z5_1 {x : BitVec 6} (h : x.extractLsb' 1 5 = 0#5) : 0#5 ++ x.extractLsb' 0 1 = x := by revert x; decide
theorem fields_z4_2 {x : BitVec 6} (h : x.extractLsb' 2 4 = 0#4) : 0#4 ++ x.extractLsb' 0 2 = x := by revert x; decide
theorem fields_z3_3 {x : BitVec 6} (h : x.extractLsb' 3 3 = 0#3) : 0#3 ++ x.extractLsb' 0 3 = x := by revert x; decide
theorem fields_z2_4 {x : BitVec 6} (h : x.extractLsb' 4 2 = 0#2) : 0#2 ++ x.extractLsb' 0 4 = x := by revert x; decide
theorem fields_z1_5 {x : BitVec 6} (h : x.extractLsb' 5 1 = 0#1) : 0#1 ++ x.extractLsb' 0 5 = x := by revert x; decide
theorem fields_3_z3 {x : BitVec 6} (h : x.extractLsb' 0 3 = 0#3) : x.extractLsb' 3 3 ++ 0#3 = x := by revert x; decide
theorem fields_4_z2 {x : BitVec 6} (h : x.extractLsb' 0 2 = 0#2) : x.extractLsb' 2 4 ++ 0#2 = x := by revert x; decide
theorem fields_z2_1_3 {x : BitVec 6} (h : x.extractLsb' 4 2 = 0#2) : 0#2 ++ x.extractLsb' 3 1 ++ x.extractLsb' 0 3 = x := by revert x; decide
theorem fields_z2_2_2 {x : BitVec 6} (h : x.extractLsb' 4 2 = 0#2) : 0#2 ++ x.extractLsb' 2 2 ++ x.extractLsb' 0 2 = x := by revert x; decide
theorem fields_z1_3_2 {x : BitVec 6} (h : x.extractLsb' 5 1 = 0#1) : 0#1 ++ x.extractLsb' 2 3 ++ x.extractLsb' 0 2 = x := by revert x; decide
theorem fields_z1_1_4 {x : BitVec 6} (h : x.extractLsb' 5 1 = 0#1) : 0#1 ++ x.extractLsb' 4 1 ++ x.extractLsb' 0 4 = x := by revert x; decide
theorem fields_z3_1_2 {x : BitVec 6} (h : x.extractLsb' 3 3 = 0#3) : 0#3 ++ x.extractLsb' 2 1 ++ x.extractLsb' 0 2 = x := by revert x; decide
theorem fields_z2_1_1_2 {x : BitVec 6} (h : x.extractLsb' 4 2 = 0#2) : 0#2 ++ x.extractLsb' 3 1 ++ x.extractLsb' 2 1 ++ x.extractLsb' 0 2 = x := by revert x; decide
theorem fields_z1_1_1_3 {x : BitVec 6} (h : x.extractLsb' 5 1 = 0#1) : 0#1 ++ x.extractLsb' 4 1 ++ x.extractLsb' 3 1 ++ x.extractLsb' 0 3 = x := by revert x; decide
theorem fields_z1_2_3 {x : BitVec 6} (h : x.extractLsb' 5 1 = 0#1) : 0#1 ++ x.extractLsb' 3 2 ++ x.extractLsb' 0 3 = x := by revert x; decide
theorem fields_3_z1_2 {x : BitVec 6} (h : x.extractLsb' 2 1 = 0#1) : x.extractLsb' 3 3 ++ 0#1 ++ x.extractLsb' 0 2 = x := by revert x; decide
theorem fields_3_3 (x : BitVec 6) : x.extractLsb' 3 3 ++ x.extractLsb' 0 3 = x := by revert x; decide
theorem fields_2_4 (x : BitVec 6) : x.extractLsb' 4 2 ++ x.extractLsb' 0 4 = x := by revert x; decide
theorem fields_3_1_2 (x : BitVec 6) : x.extractLsb' 3 3 ++ x.extractLsb' 2 1 ++ x.extractLsb' 0 2 = x := by revert x; decide
theorem fields_2_2_2 (x : BitVec 6) : x.extractLsb' 4 2 ++ x.extractLsb' 2 2 ++ x.extractLsb' 0 2 = x := by revert x; decide
theorem fields_1_1_4 (x : BitVec 6) : x.extractLsb' 5 1 ++ x.extractLsb' 4 1 ++ x.extractLsb' 0 4 = x := by revert x; decide
theorem fields_4_1_1 (x : BitVec 6) : x.extractLsb' 2 4 ++ x.extractLsb' 1 1 ++ x.extractLsb' 0 1 = x := by revert x; decide
theorem fields_1_1_2_2 (x : BitVec 6) : x.extractLsb' 5 1 ++ x.extractLsb' 4 1 ++ x.extractLsb' 2 2 ++ x.extractLsb' 0 2 = x := by revert x; decide

/-! ### The parts of a run of parts -/

@[simp] theorem run12_6 (b : BitVec 6) (f : BitVec 6) : BitVec.extractLsb' (n := 12) 6 6 (b ++ f) = b := by
  apply BitVec.eq_of_getLsbD_eq
  intro i h
  simp only [BitVec.getLsbD_extractLsb', BitVec.getLsbD_append]
  grind
@[simp] theorem run12_0 (b : BitVec 6) (f : BitVec 6) : BitVec.extractLsb' (n := 12) 0 6 (b ++ f) = f := by
  apply BitVec.eq_of_getLsbD_eq
  intro i h
  simp only [BitVec.getLsbD_extractLsb', BitVec.getLsbD_append]
  grind
@[simp] theorem run18_12 (a : BitVec 6) (b : BitVec 6) (f : BitVec 6) : BitVec.extractLsb' (n := 18) 12 6 (a ++ b ++ f) = a := by
  apply BitVec.eq_of_getLsbD_eq
  intro i h
  simp only [BitVec.getLsbD_extractLsb', BitVec.getLsbD_append]
  grind
@[simp] theorem run18_6 (a : BitVec 6) (b : BitVec 6) (f : BitVec 6) : BitVec.extractLsb' (n := 18) 6 6 (a ++ b ++ f) = b := by
  apply BitVec.eq_of_getLsbD_eq
  intro i h
  simp only [BitVec.getLsbD_extractLsb', BitVec.getLsbD_append]
  grind
@[simp] theorem run18_0 (a : BitVec 6) (b : BitVec 6) (f : BitVec 6) : BitVec.extractLsb' (n := 18) 0 6 (a ++ b ++ f) = f := by
  apply BitVec.eq_of_getLsbD_eq
  intro i h
  simp only [BitVec.getLsbD_extractLsb', BitVec.getLsbD_append]
  grind
@[simp] theorem run24_18 (d : BitVec 6) (a : BitVec 6) (b : BitVec 6) (f : BitVec 6) : BitVec.extractLsb' (n := 24) 18 6 (d ++ a ++ b ++ f) = d := by
  apply BitVec.eq_of_getLsbD_eq
  intro i h
  simp only [BitVec.getLsbD_extractLsb', BitVec.getLsbD_append]
  grind
@[simp] theorem run24_12 (d : BitVec 6) (a : BitVec 6) (b : BitVec 6) (f : BitVec 6) : BitVec.extractLsb' (n := 24) 12 6 (d ++ a ++ b ++ f) = a := by
  apply BitVec.eq_of_getLsbD_eq
  intro i h
  simp only [BitVec.getLsbD_extractLsb', BitVec.getLsbD_append]
  grind
@[simp] theorem run24_6 (d : BitVec 6) (a : BitVec 6) (b : BitVec 6) (f : BitVec 6) : BitVec.extractLsb' (n := 24) 6 6 (d ++ a ++ b ++ f) = b := by
  apply BitVec.eq_of_getLsbD_eq
  intro i h
  simp only [BitVec.getLsbD_extractLsb', BitVec.getLsbD_append]
  grind
@[simp] theorem run24_0 (d : BitVec 6) (a : BitVec 6) (b : BitVec 6) (f : BitVec 6) : BitVec.extractLsb' (n := 24) 0 6 (d ++ a ++ b ++ f) = f := by
  apply BitVec.eq_of_getLsbD_eq
  intro i h
  simp only [BitVec.getLsbD_extractLsb', BitVec.getLsbD_append]
  grind
@[simp] theorem run9_3 (b : BitVec 6) (f : BitVec 3) : BitVec.extractLsb' (n := 9) 3 6 (b ++ f) = b := by
  apply BitVec.eq_of_getLsbD_eq
  intro i h
  simp only [BitVec.getLsbD_extractLsb', BitVec.getLsbD_append]
  grind
@[simp] theorem run9_0 (b : BitVec 6) (f : BitVec 3) : BitVec.extractLsb' (n := 9) 0 3 (b ++ f) = f := by
  apply BitVec.eq_of_getLsbD_eq
  intro i h
  simp only [BitVec.getLsbD_extractLsb', BitVec.getLsbD_append]
  grind
@[simp] theorem run16_10 (d : BitVec 6) (a : BitVec 6) (b : BitVec 4) : BitVec.extractLsb' (n := 16) 10 6 (d ++ a ++ b) = d := by
  apply BitVec.eq_of_getLsbD_eq
  intro i h
  simp only [BitVec.getLsbD_extractLsb', BitVec.getLsbD_append]
  grind
@[simp] theorem run16_4 (d : BitVec 6) (a : BitVec 6) (b : BitVec 4) : BitVec.extractLsb' (n := 16) 4 6 (d ++ a ++ b) = a := by
  apply BitVec.eq_of_getLsbD_eq
  intro i h
  simp only [BitVec.getLsbD_extractLsb', BitVec.getLsbD_append]
  grind
@[simp] theorem run16_0 (d : BitVec 6) (a : BitVec 6) (b : BitVec 4) : BitVec.extractLsb' (n := 16) 0 4 (d ++ a ++ b) = b := by
  apply BitVec.eq_of_getLsbD_eq
  intro i h
  simp only [BitVec.getLsbD_extractLsb', BitVec.getLsbD_append]
  grind
@[simp] theorem run19_13 (d : BitVec 6) (a : BitVec 6) (b : BitVec 6) (f : BitVec 1) : BitVec.extractLsb' (n := 19) 13 6 (d ++ a ++ b ++ f) = d := by
  apply BitVec.eq_of_getLsbD_eq
  intro i h
  simp only [BitVec.getLsbD_extractLsb', BitVec.getLsbD_append]
  grind
@[simp] theorem run19_7 (d : BitVec 6) (a : BitVec 6) (b : BitVec 6) (f : BitVec 1) : BitVec.extractLsb' (n := 19) 7 6 (d ++ a ++ b ++ f) = a := by
  apply BitVec.eq_of_getLsbD_eq
  intro i h
  simp only [BitVec.getLsbD_extractLsb', BitVec.getLsbD_append]
  grind
@[simp] theorem run19_1 (d : BitVec 6) (a : BitVec 6) (b : BitVec 6) (f : BitVec 1) : BitVec.extractLsb' (n := 19) 1 6 (d ++ a ++ b ++ f) = b := by
  apply BitVec.eq_of_getLsbD_eq
  intro i h
  simp only [BitVec.getLsbD_extractLsb', BitVec.getLsbD_append]
  grind
@[simp] theorem run19_0 (d : BitVec 6) (a : BitVec 6) (b : BitVec 6) (f : BitVec 1) : BitVec.extractLsb' (n := 19) 0 1 (d ++ a ++ b ++ f) = f := by
  apply BitVec.eq_of_getLsbD_eq
  intro i h
  simp only [BitVec.getLsbD_extractLsb', BitVec.getLsbD_append]
  grind

/-- The opcodes without reserved bits. -/
def unconditionalOpcodes : List Nat :=
  [0x11, 0x12, 0x13, 0x14, 0x15, 0x16, 0x17, 0x18, 0x19, 0x1A, 0x1B, 0x1C, 0x1D, 0x1F, 0x20, 0x22, 0x29, 0x2A, 0x2B,
   0x2C, 0x2E, 0x6A, 0x6B, 0x6C, 0x6D, 0x6E, 0x6F, 0x70, 0x71, 0x72, 0x7A, 0x80, 0x81, 0x82, 0x83, 0x84, 0x85, 0x86,
   0x87, 0x88, 0x89, 0x8A, 0x8B, 0x8C, 0x8D, 0x8E, 0x8F, 0x92, 0x93, 0x94, 0x95, 0x96, 0x97, 0x99, 0x9D, 0x9E, 0xA3,
   0xA7, 0xA8, 0xA9, 0xB7, 0xB8, 0xD9, 0xE4, 0xE9, 0xF8, 0xF9, 0xFA, 0xFB, 0xFC, 0xFD, 0xFE]

/-- The opcodes with reserved bits, or with fields that must be zero. -/
def conditionalOpcodes : List Nat :=
  [0x01, 0x02, 0x03, 0x04, 0x05, 0x06, 0x07, 0x08, 0x09, 0x0A, 0x0B, 0x0C, 0x0D, 0x0E, 0x0F, 0x10, 0x1E, 0x21, 0x23,
   0x24, 0x25, 0x26, 0x27, 0x28, 0x2D, 0x2F, 0x30, 0x31, 0x32, 0x33, 0x34, 0x35, 0x36, 0x37, 0x38, 0x39, 0x3A, 0x3B,
   0x3C, 0x3D, 0x3E, 0x3F, 0x40, 0x41, 0x42, 0x50, 0x51, 0x52, 0x53, 0x54, 0x55, 0x56, 0x57, 0x58, 0x59, 0x5A, 0x5B,
   0x5C, 0x5D, 0x5E, 0x5F, 0x60, 0x61, 0x62, 0x63, 0x64, 0x65, 0x66, 0x67, 0x68, 0x69, 0x73, 0x74, 0x75, 0x76, 0x77,
   0x78, 0x79, 0x7B, 0x7C, 0x7D, 0x7E, 0x7F, 0x90, 0x91, 0x98, 0x9A, 0x9B, 0x9C, 0x9F, 0xA0, 0xA1, 0xA2, 0xA4, 0xA5,
   0xA6, 0xAA, 0xAB, 0xAC, 0xAD, 0xAE, 0xAF, 0xB0, 0xB1, 0xB2, 0xB3, 0xB4, 0xB5, 0xB6, 0xC0, 0xC1, 0xC2, 0xC3, 0xC4,
   0xC5, 0xC6, 0xC7, 0xC8, 0xC9, 0xCA, 0xCB, 0xCC, 0xCD, 0xCE, 0xCF, 0xD0, 0xD1, 0xD2, 0xD3, 0xD4, 0xD5, 0xD6, 0xD7,
   0xD8, 0xE0, 0xE1, 0xE2, 0xE3, 0xE5, 0xE6, 0xE7, 0xE8, 0xEA, 0xEB, 0xEC, 0xED]

/-- The opcodes of no instruction (R171, R173). -/
def reservedOpcodes : List Nat :=
  [0x00, 0x43, 0x44, 0x45, 0x46, 0x47, 0x48, 0x49, 0x4A, 0x4B, 0x4C, 0x4D, 0x4E, 0x4F, 0xB9, 0xBA, 0xBB, 0xBC, 0xBD,
   0xBE, 0xBF, 0xDA, 0xDB, 0xDC, 0xDD, 0xDE, 0xDF, 0xEE, 0xEF, 0xF0, 0xF1, 0xF2, 0xF3, 0xF4, 0xF5, 0xF6, 0xF7, 0xFF]

/-- What decodes from the parts of a word is encoded as that word. -/
def EncodesBack (n : Nat) : Prop :=
  ∀ (d a b f : BitVec 6) (i : Instr), decodeParts n d a b f = .ok i → encode i = some (join (BitVec.ofNat 8 n) d a b f)

theorem EncodesBack.of_ok {n : Nat} {g : BitVec 6 → BitVec 6 → BitVec 6 → BitVec 6 → Instr}
    (hd : ∀ d a b f, decodeParts n d a b f = .ok (g d a b f)) (he : ∀ d a b f, encode (g d a b f) = some (join (BitVec.ofNat 8 n) d a b f)) :
    EncodesBack n := by
  intro d a b f i h
  rw [hd] at h
  cases h
  exact he d a b f

theorem EncodesBack.of_if {n : Nat} {g : BitVec 6 → BitVec 6 → BitVec 6 → BitVec 6 → Instr} {c : BitVec 6 → BitVec 6 → BitVec 6 → BitVec 6 → Bool}
    (hd : ∀ d a b f, decodeParts n d a b f = if c d a b f then .ok (g d a b f) else .error .reservedBits)
    (he : ∀ d a b f, c d a b f = true → encode (g d a b f) = some (join (BitVec.ofNat 8 n) d a b f)) : EncodesBack n := by
  intro d a b f i h
  rw [hd] at h
  split at h
  · cases h
    exact he d a b f ‹_›
  · cases h

theorem EncodesBack.of_error {n : Nat} (hd : ∀ d a b f, decodeParts n d a b f = .error .reservedOpcode) : EncodesBack n := by
  intro d a b f i h
  rw [hd] at h
  cases h

theorem encodesBack_of_unconditional : ∀ n ∈ unconditionalOpcodes, EncodesBack n := by
  intro n hn
  unfold unconditionalOpcodes at hn
  repeat
    obtain _ | ⟨_, hn⟩ := hn
    · refine EncodesBack.of_ok (fun _ _ _ _ => rfl) fun d a b f => ?_
      simp [encode, nopOpcode, fields_3_3, fields_2_4, fields_3_1_2, fields_2_2_2, fields_1_1_4, fields_4_1_1, fields_1_1_2_2]
  cases hn

theorem encodesBack_of_conditional : ∀ n ∈ conditionalOpcodes, EncodesBack n := by
  intro n hn
  unfold conditionalOpcodes at hn
  repeat
    obtain _ | ⟨_, hn⟩ := hn
    · refine EncodesBack.of_if (fun _ _ _ _ => rfl) fun d a b f h => ?_
      simp only [Bool.and_eq_true, beq_iff_eq] at h
      simp [encode, h, fields_z5_1, fields_z4_2, fields_z3_3, fields_z2_4, fields_z1_5, fields_3_z3, fields_4_z2, fields_z2_1_3, fields_z2_2_2, fields_z1_3_2, fields_z1_1_4, fields_z3_1_2, fields_z2_1_1_2, fields_z1_1_1_3, fields_z1_2_3, fields_3_z1_2, fields_3_3, fields_2_4, fields_3_1_2]
  cases hn

theorem encodesBack_of_reserved : ∀ n ∈ reservedOpcodes, EncodesBack n := by
  intro n hn
  unfold reservedOpcodes at hn
  repeat
    obtain _ | ⟨_, hn⟩ := hn
    · exact EncodesBack.of_error fun _ _ _ _ => rfl
  cases hn

set_option maxRecDepth 8000 in
theorem opcode_cases : ∀ n < 256, n ∈ unconditionalOpcodes ∨ n ∈ conditionalOpcodes ∨ n ∈ reservedOpcodes := by
  decide

theorem join_parts (w : BitVec 32) : join (opOf w) (dOf w) (aOf w) (bOf w) (fOf w) = w := by
  apply BitVec.eq_of_getLsbD_eq
  intro i h
  simp only [join, opOf, dOf, aOf, bOf, fOf, BitVec.getLsbD_extractLsb', BitVec.getLsbD_append]
  grind

/-- Settles O2: by the kind of the opcode, each decoded instruction's fields put its word together again. -/
theorem decodedWordEncodesBack : Obligations.DecodedWordEncodesBack := by
  intro w i h
  have hback : EncodesBack (opOf w).toNat := by
    rcases opcode_cases _ (opOf w).isLt with hn | hn | hn
    · exact encodesBack_of_unconditional _ hn
    · exact encodesBack_of_conditional _ hn
    · exact encodesBack_of_reserved _ hn
  have hw := hback _ _ _ _ i h
  rwa [BitVec.ofNat_toNat, BitVec.setWidth_eq, join_parts] at hw

end Sys2Proof.Machine

namespace Sys2Proof.Machine
/-!
SUPPORT. A step ends with nothing half executed (07 R162): one lemma for each kind of meaning, then each instruction by its kind.
-/

open Sys2Proof

/-- An outcome goes on only to states with nothing half executed. -/
def Rests (o : Host.Outcome State Fault Refusal) : Prop := ∀ t, o = .next t → t.atRest

theorem next_rests (s : State) : Rests (.next s.quiet) := by
  rintro t ⟨⟩
  rfl

theorem event_rests (name : String) (o : Option State) : Rests (event name o) := by
  cases o with
  | none => rintro t ⟨⟩
  | some s => exact next_rests s

theorem ite_rests [Decidable p] {a b : Host.Outcome State Fault Refusal} (ha : Rests a) (hb : Rests b) : Rests (if p then a else b) := by
  split
  · exact ha
  · exact hb

theorem settle_atRest : (settle i ill opd vec body s n).atRest := by
  induction n generalizing s with
  | zero => unfold settle; split <;> (try split) <;> rfl
  | succ n ih =>
    unfold settle
    split
    · rfl
    · rfl
    · split
      · rfl
      · exact ih

theorem runWith_rests : Rests (runWith i ill opd vec body s) := by
  rintro t ⟨⟩
  exact settle_atRest

theorem execFetchDeliver_rests (c k : Nat) (s : State) : Rests (execFetchDeliver c k s) := by
  unfold execFetchDeliver
  split
  · rintro t ⟨⟩
  · split
    · exact next_rests _
    · split
      · exact runWith_rests
      · exact runWith_rests
      · exact runWith_rests
      · exact runWith_rests
      · exact next_rests _

theorem execVshuf_rests (d a b : BitVec 6) (o : BitVec 3) (w : BitVec 2) (s : State) : Rests (execVshuf d a b o w s) := by
  unfold execVshuf
  dsimp only
  split
  · exact runWith_rests
  · exact runWith_rests

/-- A word runs in its frame, and a step of the device is its next state or cannot occur: each ends quiet. -/
theorem exec_rests (i : Instr) (s : State) : Rests (exec i s) :=
  match i with
  | .lwpost .. | .lwcancel .. | .lwcqhead .. | .split .. | .merge .. | .release .. | .paddockConfigWrite .. | .vfBind .. |
    .exportTenant .. | .importTenant .. | .abandon .. | .wdbudget .. | .rovasCommand .. | .membershipLoad .. | .pwcmd .. |
    .pwgate .. | .pwhbm .. | .elhead .. | .stage .. | .commitSvn .. => next_rests _
  | .vshuf d a b o w => execVshuf_rests d a b o w s
  | .fetchDeliver c k => execFetchDeliver_rests c k s
  | .walkerFetch .. | .walkerStoreWrite .. | .copyReusable .. | .copyVisible .. | .sweepComplete .. | .copyFault .. |
    .matrixJobStart .. | .drainRow .. | .matrixJobComplete .. | .chainForward .. | .streamPublishRead .. | .bgemvComplete ..
    | .nbuFault .. | .globalAccessPerformed .. | .collStart .. | .collComplete .. | .collTimeout .. | .startMessage .. |
    .risingPennant .. | .coreArrive .. | .pollTimer .. | .poll .. | .corePark .. | .watchdogExpiry .. | .decideProceed .. |
    .deltaArrive .. | .pfeRun .. | .pfeLand .. | .decideCommit .. | .decideAbort .. | .donePennant .. | .resume .. |
    .translationWalk .. | .pageBringUp .. | .backgroundScrub .. | .setpte .. | .fetch .. | .evict .. | .hwrite .. | .hread ..
    | .shres .. | .launchSelect .. | .recomputeDrop .. | .gatePass .. | .saveSignal .. | .copySaveDone .. | .restoreDone .. |
    .importConfirm .. | .warmReset .. | .wrcmdResume .. | .start .. | .warmResetOverrun .. | .d2dFlitReceive .. | .d2dNak ..
    | .moduleRetrain .. | .moduleRetrainDone .. | .edgeDown .. | .deviceFailed .. | .llynnalFlitReceive .. | .portRetrain ..
    | .portRetrainDone .. | .heartbeatFlit .. | .timingReplay .. | .derate .. | .recoverySelfTest .. | .currentLimit .. |
    .currentFallsBack .. | .thermalTrip .. | .powerStateApply .. | .getVersion .. | .getCapabilities .. |
    .negotiateAlgorithms .. | .getCertificate .. | .challenge .. | .getMeasurements .. | .keyExchange .. | .finish .. |
    .setkey .. | .tdispLockInterface .. | .tdispStartInterface .. | .stopInterface .. | .debuggerAttach .. | .debuggerResume
    .. | .registerWrite .. => event_rests _ _
  | .aadd .. | .asub .. | .aand .. | .aorr .. | .axor .. | .ashl .. | .ashr .. | .asar .. | .amul .. | .amin .. | .amax .. |
    .aminu .. | .amaxu .. | .aslt .. | .asltu .. | .amad .. | .aaddi .. | .aandi .. | .ashli .. | .ashri .. | .asari .. |
    .ali .. | .alui .. | .abeq .. | .abne .. | .ablt .. | .abge .. | .abltu .. | .abgeu .. | .abq .. | .ajmp .. | .acall .. |
    .aret .. | .ajr .. | .add .. | .sub .. | .mul .. | .mulh .. | .mulhu .. | .and .. | .or .. | .xor .. | .shl .. | .shr ..
    | .sar .. | .min .. | .max .. | .minu .. | .maxu .. | .slt .. | .sltu .. | .seq .. | .div .. | .divu .. | .rem .. | .remu
    .. | .sel .. | .clz .. | .popc .. | .sext .. | .addi .. | .andi .. | .ori .. | .xori .. | .shli .. | .shri .. | .sari ..
    | .li .. | .lui .. | .epb .. | .ebnz .. | .feat .. | .fadd .. | .fsub .. | .fmul .. | .fmin .. | .fmax .. | .fsgn .. |
    .fcmp .. | .fma .. | .fclass .. | .frnd .. | .fcvt .. | .vadd .. | .vsub .. | .vmul .. | .vmulh .. | .vmin .. | .vmax ..
    | .vminu .. | .vmaxu .. | .vand .. | .vor .. | .vxor .. | .vshl .. | .vshr .. | .vsar .. | .vsadd .. | .vsaddu .. | .vcmp
    .. | .vsel .. | .vfadd .. | .vfsub .. | .vfmul .. | .vfmin .. | .vfmax .. | .vfma .. | .vfcmp .. | .vfsgn .. | .vfclass
    .. | .vfcvt .. | .vfred .. | .vdot .. | .vmov .. | .vsplat .. | .vperm .. | .vext .. | .vins .. | .vslide ..
    | .vnarrow .. | .vwiden .. | .vscale .. | .vqpack .. | .vqunpk .. | .vmpop .. | .vmfirst .. | .vrot .. | .cord .. |
    .vcord .. | .sset .. | .sread .. | .sadd .. | .smrg .. | .vsread .. | .vsaddStamped .. | .vsmrg .. | .voptw .. | .rsld ..
    | .rsst .. | .ld .. | .st .. | .ldg .. | .stg .. | .latm .. | .fence .. | .fenceSc .. | .fenceBank .. | .wcfg .. |
    .wstart .. | .wstop .. | .wflags .. | .wpos .. | .winset .. | .winget .. | .cpy .. | .cpyw .. | .rcpy .. | .ssweep .. |
    .rcfg .. | .rresv .. | .rprod .. | .rwait .. | .rcons .. | .rslot .. | .csrr .. | .csrw .. | .csrs .. | .csrc .. | .trap
    .. | .dbrk .. | .eret .. | .halt .. | .nop .. | .himm .. | .hmod .. | .hsched .. | .nopHint .. | .illegalInstruction .. |
    .tvld .. | .mloadn .. | .mloadw .. | .mjob .. | .msend .. | .mwait .. | .mpoll .. | .mpub .. | .msub .. | .munsub .. |
    .mchain .. | .mcap .. | .mhnd .. | .mdone .. | .bgemv .. | .bwait .. | .csig .. | .coll .. | .cwait .. | .bar .. | .vote
    .. | .stepadv .. | .wait .. | .tnext .. | .tend .. | .spawn .. | .fan .. | .gang .. | .tqpush .. | .put .. | .atom .. |
    .msg .. | .pflist .. | .loop .. | .loopi .. | .loopw .. | .lbrk .. => runWith_rests

theorem perform_rests (w : Work) (s : State) : Rests (State.perform w s) := by
  have fault : Rests (.fault .noSuchUnit) := by rintro t ⟨⟩
  cases w with
  | idle => exact next_rests s
  | chore c => exact next_rests _
  | turn t =>
    cases t with
    | context c k =>
      refine ite_rests ?_ fault
      cases s.contextTurn c k with
      | done t => exact next_rests t
      | go i t => exact exec_rests i t
    | event i => exact ite_rests (exec_rests i s) fault
    | memoryError src user addr corrected => exact ite_rests (next_rests _) fault
    | poisonLine c addr => exact ite_rests (next_rests _) fault
    | spdmUnlisted fn version => exact ite_rests (next_rests _) fault
    | pcieError addr corrected => exact next_rests _
    | temperature d t => exact next_rests _
    | lend mask => exact next_rests _

/-- Settles O5: whatever the work of the step is, what carries it out ends quiet. -/
theorem everyStepLeavesNoInstructionInProgress : Obligations.EveryStepLeavesNoInstructionInProgress :=
  fun s => perform_rests s.beat.nextWork.1 s.beat.nextWork.2

end Sys2Proof.Machine

namespace Sys2Proof.Machine
/-!
SUPPORT. The arithmetic of both halves and the scalar floating words (08 R180-R182, 09 R206-R214): each word is a template over its
operation, and a template goes on when its operands are read and its result is written.
-/

open Sys2Proof

/-! ### Flags -/

theorem setFlags_gives (fl : Nat) (s : State) : Does (setFlags fl) s (s.addFlags fl) := rfl

@[simp] theorem State.addFlags_issue (s : State) (fl : Nat) : (s.addFlags fl).issue = s.issue := rfl

/-- A change of the issuing context that makes no parity error due leaves what has been read. -/
theorem State.readsOk.onCur {s : State} {f : Ctx → Ctx} (h : s.readsOk) (hf : (f s.cur).parityDue = s.cur.parityDue) : (s.onCur f).readsOk := by
  obtain ⟨hbad, hlow⟩ := h
  refine ⟨hbad, hlow.imp_right fun hp => ?_⟩
  show Ctx.parityDue (s.onCur f).cur = false
  rw [State.onCur_cur, hf]
  exact hp

theorem State.readsOk.addFlags {s : State} (h : s.readsOk) (fl : Nat) : (s.addFlags fl).readsOk := h.onCur rfl

/-- A sign extension looks at the low bits only. -/
theorem sext_congr (h : v % 2 ^ n = w % 2 ^ n) : sext n v = sext n w := by
  unfold sext
  rw [h]

/-- A sequence that goes on does so by parts. -/
theorem Gives.of_bind {m : M α} {f : α → M β} (h : Gives (m >>= f) s y t) : ∃ x u, Gives m s x u ∧ Gives (f x) u y t := by
  simp only [Gives, StateT.run_bind] at h
  cases hm : m.run s with
  | error e => rw [hm] at h; cases h
  | ok p => exact ⟨p.1, p.2, hm, by rw [hm] at h; exact h⟩

/-! ### The access half -/

theorem ahAlu_pair (hexec : exec i = ahAlu i op d a b w) :
    AccessPair i d a b (fun _ x y => sext (widthOf w) (op.eval (widthOf w) x.toNat y.toNat)) := by
  intro s s1 s2 t x y hclear hbad hx hy hd hreads
  rw [Completes, hexec]
  exact run_ok hclear rfl hbad (hx.bind (hy.bind hd)) hreads

theorem exec_accessAlu (hp : p ∈ accessAlu) (d a b : BitVec 6) (w : BitVec 2) : exec (p.1 d a b w) = ahAlu (p.1 d a b w) p.2 d a b w := by
  unfold accessAlu at hp
  repeat
    obtain _ | ⟨_, hp⟩ := hp
    · rfl
  cases hp

theorem exec_amad_gives (d a b : BitVec 6) (w : BitVec 2) (hd : xOrZero d = true) :
    AccessPair (.amad d a b w) d a b (fun s x y => sext (widthOf w) ((s.xval d).toNat + x.toNat * y.toNat)) := by
  intro s s1 s2 t x y hclear hbad hx hy hpush hreads
  refine run_ok hclear rfl (by simp [hd, hbad]) ((Gives.xget d s).bind (hx.bind (hy.bind ?_))) hreads
  exact Eq.mp (congrArg (fun v => Does (ahPush d v) s2 t) (sext_congr (by simp [IntOp.eval, Nat.add_mod, Nat.mul_mod]))) hpush

/-- Settles O11: each word is one template over its operation. -/
theorem accessArithmeticWritesItsResult : Obligations.AccessArithmeticWritesItsResult :=
  ⟨fun _ hp d a b w => ahAlu_pair (exec_accessAlu hp d a b w), exec_amad_gives⟩

theorem ahImm_one (hexec : exec i = ahImm i op d a im) :
    AccessOne i d a (fun s x => w64 (op.eval 64 x.toNat (wi (s.imm im)).toNat)) := by
  intro s s1 t x hclear hbad hx hd hreads
  rw [Completes, hexec]
  exact run_ok hclear rfl hbad (hx.bind hd) hreads

theorem exec_accessImm (hp : p ∈ accessImm) (d a : BitVec 6) (im : BitVec 12) : exec (p.1 d a im) = ahImm (p.1 d a im) p.2 d a im := by
  unfold accessImm at hp
  repeat
    obtain _ | ⟨_, hp⟩ := hp
    · rfl
  cases hp

/-- Settles O12: each immediate form is one template over its operation. -/
theorem accessImmediatesWriteTheirResult : Obligations.AccessImmediatesWriteTheirResult := by
  refine ⟨fun _ hp d a im => ahImm_one (exec_accessImm hp d a im), ?_, ?_⟩
  · intro d im s t hclear hdst hd hreads
    exact run_ok hclear rfl (by simp [hdst]) hd hreads
  · intro d im s hclear hdst
    exact run_ok hclear rfl (by simp [hdst]) ((Gives.xget d s).bind (xset_gives d _ s)) (hclear.readsOk' (State.putX_issue s d _))

/-! ### The execute half -/

theorem ehAlu_word (hexec : exec i = ehAlu i op d a b w) :
    ExecuteWord i (fun s => !s.gBad d [a, b]) (gPop a) (gPop b) (fun _ x y => gPush d (sext (widthOf w) (op.eval (widthOf w) x.toNat y.toNat))) := by
  intro s s1 s2 t x y hclear hlegal hx hy hd hreads
  rw [Completes, hexec]
  exact run_ok hclear rfl (by simpa using hlegal) (hx.bind (hy.bind hd)) hreads

theorem exec_executeAlu (hp : p ∈ executeAlu) (d a b : BitVec 6) (w : BitVec 2) : exec (p.1 d a b w) = ehAlu (p.1 d a b w) p.2 d a b w := by
  unfold executeAlu at hp
  repeat
    obtain _ | ⟨_, hp⟩ := hp
    · rfl
  cases hp

theorem ehUnary_word (hexec : exec i = ehUnary i f d a w) :
    ExecuteWord i (fun s => !s.gBad d [a]) (gPop a) (pure ()) (fun _ x _ => gPush d (sext (widthOf w) (f (widthOf w) x.toNat))) := by
  intro s s1 s2 t x y hclear hlegal hx hy hd hreads
  obtain ⟨-, rfl⟩ := (Gives.pure () s1).unique hy
  rw [Completes, hexec]
  exact run_ok hclear rfl (by simpa using hlegal) (hx.bind hd) hreads

theorem exec_executeDivision (hp : p ∈ executeDivisions) (d a b : BitVec 6) (w : BitVec 2) :
    exec (p.1 d a b w) = ehDiv (p.1 d a b w) p.2.1 p.2.2 d a b w := by
  unfold executeDivisions at hp
  repeat
    obtain _ | ⟨_, hp⟩ := hp
    · rfl
  cases hp

theorem wrap_natCast (n v : Nat) : wrap n (v : Int) = v % 2 ^ n := by
  unfold wrap
  norm_cast

theorem wrap_neg_one (n : Nat) : wrap n (-1) = 2 ^ n - 1 := by
  have hpos : 1 ≤ 2 ^ n := Nat.one_le_two_pow
  have hmod : (-1 : Int) % ((2 ^ n : Nat) : Int) = ((2 ^ n - 1 : Nat) : Int) := by
    rw [show (-1 : Int) = ((2 ^ n - 1 : Nat) : Int) + ((2 ^ n : Nat) : Int) * (-1) by omega, Int.add_mul_emod_self_left]
    exact Int.emod_eq_of_lt (by omega) (by omega)
  rw [wrap, hmod, Int.toNat_natCast]

/-- Quotient and remainder of R124 are those of the signed or unsigned values, wrapped. -/
theorem divide_eq (signed : Bool) (n x y : Nat) :
    let u := x % 2 ^ n; let v := y % 2 ^ n
    let q : Int := if v = 0 then -1 else if signed then (sval n u).tdiv (sval n v) else ((u / v : Nat) : Int)
    let r : Int := if v = 0 then (u : Int) else if signed then (sval n u).tmod (sval n v) else ((u % v : Nat) : Int)
    divide signed n x y = (wrap n q, wrap n r, decide (v = 0)) := by
  intro u v q r
  have hu : u < 2 ^ n := Nat.mod_lt _ (Nat.two_pow_pos n)
  by_cases hv : v = 0
  · simp only [q, r, if_pos hv]
    rw [wrap_neg_one, wrap_natCast, Nat.mod_eq_of_lt hu]
    simp only [divide]
    rw [if_pos hv]
    simp [hv]
    rfl
  · have hdiv : divide signed n x y = if signed then (wrap n ((sval n u).tdiv (sval n v)), wrap n (sval n u - (sval n u).tdiv (sval n v) * sval n v), false)
        else (u / v, u % v, false) := by
      simp only [divide]
      rw [if_neg hv]
    rw [hdiv]
    simp only [q, r, if_neg hv, decide_eq_false hv]
    cases signed with
    | true =>
      have htmod : sval n u - (sval n u).tdiv (sval n v) * sval n v = (sval n u).tmod (sval n v) := by
        rw [Int.tmod_def, Int.mul_comm]
      simp [htmod]
    | false =>
      have hdivlt : u / v < 2 ^ n := Nat.lt_of_le_of_lt (Nat.div_le_self u v) hu
      have hmodlt : u % v < 2 ^ n := Nat.lt_of_le_of_lt (Nat.mod_le u v) hu
      simp only [Bool.false_eq_true, if_false, wrap_natCast, Nat.mod_eq_of_lt hdivlt, Nat.mod_eq_of_lt hmodlt]

/-- Settles O25: each word is one template over its operation, and the divisions are the wrapped ones of the operands' values. -/
theorem executeArithmeticWritesItsResult : Obligations.ExecuteArithmeticWritesItsResult := by
  refine ⟨fun _ hp d a b w => ehAlu_word (exec_executeAlu hp d a b w), fun d a w => ehUnary_word (f := leadingZeros) rfl,
    fun d a w => ehUnary_word (f := popCount) rfl, fun d a w => ehUnary_word (f := fun _ v => v) rfl, ?_, ?_⟩
  · intro d a b w s s1 s2 s3 t c x y hclear hd hbad hc hx hy hpush hreads
    exact run_ok hclear rfl (by simp [hd, hbad]) (hc.bind (hx.bind (hy.bind hpush))) hreads
  · intro p hp d a b w s s1 s2 t x y n u v q r hclear hbad hx hy hpush hreads
    have hdivide : divide p.2.1 n x.toNat y.toNat = (wrap n q, wrap n r, decide (v = 0)) := divide_eq p.2.1 n x.toNat y.toNat
    rw [Completes, exec_executeDivision hp]
    refine run_ok hclear rfl hbad (hx.bind (hy.bind ?_)) hreads
    show Does (do
      setFlags (flagIf (divide p.2.1 n x.toNat y.toNat).2.2 IDZ)
      gPush d (sext n (if p.2.2 then (divide p.2.1 n x.toNat y.toNat).2.1 else (divide p.2.1 n x.toNat y.toNat).1))) s2 t
    rw [hdivide]
    clear_value q r v
    refine (setFlags_gives _ _).bind ?_
    rw [← apply_ite (wrap n)]
    simpa only [flagIf, decide_eq_true_eq] using hpush

theorem ehImm_word (hexec : exec i = ehImm i op d a im) :
    ExecuteWord i (fun s => !s.gBad d [a]) (gPop a) (pure ()) (fun s x _ => gPush d (w64 (op.eval 64 x.toNat (wi (s.imm im)).toNat))) := by
  intro s s1 s2 t x y hclear hlegal hx hy hd hreads
  obtain ⟨-, rfl⟩ := (Gives.pure () s1).unique hy
  rw [Completes, hexec]
  exact run_ok hclear rfl (by simpa using hlegal) (hx.bind hd) hreads

theorem exec_executeImm (hp : p ∈ executeImm) (d a : BitVec 6) (im : BitVec 12) : exec (p.1 d a im) = ehImm (p.1 d a im) p.2 d a im := by
  unfold executeImm at hp
  repeat
    obtain _ | ⟨_, hp⟩ := hp
    · rfl
  cases hp

/-- Settles O26: the immediate forms are one template over their operation; FEAT's requirement is a part of its reading. -/
theorem executeImmediatesWriteTheirResult : Obligations.ExecuteImmediatesWriteTheirResult := by
  refine ⟨fun _ hp d a im => ehImm_word (exec_executeImm hp d a im), ?_, ?_, ?_⟩
  · intro d im s s1 s2 t x y hclear hlegal hx hy hd hreads
    obtain ⟨-, rfl⟩ := (Gives.pure () s).unique hx
    obtain ⟨-, rfl⟩ := (Gives.pure () s).unique hy
    exact run_ok hclear rfl (by simpa using hlegal) hd hreads
  · intro d im s s1 s2 t x y hclear hlegal hx hy hd hreads
    obtain ⟨-, rfl⟩ := (Gives.pure () s1).unique hy
    exact run_ok hclear rfl (by simpa using hlegal) (hx.bind hd) hreads
  · intro d a f s s1 s2 t x y hclear hlegal hx hy hd hreads
    obtain ⟨-, rfl⟩ := (Gives.pure () s1).unique hy
    refine run_ok hclear rfl (by simpa using hlegal) ?_ hreads
    obtain ⟨z, u, hz, hx⟩ := hx.of_bind
    obtain ⟨⟨⟩, u', hreq, hx⟩ := hx.of_bind
    obtain ⟨rfl, rfl⟩ := (Gives.pure z u').unique hx
    exact hz.bind (hreq.bind hd)

/-! ### Branches that the execute half decides -/

theorem bitVec2_cases (c : BitVec 2) : c = 0 ∨ c = 1 ∨ c = 2 ∨ c = 3 := by
  revert c
  decide

theorem epbCond_eq (c : BitVec 2) (x : W64) :
    epbCond c x = if c = 0 then x != 0 else if c = 1 then x == 0 else if c = 2 then bit x 63 else bit x 0 := by
  obtain rfl | rfl | rfl | rfl := bitVec2_cases c <;> rfl

/-- Settles O27: EPB has room on the branch queue, and EBNZ is a branch on its operand. -/
theorem executeBranchesDecide : Obligations.ExecuteBranchesDecide := by
  constructor
  · intro a c s s1 x hclear hsrc hx hreads hroom
    refine run_ok hclear rfl (by simp [hsrc]) (hx.bind ((checkReads_ok hreads).bind ((Gives.getCtx s1).bind ?_))) (hreads.onCur rfl)
    rw [if_pos hroom, hclear.1]
    exact (Gives.modCtx _ s1).to (State.onCur_congr (by rw [epbCond_eq]; rfl))
  · intro a z o s s1 x hclear hsrc hx hreads haddr
    have hbranch := branch_gives ((x != 0) == (z == 1)) (s.target o) s1
    refine ⟨fun htaken => ?_, fun hnot hgo => ?_⟩
    · simp only [htaken, if_true] at hbranch
      refine run_ok hclear rfl (by simp [hsrc]) (hx.bind ((checkReads_ok hreads).bind ?_)) (hreads.onCur rfl)
      rw [htaken]
      exact hbranch
    · simp only [hnot, haddr] at hbranch
      refine run_ok hclear rfl (by simp [hsrc]) (hx.bind ((checkReads_ok hreads).bind ?_)) hgo
      rw [hnot]
      exact hbranch

/-! ### Scalar floating words -/

theorem fpForm_pair (hexec : exec i = fpForm i d a b lane) : FloatPair i d a b lane := by
  intro s s1 s2 t x y hclear hlegal hx hy hd hreads
  rw [Completes, hexec]
  exact run_ok hclear rfl (by simpa using hlegal) (hx.bind (hy.bind (hd.bind (setFlags_gives _ t)))) (hreads.addFlags _)

theorem fpUnary_one (hexec : exec i = fpUnary i d a lane) : FloatOne i d a lane := by
  intro s s1 s2 t x y hclear hlegal hx hy hd hreads
  obtain ⟨-, rfl⟩ := (Gives.pure () s1).unique hy
  rw [Completes, hexec]
  exact run_ok hclear rfl (by simpa using hlegal) (hx.bind (hd.bind (setFlags_gives _ t))) (hreads.addFlags _)

/-- Settles O28: each word is one of two templates over its lane. -/
theorem floatingPointWordsWriteTheirCodeAndFlags : Obligations.FloatingPointWordsWriteTheirCodeAndFlags := by
  refine ⟨fun d a b r f => ⟨fpForm_pair rfl, fpForm_pair rfl, fpForm_pair rfl⟩, fun d a b f => ⟨fpForm_pair rfl, fpForm_pair rfl⟩,
    fun d a b o f => fpForm_pair rfl, fun d a b c f => fpForm_pair rfl, fun d a f => fpUnary_one rfl, fun d a r f => fpUnary_one rfl,
    fun d a k t c r => fpUnary_one rfl, ?_⟩
  intro d a b r f s s1 s2 s3 t c x y v hclear hd hbad hc hx hy hpush hreads
  exact run_ok hclear rfl (by simp [hd, hbad]) (hc.bind (hx.bind (hy.bind (hpush.bind (setFlags_gives _ t))))) (hreads.addFlags _)

end Sys2Proof.Machine

namespace Sys2Proof.Machine
/-!
SUPPORT. The vector words (10 R238-R258): each word is one of a few templates over its lane function, and a template goes on when its
operands are read and its result is written.
-/

open Sys2Proof

/-! ### The templates -/

theorem vMasked_word (hexec : exec i = vMasked i d a b m k w lane) : VectorMasked i d a b m k w lane := by
  intro s s1 s2 s3 s4 t act old x y r hclear hbad hact hold hx hy hd hreads
  rw [Completes, hexec]
  exact runV_ok hclear rfl hbad (hact.bind (hold.bind (hx.bind (hy.bind (hd.bind (setFlags_gives _ t)))))) (hreads.addFlags _)

theorem vLanes_word (hexec : exec i = vLanes i d a b w lane) : VectorLanes i d a b w (fun s _ => lane s) := by
  intro s s1 s2 t x y hclear hlegal hx hy hd hreads
  rw [Completes, hexec]
  exact runV_ok hclear rfl (by simpa using hlegal) (hx.bind (hy.bind (hd.bind (setFlags_gives _ t)))) (hreads.addFlags _)

theorem vUnary_word (hexec : exec i = vUnary i d a f) : VectorOne i d a f := by
  intro s s1 s2 t x y hclear hlegal hx hy hd hreads
  obtain ⟨-, rfl⟩ := (Gives.pure () s1).unique hy
  rw [Completes, hexec]
  exact runV_ok hclear rfl (by simpa using hlegal) (hx.bind (hd.bind (setFlags_gives _ t))) (hreads.addFlags _)

theorem vBoth_word (hexec : exec i = vBoth i d a b f) : VectorBoth i d a b f := by
  intro s s1 s2 t x y hclear hlegal hx hy hd hreads
  rw [Completes, hexec]
  exact runV_ok hclear rfl (by simpa using hlegal) (hx.bind (hy.bind hd)) hreads

theorem vPart_word {extra : Option (BitVec 6)} (hexec : exec i = vPart i d a extra.toList sw dw p f) : VectorPart i d a extra sw dw p f := by
  intro s s1 s2 s3 t old x y hclear hbad hold hx hy hd hreads
  rw [Completes, hexec]
  refine runV_ok hclear rfl hbad ?_ (hreads.addFlags _)
  have hrest : Does (do
      let x ← vPop a
      let y ← match extra.toList with
        | b :: _ => vPop b
        | [] => pure 0
      let r := partMap sw dw p (f s y) x.toNat old
      vPush d (BitVec.ofNat 128 r.1)
      setFlags r.2) s1 (t.addFlags (partMap sw dw p (f s y) x.toNat old).2) := by
    cases extra with
    | none => exact hx.bind (hy.bind (hd.bind (setFlags_gives _ t)))
    | some b => exact hx.bind (hy.bind (hd.bind (setFlags_gives _ t)))
  by_cases hpart : dw < sw ∧ d.toNat < 48
  · simp only [if_pos hpart] at hold ⊢
    exact hold.bind hrest
  · simp only [if_neg hpart] at hold ⊢
    exact hold.bind hrest

theorem vCount_word (hexec : exec i = vCount i d a m w f) :
    ExecuteWord i (fun s => s.ehDst false d && s.ehSrc true a) (activeLanes m 0 w) (vPop a) (fun _ act x => gPushV d (w64 (f
      ((List.range (128 / w)).map (fun j => act.getD j false && laneOf w x.toNat j % 2 == 1))))) := by
  intro s s1 s2 t act x hclear hlegal hact hx hd hreads
  rw [Completes, hexec]
  exact runV_ok hclear rfl (by simpa using hlegal) (hact.bind (hx.bind hd)) hreads

/-! ### The words -/

theorem exec_vectorAlu (hp : p ∈ vectorAlu) (d a b : BitVec 6) (m : BitVec 3) (k : BitVec 1) (w : BitVec 2) :
    exec (p.1 d a b m k w) = vInt (p.1 d a b m k w) p.2 d a b m k w := by
  unfold vectorAlu at hp
  repeat
    obtain _ | ⟨_, hp⟩ := hp
    · rfl
  cases hp

/-- Settles O29: the masked words are one template over their lane. -/
theorem maskedVectorWordsWriteTheirActiveLanes : Obligations.MaskedVectorWordsWriteTheirActiveLanes := by
  refine ⟨fun _ hp d a b m k w => vMasked_word (exec_vectorAlu hp d a b m k w),
    fun d a b m k w => ⟨vMasked_word rfl, vMasked_word rfl, vMasked_word rfl, vMasked_word rfl, vMasked_word rfl⟩, ?_⟩
  intro d a b m k w s s1 s2 s3 s4 t act c x y f r hclear hd hbad hact hc hx hy hpush hreads
  exact runV_ok hclear rfl (by simp [hd, hbad]) (hact.bind (hc.bind (hx.bind (hy.bind (hpush.bind (setFlags_gives _ t)))))) (hreads.addFlags _)

/-- VFRED's tree takes its operation by the word's code (R249). -/
theorem exec_vfred (d a : BitVec 6) (o f : BitVec 2) :
    exec (.vfred d a o f) = vUnary (.vfred d a o f) d a (fun s v =>
      tree (fun e x y => if o = 0 then FpOp.add.lane (fmtOf f) (s.mode 7 e) x y else pickLane (o != 1) (fmtOf f) x y) 0 8 (lanes (fmtOf f).width v)) := by
  obtain rfl | rfl | rfl | rfl := bitVec2_cases o <;> rfl

/-- Settles O30: the unmasked words are two templates over their lane, VFRED and VSEL with their own. -/
theorem vectorLaneWordsWriteTheirLanes : Obligations.VectorLaneWordsWriteTheirLanes := by
  refine ⟨fun d a b c w => vLanes_word rfl, fun d a b c f => vLanes_word rfl, fun d a b o f => vLanes_word rfl,
    fun d a b r w => vLanes_word rfl, ?_, fun d a f => vUnary_word rfl, fun d a o f => vUnary_word (exec_vfred d a o f), fun d a t f => vUnary_word rfl⟩
  intro d a b m w s s1 s2 s3 t sel x y n hclear hbad hsel hx hy hpush hreads
  exact runV_ok hclear rfl hbad (hsel.bind (hx.bind (hy.bind hpush))) hreads

/-- Settles O31: the conversions by parts are one template; VDOT reads its accumulator first. -/
theorem vectorConversionsWriteTheirPart : Obligations.VectorConversionsWriteTheirPart := by
  refine ⟨fun d a p t c r => vPart_word (extra := none) rfl, fun d a b p t f => vPart_word (extra := some b) rfl, fun d a b p t f => vPart_word (extra := some b) rfl, ?_⟩
  intro d a b r t s s1 s2 s3 u c x y l hclear hd hbad hc hx hy hpush hreads
  exact runV_ok hclear rfl (by simp [hd, hbad]) (hc.bind (hx.bind (hy.bind (hpush.bind (setFlags_gives _ u))))) (hreads.addFlags _)

/-- Settles O32: the moves are templates of one or two sources, or read their mask and old lanes first. -/
theorem vectorMovesPlaceTheirLanes : Obligations.VectorMovesPlaceTheirLanes := by
  refine ⟨fun d a b w k => vBoth_word rfl, fun d a b o w ho => vBoth_word (funext fun s => if_neg ho), fun d a b w => vUnary_word rfl,
    fun d a b m w => vBoth_word rfl, fun d a h g w => vUnary_word rfl, ?_, ?_, ?_, ?_, ?_, fun d a m w => ?_, fun d a m w => vCount_word (f := fun l => l.findIdx (fun p => p)) rfl⟩
  · intro d a m k w s s1 s2 s3 t act old x n hclear hbad hact hold hx hpush hreads
    exact runV_ok hclear rfl hbad (hact.bind (hold.bind (hx.bind hpush))) hreads
  · intro d a m k w s s1 s2 s3 t act old x n hclear hbad hsrc hact hold hx hpush hreads
    exact runV_ok hclear rfl (by simp [hbad, hsrc]) (hact.bind (hold.bind (hx.bind hpush))) hreads
  · intro d a b m k w s s1 s2 s3 s4 t act old x y n hclear hbad hact hold hx hy hpush hreads
    exact runV_ok hclear rfl hbad (hact.bind (hold.bind (hx.bind (hy.bind hpush)))) hreads
  · intro d a w k s s1 s2 t x y hclear hlegal hx hy hd hreads
    obtain ⟨-, rfl⟩ := (Gives.pure () s1).unique hy
    exact runV_ok hclear rfl (by simpa using hlegal) (hx.bind hd) hreads
  · intro d a w k s s1 s2 t x y hclear hlegal hx hy hd hreads
    exact runV_ok hclear rfl (by simpa using hlegal) (hx.bind (hy.bind hd)) hreads
  · intro s s1 s2 t act x hclear hlegal hact hx hd hreads
    refine vCount_word (f := fun l => (l.map b2n).sum) rfl s s1 s2 t act x hclear hlegal hact hx ?_ hreads
    dsimp only
    rw [List.map_map]
    exact hd

/-! ### CORDIC, stamped words, the fused update, the register store by address -/

theorem vStamped_word (hexec : exec i = vStamped i d a b lane) : VectorLanes i d a b 64 lane := by
  intro s s1 s2 t x y hclear hlegal hx hy hd hreads
  rw [Completes, hexec]
  exact runV_ok hclear rfl (by simpa using hlegal) (hx.bind (hy.bind (hd.bind (setFlags_gives _ t)))) (hreads.addFlags _)

/-- The legality of the CORDIC words, of its two spellings (R259). -/
theorem cordic_legal {fn : BitVec 4} {p bad : Bool} (h : (decide (fn.toNat ≤ 10) && (fn != 2 || p) && !bad) = true) :
    (decide (10 < fn.toNat) || (fn == 2 && !p) || bad) = false := by
  simp only [Bool.and_eq_true, Bool.or_eq_true, decide_eq_true_eq, bne_iff_ne, Bool.not_eq_true'] at h
  obtain ⟨⟨hfn, hp⟩, rfl⟩ := h
  rcases hp with hne | rfl
  · rw [beq_eq_false_iff_ne.2 hne]
    simp [hfn]
  · simp [hfn]

/-- Settles O33: each word reads its operands, writes its lane's result and adds its flags. -/
theorem cordicAndStampedWordsWriteTheirResult : Obligations.CordicAndStampedWordsWriteTheirResult := by
  refine ⟨?_, ?_, ?_, ?_, ?_, ?_, fun d a => vUnary_word rfl, fun d a b r => vStamped_word rfl, fun d a b r => vStamped_word rfl⟩
  · intro d a n fn legal s s1 s2 t y x hclear hlegal hy hx hd hreads
    refine runV_ok hclear rfl (cordic_legal hlegal) (hy.bind ?_) (hreads.addFlags _)
    by_cases hfn : fn = 2
    · simp only [if_pos hfn] at hx ⊢
      exact hx.bind (hd.bind (setFlags_gives _ t))
    · simp only [if_neg hfn] at hx ⊢
      exact hx.bind (hd.bind (setFlags_gives _ t))
  · intro d a n fn legal l s s1 s2 t y x hclear hlegal hy hx hd hreads
    refine runV_ok hclear rfl (cordic_legal hlegal) (hy.bind ?_) (hreads.addFlags _)
    by_cases hfn : fn = 2
    · simp only [if_pos hfn] at hx ⊢
      exact hx.bind (hd.bind (setFlags_gives _ t))
    · simp only [if_neg hfn] at hx ⊢
      exact hx.bind (hd.bind (setFlags_gives _ t))
  · intro d a c s s1 s2 t x y hclear hlegal hx hy hd hreads
    obtain ⟨-, rfl⟩ := (Gives.pure () s1).unique hy
    exact runV_ok hclear rfl (by simpa using hlegal) (hx.bind (hd.bind (setFlags_gives _ t))) (hreads.addFlags _)
  · intro d a s s1 s2 t x y hclear hlegal hx hy hd hreads
    obtain ⟨-, rfl⟩ := (Gives.pure () s1).unique hy
    exact runV_ok hclear rfl (by simpa using hlegal) (hx.bind (hd.bind (setFlags_gives _ t))) (hreads.addFlags _)
  · intro d a b r s s1 s2 t x y hclear hlegal hx hy hd hreads
    exact runV_ok hclear rfl (by simpa using hlegal) (hx.bind (hy.bind (hd.bind (setFlags_gives _ t)))) (hreads.addFlags _)
  · intro d a b r s s1 s2 t x y hclear hlegal hx hy hd hreads
    exact runV_ok hclear rfl (by simpa using hlegal) (hx.bind (hy.bind (hd.bind (setFlags_gives _ t)))) (hreads.addFlags _)

/-- Settles O34: VOPTW checks all that it has read before it writes its three registers. -/
theorem fusedUpdateWritesThreeRegisters : Obligations.FusedUpdateWritesThreeRegisters := by
  intro d a b p s s1 s2 s3 s4 s5 t1 t2 t3 g w m v h view l hclear hd ha hb hp hdb hdb1 hg hw hm hv hh hchecked hwb hwb1 hwd hreads
  have hlegal : (!gOnly d || !s.ehSrc true a || decide (46 < b.toNat) || decide (44 < p.toNat) || d == b || d.toNat == b.toNat + 1) = false := by
    simp [hd, ha, hb, hp, hdb, hdb1]
  exact runV_ok hclear rfl hlegal (hg.bind (hw.bind (hm.bind (hv.bind (hh.bind ((checkReads_ok hchecked).bind
    (hwb.bind (hwb1.bind (hwd.bind (setFlags_gives _ t3)))))))))) (hreads.addFlags _)

/-- Settles O35: the address is computed from the base, then the bytes are read or written there. -/
theorem registerStoreWordsReachTheirBytes : Obligations.RegisterStoreWordsReachTheirBytes := by
  constructor
  · intro d b o z s s1 s2 t base v n a hclear hb hbad hbase hv hd hreads
    refine runV_ok hclear rfl (by rw [hb, hbad]; rfl) (hbase.bind (hv.bind ?_)) hreads
    by_cases hz : z = 4
    · simp only [if_pos hz] at hd ⊢
      exact hd
    · simp only [if_neg hz] at hd ⊢
      exact hd
  · intro d b o z s s1 s2 t base v n a hclear hb hsrc hbase hv hchecked hd hreads
    refine runV_ok hclear rfl (by rw [hb, hsrc]; rfl) (hbase.bind ?_) hreads
    by_cases hz : z = 4
    · simp only [if_pos hz] at hv ⊢
      exact hv.bind ((checkReads_ok hchecked).bind hd)
    · simp only [if_neg hz] at hv ⊢
      exact hv.bind ((checkReads_ok hchecked).bind hd)

end Sys2Proof.Machine

namespace Sys2Proof.Machine
/-!
SUPPORT. Where operands are read from and written to (07 R158-R160): one lemma for each place an operand code names.
-/

open Sys2Proof

/-! ### Parts that go on, by their run -/

theorem Gives.run_bind {m : M α} {f : α → M β} (h : Gives m s x s1) : (m >>= f).run s = (f x).run s1 := by
  rw [StateT.run_bind, h]
  rfl

/-- A change of a core is judged at the value it changes. -/
theorem State.modCore_congr {s : State} {c : Nat} {f g : Core → Core} (h : f (s.core c) = g (s.core c)) : s.modCore c f = s.modCore c g := by
  unfold State.modCore tmod
  simp only [State.core] at h
  rw [h]

theorem ignoring_none {s : State} (h : s.issue.ign = []) (c : Nat) : Gives (ignoring c) s false s := by
  have := Gives.ignoring c s
  rwa [h] at this

/-! ### x registers -/

theorem State.putX_self {s : State} {d : BitVec 6} (v : W64) (h0 : 0 < d.toNat) (h : d.toNat < 32) (hx : tsorted s.cur.x = true) :
    (s.putX d v).xval d = v := by
  have hne : d.toNat ≠ 0 := Nat.ne_of_gt h0
  simp only [State.putX, if_pos h, State.xval]
  show Ctx.xreg (s.onCur _).cur d.toNat = v
  rw [State.onCur_cur]
  simp [Ctx.setX, Ctx.xreg, hne, tget_tset_self _ _ _ hx]

theorem Ctx.xreg_setX_ne (c : Ctx) (v : W64) (h : m ≠ n) : (c.setX n v).xreg m = c.xreg m := by
  unfold Ctx.setX Ctx.xreg
  split
  · rfl
  · split
    · rfl
    · exact tget_tset_ne _ _ _ _ h

theorem State.putX_ne {s : State} {d e : BitVec 6} (v : W64) (h : d ≠ e) : (s.putX d v).xval e = s.xval e := by
  have hne : e.toNat ≠ d.toNat := fun he => h (BitVec.eq_of_toNat_eq he.symm)
  unfold State.putX
  split
  · simp only [State.xval]
    split
    · show Ctx.xreg (s.onCur _).cur e.toNat = s.cur.xreg e.toNat
      rw [State.onCur_cur]
      exact Ctx.xreg_setX_ne _ _ hne
    · rfl
  · rfl

theorem State.putX_zero (s : State) (v : W64) : s.putX 0 v = s.onCur (fun c => c) := rfl

/-! ### The register store -/

theorem rsRead_gives (off n : Nat) (s : State) : ∃ t, Gives (rsRead off n) s (s.cur.rsGet off n) t ∧ t.quiet = s.quiet :=
  ⟨_, (Gives.change _ s).bind ((Gives.getCtx _).bind (Gives.pure _ _)), rfl⟩

theorem rsWrite_gives {s : State} (h : s.issue.ign = []) (off n v : Nat) : Does (rsWrite off n v) s (s.onCur (fun c => c.rsPut off n v)) :=
  (ignoring_none h 9).bind (Gives.modCtx _ s)

theorem gOnly_lt {c : BitVec 6} (h : gOnly c = true) : c.toNat < 48 := by simpa [gOnly] using h

theorem ehPop_reg {c : BitVec 6} (h : gOnly c = true) (off n : Nat) : ehPop off n c = rsRead off n := if_pos (gOnly_lt h)
theorem ehPush_reg {c : BitVec 6} (h : gOnly c = true) (off n v : Nat) : ehPush off n c v = rsWrite off n v := if_pos (gOnly_lt h)

/-! ### What a push judges first -/

theorem gPush_run {s : State} (h : s.readsOk) (c : BitVec 6) (v : W64) : (gPush c v).run s = (ehPush (8 * c.toNat) 8 c v.toNat).run s :=
  Gives.run_bind (checkReads_ok h)
theorem vPush_run {s : State} (h : s.readsOk) (c : BitVec 6) (v : W128) :
    (vPush c v).run s = (ehPush (vAddr s.issue.view c.toNat) 16 c v.toNat).run s :=
  (Gives.run_bind (checkReads_ok h)).trans (Gives.run_bind (Gives.get s))

/-! ### Queues, channels, walkers, the mailbox: what the code of an execute-half operand names -/

theorem ehPop_lq (off n : Nat) : ehPop off n 56 = (do let e ← popQ .lq; noteMark e.mark; pure (e.data.toNat % 2 ^ (8 * n))) := by
  simp [ehPop, walkerOf]
theorem ehPop_mail (off n : Nat) : ehPop off n 62 = (do return (← popMail).toNat) := by simp [ehPop, walkerOf]
theorem ehPop_none (off n : Nat) : ehPop off n 63 = pure 0 := by simp [ehPop, walkerOf]
theorem ehPop_chan {d : Nat} (h : d < 4) (off n : Nat) :
    ehPop off n (BitVec.ofNat 6 (58 + d)) = (do let e ← popChan d; noteMark e.mark; pure (e.data.toNat % 2 ^ (8 * n))) := by
  obtain rfl | rfl | rfl | rfl : d = 0 ∨ d = 1 ∨ d = 2 ∨ d = 3 := by omega
  all_goals simp [ehPop, walkerOf]
theorem ehPop_walker {w : Nat} (h : w < 8) (off n : Nat) : ehPop off n (BitVec.ofNat 6 (48 + w)) = popWalker w := by
  obtain rfl | rfl | rfl | rfl | rfl | rfl | rfl | rfl : w = 0 ∨ w = 1 ∨ w = 2 ∨ w = 3 ∨ w = 4 ∨ w = 5 ∨ w = 6 ∨ w = 7 := by omega
  all_goals simp [ehPop, walkerOf]

theorem ehPush_sq {s : State} (h : s.issue.ign = []) (off n v : Nat) :
    (ehPush off n 57 v).run s = (pushQ .sq { data := BitVec.ofNat 128 v }).run s := by
  simp [ehPush, walkerOf, (ignoring_none h 9).run_bind]
theorem ehPush_xq {s : State} (h : s.issue.ign = []) (off n v : Nat) :
    (ehPush off n 62 v).run s = (pushQ .xq { data := BitVec.ofNat 128 v }).run s := by
  simp [ehPush, walkerOf, (ignoring_none h 9).run_bind]
theorem ehPush_none (off n v : Nat) (s : State) : Does (ehPush off n 63 v) s s := by
  simp only [ehPush, walkerOf]
  exact (Gives.ignoring 9 s).bind (Gives.pure () s)
theorem ehPush_chan {s : State} (h : s.issue.ign = []) {d : Nat} (hd : d < 4) (off n v : Nat) :
    (ehPush off n (BitVec.ofNat 6 (58 + d)) v).run s = (pushChan d { data := BitVec.ofNat 128 v }).run s := by
  obtain rfl | rfl | rfl | rfl : d = 0 ∨ d = 1 ∨ d = 2 ∨ d = 3 := by omega
  all_goals simp [ehPush, walkerOf, (ignoring_none h 9).run_bind]
theorem ehPush_walker {s : State} (h : s.issue.ign = []) {w : Nat} (hw : w < 8) (off n v : Nat) :
    (ehPush off n (BitVec.ofNat 6 (48 + w)) v).run s = (pushWalker w (BitVec.ofNat 128 v).toNat).run s := by
  obtain rfl | rfl | rfl | rfl | rfl | rfl | rfl | rfl : w = 0 ∨ w = 1 ∨ w = 2 ∨ w = 3 ∨ w = 4 ∨ w = 5 ∨ w = 6 ∨ w = 7 := by omega
  all_goals simp [ehPush, walkerOf, (ignoring_none h 9).run_bind]

/-! ### Channels and the mailbox -/

theorem popChan_nil {s : State} (h : (s.core s.issue.core).chan d = []) : (popChan d).run s = .error (.stall []) := by
  refine Gives.throws (Gives.getCore s) ?_
  rw [h]
  rfl
theorem popChan_cons {s : State} (h : (s.core s.issue.core).chan d = e :: r) :
    Gives (popChan d) s e (s.onCore (fun c => c.setChan d r)) := by
  refine (Gives.getCore s).bind ?_
  rw [h]
  rfl
theorem popMail_nil {s : State} (h : (s.core s.issue.core).mail = []) : popMail.run s = .error (.stall []) := by
  refine Gives.throws (Gives.getCore s) ?_
  rw [h]
  rfl
theorem popMail_cons {s : State} (h : (s.core s.issue.core).mail = w :: r) : Gives popMail s w (s.onCore (fun c => { c with mail := r })) := by
  refine (Gives.getCore s).bind ?_
  rw [h]
  rfl

section
variable {s : State} {d : Nat} {e : Entry} (hpoint : s.pointPassed false)
include hpoint

/-- A push towards an absent neighbour is dropped and counted (R14). -/
theorem pushChan_absent (h : s.coreAbsent (neighbour s.issue.core d) = true) : Does (pushChan d e) s (s.onCore (fun c => c.diag 3 1)) := by
  refine (passPoint_gives hpoint).bind ((Gives.get s).bind ?_)
  rw [if_pos h]
  rfl

variable (hpresent : s.coreAbsent (neighbour s.issue.core d) = false) (hphase : (s.core (neighbour s.issue.core d)).phase ≠ .restore)
include hpresent hphase

theorem pushChan_full (h : 8 ≤ ((s.core (neighbour s.issue.core d)).chan ((d + 2) % 4)).length) :
    (pushChan d e).run s = .error (.stall []) := by
  refine (passPoint_gives hpoint).throws ((Gives.get s).throws ?_)
  rw [if_neg (by simp [hpresent]), if_neg hphase, if_neg (show ¬_ < Config.channelEntries from by simpa [Config.channelEntries] using h)]
  rfl

theorem pushChan_room (h : ((s.core (neighbour s.issue.core d)).chan ((d + 2) % 4)).length < 8) :
    let n := neighbour s.issue.core d; let b := (d + 2) % 4
    let t := s.modCore n (fun c => c.setChan b ((s.core n).chan b ++ [e]))
    Does (pushChan d e) s (if (s.core n).phase = .arrived ∧ (s.core n).slot = 0 then t.pend [.coreArrive n 0] else t) := by
  intro n b t
  refine (passPoint_gives hpoint).bind ((Gives.get s).bind ?_)
  rw [if_neg (by simp [hpresent]), if_neg hphase, if_pos (show _ < Config.channelEntries from h)]
  have ht : s.modCore n (fun c => c.setChan b (c.chan b ++ [e])) = t := State.modCore_congr rfl
  rw [← ht]
  rfl

end

/-! ### Walkers -/

theorem modWalker_gives (w : Nat) (f : Walker → Walker) (s : State) : Does (modWalker w f) s (s.onWalker w f) := rfl

section
variable {s : State} {w : Nat} (hactive : (s.walker w).active = true)
include hactive

theorem popWalker_spent (h : (s.walker w).count ≤ (s.walker w).index.toNat) :
    Gives (popWalker w) s 0 (s.onWalker w (fun k => { k with spent := true })) := by
  refine (Gives.get s).bind ?_
  rw [if_neg (by simp [hactive]), if_pos h]
  rfl

theorem pushWalker_spent (h : (s.walker w).count ≤ (s.walker w).index.toNat) (v : Nat) :
    Does (pushWalker w v) s (s.onWalker w (fun k => { k with spent := true })) := by
  refine (Gives.get s).bind ?_
  rw [if_neg (by simp [hactive]), if_pos h]
  rfl

variable (hleft : (s.walker w).index.toNat < (s.walker w).count)
include hleft

theorem pushWalker_full (h : 8 ≤ (s.walker w).held.length) (v : Nat) :
    (pushWalker w v).run s = .error (.stall [.walkerStoreWrite s.issue.core s.issue.ctx w]) := by
  refine (Gives.get s).throws ?_
  rw [if_neg (by simp [hactive]), if_neg (by omega), if_pos h]
  rfl

section
variable {l : Loc} (hl : l = s.locate s.issue.core ((s.walker w).addr (s.walker w).index.toNat) (s.walker w).size)
  (hpresent : ∀ i j, l ≠ .absent i j) (hfree : (s.core s.issue.core).busy l (s.walker w).size = false)
  (hheld : s.heldOver s.issue.core s.issue.ctx l (s.walker w).size = false)
include hl hpresent hfree hheld

/-- An active walker's next element at a place that nothing holds: not fetched yet, it is waited for (R191). -/
theorem popWalker_unfetched (hahead : s.ahAhead l (s.walker w).size false = false) (h : (s.walker w).fetched = 0) :
    (popWalker w).run s = .error (.stall [.walkerFetch s.issue.core s.issue.ctx w]) := by
  refine (Gives.get s).throws ?_
  rw [if_neg (by simp [hactive]), if_neg (by omega)]
  simp only [← hl]
  cases l with
  | absent i j => exact absurd rfl (hpresent i j)
  | unconf => simp only [hfree, hahead, hheld, h]; rfl
  | tcm off => simp only [hfree, hahead, hheld, h]; rfl
  | pad a b c d e => simp only [hfree, hahead, hheld, h]; rfl

/-- Fetched, its bytes are read and the walker goes on (R191). -/
theorem popWalker_fetched (hahead : s.ahAhead l (s.walker w).size false = false) (h : (s.walker w).fetched ≠ 0)
    (hsound : s.soundAt l ((s.walker w).addr (s.walker w).index.toNat) (s.walker w).size) :
    Gives (popWalker w) s (s.lreadAt s.issue.core l (s.walker w).size)
      (((s.onWalker w (fun k => { k.advance with fetched := k.fetched - 1 })).touched l).pend [.walkerFetch s.issue.core s.issue.ctx w]) := by
  obtain ⟨herr, hmark⟩ := hsound
  refine (Gives.get s).bind ?_
  rw [if_neg (by simp [hactive]), if_neg (by omega)]
  simp only [← hl]
  cases l with
  | absent i j => exact absurd rfl (hpresent i j)
  | unconf => simp only [hfree, hahead, hheld, h, herr, hmark]; rfl
  | tcm off => simp only [hfree, hahead, hheld, h, herr, hmark]; rfl
  | pad a b c d e => simp only [hfree, hahead, hheld, h, herr, hmark]; rfl

/-- A store walker with room takes the element's place and holds its bytes (R191). -/
theorem pushWalker_room (hahead : s.ahAhead l (s.walker w).size true = false) (h : (s.walker w).held.length < 8)
    (htake : s.takeEntry s.issue.core l = .ok (q, t)) (hissue : t.issue = s.issue) (v : Nat) :
    Does (pushWalker w v) s (((t.onCore (fun co => { co with accesses := co.accesses + 1 })).onWalker w (fun k =>
        { k.advance with held := k.held ++ [s.holding t l (s.walker w).size v q (fun p _ => p)] })).pend
      [.walkerStoreWrite s.issue.core s.issue.ctx w]) := by
  have hgoal : Does (do
      let h ← holdStore l (s.walker w).size v (fun p _ => p)
      modWalker w (fun k => { k.advance with held := k.held ++ h.toList })
      modify (fun t => t.pend [.walkerStoreWrite s.issue.core t.issue.ctx w])) s (((t.onCore (fun co => { co with accesses := co.accesses + 1 })).onWalker w
        (fun k => { k.advance with held := k.held ++ [s.holding t l (s.walker w).size v q (fun p _ => p)] })).pend
          [.walkerStoreWrite s.issue.core s.issue.ctx w]) := by
    have haccess : t.modCore s.issue.core (fun co => { co with accesses := (t.core s.issue.core).accesses + 1 }) =
        t.onCore (fun co => { co with accesses := co.accesses + 1 }) := by
      rw [State.onCore, hissue]
      exact State.modCore_congr rfl
    refine ((holdStore_gives htake).to haccess).bind ((modWalker_gives w _ _).bind ((Gives.change _ _).to ?_))
    rw [Option.toList_some, ← hissue]
    rfl
  refine (Gives.get s).bind ?_
  rw [if_neg (by simp [hactive]), if_neg (by omega), if_neg (by omega)]
  simp only [← hl]
  cases l with
  | absent i j => exact absurd rfl (hpresent i j)
  | unconf => simp only [hfree, hahead, hheld]; exact hgoal
  | tcm off => simp only [hfree, hahead, hheld]; exact hgoal
  | pad a b c d e => simp only [hfree, hahead, hheld]; exact hgoal

end
end

/-! ### The operand codes -/

theorem xOrZero_ne {c : BitVec 6} (h : xOrZero c = true) : c ≠ 56 ∧ c ≠ 57 := by
  revert c
  decide

theorem setWidth_eq_ofNat (v : W64) : BitVec.ofNat 128 v.toNat = v.setWidth 128 := BitVec.ofNat_toNat 128 v
theorem toNat_lt_128 (x : W128) : x.toNat % 2 ^ (8 * 16) = x.toNat := Nat.mod_eq_of_lt x.isLt

/-- The data of an entry read as a vector source. -/
theorem entry_vector (e : Entry) : BitVec.ofNat 128 (e.data.toNat % 2 ^ (8 * 16)) = e.data := by
  rw [toNat_lt_128, BitVec.ofNat_toNat, BitVec.setWidth_eq]

theorem gPop_gives (h : Gives (ehPop (8 * c.toNat) 8 c) s v t) : Gives (gPop c) s (w64 v) t := h.bind (Gives.pure _ _)
theorem vPop_gives (h : Gives (ehPop (vAddr s.issue.view c.toNat) 16 c) s v t) : Gives (vPop c) s (BitVec.ofNat 128 v) t :=
  (Gives.get s).bind (h.bind (Gives.pure _ _))
theorem gPop_throws (h : (ehPop (8 * c.toNat) 8 c).run s = .error e) : (gPop c).run s = .error e := throws_first h
theorem vPop_throws (h : (ehPop (vAddr s.issue.view c.toNat) 16 c).run s = .error e) : (vPop c).run s = .error e :=
  (Gives.get s).throws (throws_first h)

/-- A popped entry of the EH queue, with its mark noted. -/
theorem ehPop_lq_cons {s : State} (h : s.cur.lq = e :: r) (off n : Nat) :
    Gives (ehPop off n 56) s (e.data.toNat % 2 ^ (8 * n)) ((s.onCur (fun c => { c with lq := r })).noted e.mark) := by
  rw [ehPop_lq]
  exact (popQ_cons (q := .lq) h).bind ((noteMark_gives _ _).bind (Gives.pure _ _))

theorem ehPop_chan_cons {s : State} (hd : d < 4) (h : (s.core s.issue.core).chan d = e :: r) (off n : Nat) :
    Gives (ehPop off n (BitVec.ofNat 6 (58 + d))) s (e.data.toNat % 2 ^ (8 * n)) ((s.onCore (fun c => c.setChan d r)).noted e.mark) := by
  rw [ehPop_chan hd]
  exact (popChan_cons h).bind ((noteMark_gives _ _).bind (Gives.pure _ _))

/-- Settles O8: each clause is the lemma of its place. -/
theorem operandCodesReadAndWriteTheirPlace : Obligations.OperandCodesReadAndWriteTheirPlace := by
  refine ⟨fun s => ⟨rfl, rfl, fun v => ⟨rfl, rfl⟩⟩, fun c s h => ahPop_reg c s (xOrZero_ne h).1 (xOrZero_ne h).2,
    fun d v s h => ahPush_reg d v s (xOrZero_ne h).2, fun d v s h0 h hx => State.putX_self v h0 h hx, fun d e v s h => State.putX_ne v h,
    fun s e r => ⟨ahPop_xq, ahPop_sq, fun h => ?_, fun h => ?_⟩, fun s => ⟨fun h => ?_, fun h => ?_, fun h => ?_, fun h => ?_⟩,
    fun s v => ⟨ahPush_lq, pushQ_full (q := .lq)⟩, fun s v hr hi => ⟨fun h => ?_, fun h => ?_, fun h => ?_, fun h => ?_⟩,
    fun c s h => ?_, fun c s h => ?_, fun s => ⟨?_, ?_⟩, fun d v s hr hi hd => ?_, fun v s hr hi => ?_, fun d v s hr hi hd => ?_,
    fun s d hd => ⟨fun e r h => ⟨?_, ?_⟩, fun h => ⟨?_, ?_⟩⟩, ?_, ?_, ?_, fun s v hr hi => ⟨fun h => ?_, fun h => ?_⟩, fun s w r h => ?_⟩
  · exact gPop_gives (ehPop_lq_cons h _ 8)
  · exact (entry_vector e) ▸ vPop_gives (ehPop_lq_cons h _ 16)
  · exact throws_first (popQ_nil (q := .xq) h)
  · exact throws_first (popQ_nil (q := .sq) h)
  · exact gPop_throws (by rw [ehPop_lq]; exact throws_first (popQ_nil (q := .lq) h))
  · exact gPop_throws (by rw [ehPop_mail]; exact throws_first (popMail_nil h))
  · exact (gPush_run hr _ _).trans ((ehPush_sq hi _ _ _).trans (by rw [setWidth_eq_ofNat]; exact pushQ_room (q := .sq) h))
  · exact (gPush_run hr _ _).trans ((ehPush_sq hi _ _ _).trans (pushQ_full (q := .sq) h))
  · exact (gPush_run hr _ _).trans ((ehPush_xq hi _ _ _).trans (by rw [setWidth_eq_ofNat]; exact pushQ_room (q := .xq) h))
  · exact (gPush_run hr _ _).trans ((ehPush_xq hi _ _ _).trans (pushQ_full (q := .xq) h))
  · obtain ⟨t, hread, hquiet⟩ := rsRead_gives (8 * c.toNat) 8 s
    exact ⟨t, gPop_gives (by rw [ehPop_reg h]; exact hread), hquiet⟩
  · obtain ⟨t, hread, hquiet⟩ := rsRead_gives (vAddr s.issue.view c.toNat) 16 s
    exact ⟨t, vPop_gives (by rw [ehPop_reg h]; exact hread), hquiet⟩
  · exact gPop_gives (by rw [ehPop_none]; exact Gives.pure 0 s)
  · exact vPop_gives (by rw [ehPop_none]; exact Gives.pure 0 s)
  · exact (gPush_run hr _ _).trans (by rw [ehPush_reg hd]; exact rsWrite_gives hi _ _ _)
  · exact (gPush_run hr _ _).trans (ehPush_none _ _ _ s)
  · exact (vPush_run hr _ _).trans (by rw [ehPush_reg hd]; exact rsWrite_gives hi _ _ _)
  · exact gPop_gives (ehPop_chan_cons hd h _ 8)
  · exact (entry_vector e) ▸ vPop_gives (ehPop_chan_cons hd h _ 16)
  · exact gPop_throws (by rw [ehPop_chan hd]; exact throws_first (popChan_nil h))
  · exact vPop_throws (by rw [ehPop_chan hd]; exact throws_first (popChan_nil h))
  · intro s d m e code n b hd hr hi hpoint hm
    have hrun : m.run s = (pushChan d e).run s := by
      rcases hm with ⟨v, rfl, rfl⟩ | ⟨v, rfl, rfl⟩
      · rw [gPush_run hr, ehPush_chan hi hd, setWidth_eq_ofNat]
      · rw [vPush_run hr, ehPush_chan hi hd, BitVec.ofNat_toNat, BitVec.setWidth_eq]
    exact ⟨fun habs => hrun.trans (pushChan_absent hpoint habs), fun hpres hphase =>
      ⟨fun h => hrun.trans (pushChan_room hpoint hpres hphase h), fun h => hrun.trans (pushChan_full hpoint hpres hphase h)⟩⟩
  · intro s w code k c a l t hw hactive
    have hpop : ∀ off n, ehPop off n code = popWalker w := ehPop_walker hw
    refine ⟨fun hspent => ⟨?_, ?_⟩, fun hleft hpres hfree hahead hheld => ⟨fun h => ?_, fun h hsound => ⟨?_, ?_⟩⟩⟩
    · exact gPop_gives (by rw [hpop]; exact popWalker_spent hactive hspent)
    · exact vPop_gives (by rw [hpop]; exact popWalker_spent hactive hspent)
    · exact gPop_throws (by rw [hpop]; exact popWalker_unfetched hactive hleft rfl hpres hfree hheld hahead h)
    · exact gPop_gives (by rw [hpop]; exact popWalker_fetched hactive hleft rfl hpres hfree hheld hahead h hsound)
    · exact vPop_gives (by rw [hpop]; exact popWalker_fetched hactive hleft rfl hpres hfree hheld hahead h hsound)
  · intro s t w m v q code k c l h hw hactive hr hi hm
    have hrun : m.run s = (pushWalker w v.toNat).run s := by
      rcases hm with ⟨x, rfl, rfl⟩ | rfl
      · rw [gPush_run hr, ehPush_walker hi hw, setWidth_eq_ofNat]
      · rw [vPush_run hr, ehPush_walker hi hw, BitVec.ofNat_toNat, BitVec.setWidth_eq]
    exact ⟨fun hspent => hrun.trans (pushWalker_spent hactive hspent _), fun hleft hfull => hrun.trans (pushWalker_full hactive hleft hfull _),
      fun hleft hroom hpres hfree hahead hheld htake hissue =>
        hrun.trans (pushWalker_room hactive hleft rfl hpres hfree hheld hahead hroom htake hissue _)⟩
  · refine (vPush_run hr _ _).trans ((ehPush_sq hi _ _ _).trans ?_)
    rw [BitVec.ofNat_toNat, BitVec.setWidth_eq]
    exact pushQ_room (q := .sq) h
  · exact (vPush_run hr _ _).trans ((ehPush_sq hi _ _ _).trans (pushQ_full (q := .sq) h))
  · have hmail : Gives (ehPop (8 * (62 : BitVec 6).toNat) 8 62) s w.toNat (s.onCore (fun c => { c with mail := r })) := by
      rw [ehPop_mail]
      exact (popMail_cons h).bind (Gives.pure _ _)
    have hpop := gPop_gives hmail
    rwa [w64, BitVec.ofNat_toNat, BitVec.setWidth_eq] at hpop

end Sys2Proof.Machine

namespace Sys2Proof.Machine
/-!
SUPPORT. What the arithmetic of both halves leaves alone (01 R16, R17; 08 R180, R181; 09 R206, R207).
-/

open Sys2Proof

/-! ### A change of the issuing context changes nothing else -/

theorem State.onCur_core_ctxs (s : State) (f : Ctx → Ctx) (c : Nat) :
    { (s.onCur f).core c with ctxs := [] } = { s.core c with ctxs := [] } := by
  by_cases hc : c = s.issue.core
  · subst hc
    show { (s.modCore s.issue.core _).core s.issue.core with ctxs := [] } = _
    rw [State.modCore_same]
    rfl
  · show { (s.modCore s.issue.core _).core c with ctxs := [] } = _
    rw [State.modCore_other _ _ hc]

theorem State.onCur_ctx_other (s : State) (f : Ctx → Ctx) (h : c ≠ s.issue.core ∨ k ≠ s.issue.ctx) : (s.onCur f).ctx c k = s.ctx c k := by
  by_cases hc : c = s.issue.core
  · subst hc
    exact State.modCtx_other_ctx s f (h.resolve_left (by simp))
  · exact State.modCtx_other_core s f hc

/-- Two cores that differ in their contexts only hold the same memory. -/
theorem Core.memory_of_ctxs {x y : Core} (h : { x with ctxs := [] } = { y with ctxs := [] }) :
    x.tcm = y.tcm ∧ x.scratch = y.scratch ∧ x.undo = y.undo ∧ x.tcmcfg = y.tcmcfg ∧ x.flight = y.flight ∧ x.gstores = y.gstores :=
  ⟨(congrArg Core.tcm h :), (congrArg Core.scratch h :), (congrArg Core.undo h :), (congrArg Core.tcmcfg h :), (congrArg Core.flight h :),
    (congrArg Core.gstores h :)⟩

theorem State.onCur_onlyCur (s : State) (f : Ctx → Ctx) : s.onlyCur (s.onCur f).quiet :=
  ⟨⟨rfl, rfl, rfl, rfl, fun c => Core.memory_of_ctxs (State.onCur_core_ctxs s f c)⟩, rfl, rfl, rfl,
    fun _ _ h => State.onCur_ctx_other s f h, fun c => State.onCur_core_ctxs s f c⟩

theorem State.onlyCur_quiet (s : State) : s.onlyCur s.quiet :=
  ⟨⟨rfl, rfl, rfl, rfl, fun _ => ⟨rfl, rfl, rfl, rfl, rfl, rfl⟩⟩, rfl, rfl, rfl, fun _ _ _ => rfl, fun _ => rfl⟩

/-! ### The access half -/

theorem Ctx.setX_frame (c : Ctx) (n : Nat) (v : W64) : c.setX n v = { c with x := (c.setX n v).x } := by
  unfold Ctx.setX
  split <;> rfl

/-- A register written changes that register and nothing else. -/
theorem State.putX_frame (s : State) (d : BitVec 6) (v : W64) :
    s.onlyCur (s.putX d v).quiet ∧
      (s.putX d v).quiet.ctx s.issue.core s.issue.ctx = { s.cur with x := ((s.putX d v).quiet.ctx s.issue.core s.issue.ctx).x } ∧
      ∀ n, n ≠ d.toNat → ((s.putX d v).quiet.ctx s.issue.core s.issue.ctx).xreg n = s.cur.xreg n := by
  unfold State.putX
  split
  · have hcur : (s.onCur (fun c => c.setX d.toNat v)).ctx s.issue.core s.issue.ctx = s.cur.setX d.toNat v := State.onCur_cur s _
    refine ⟨State.onCur_onlyCur s _, ?_, fun n hn => ?_⟩
    · rw [State.quiet_get_ctx, hcur]
      exact Ctx.setX_frame _ _ _
    · rw [State.quiet_get_ctx, hcur]
      exact Ctx.xreg_setX_ne _ _ hn
  · exact ⟨State.onlyCur_quiet s, rfl, fun _ _ => rfl⟩

theorem aBad_plain {d : BitVec 6} {l : List (BitVec 6)} (hd : xOrZero d = true) (hl : ∀ c ∈ l, ahPlain c = true) : aBad d l = false := by
  have hdst : ∀ c : BitVec 6, xOrZero c = true → ahDst c = true := by decide
  have hsrc : ∀ c : BitVec 6, ahPlain c = true → ahSrc c = true := by decide
  rw [aBad, hdst d hd, Bool.not_true, Bool.false_or, List.any_eq_false]
  exact fun c hc => by simp [hsrc c (hl c hc)]

theorem ahPop_plain {c : BitVec 6} (h : ahPlain c = true) (s : State) : Gives (ahPop c) s ((s.xval c).setWidth 128) s :=
  ahPop_reg c s (xOrZero_ne h).1 (xOrZero_ne h).2

/-- An access-half word on registers is one write of its destination. -/
theorem access_register_word {s : State} {i : Instr} {d : BitVec 6} (hclear : s.clear i) (hd : xOrZero d = true)
    (hi : (∃ p ∈ accessAlu, ∃ a b w, i = p.1 d a b w ∧ ahPlain a = true ∧ ahPlain b = true) ∨ (∃ p ∈ accessImm, ∃ a im, i = p.1 d a im ∧ ahPlain a = true)) :
    ∃ v, exec i s = .next (s.putX d v).quiet := by
  have hpush : ∀ v, Does (ahPush d v) s (s.putX d v) := fun v => ahPush_reg d v s (xOrZero_ne hd).2
  have hreads : ∀ v, (s.putX d v).readsOk := fun v => hclear.readsOk' (State.putX_issue s d v)
  rcases hi with ⟨p, hp, a, b, w, rfl, ha, hb⟩ | ⟨p, hp, a, im, rfl, ha⟩
  · exact ⟨_, ahAlu_pair (exec_accessAlu hp d a b w) s s s _ _ _ hclear (aBad_plain hd (by simp [ha, hb])) (ahPop_plain ha s) (ahPop_plain hb s)
      (hpush _) (hreads _)⟩
  · exact ⟨_, ahImm_one (exec_accessImm hp d a im) s s _ _ hclear (aBad_plain hd (by simp [ha])) (ahPop_plain ha s) (hpush _) (hreads _)⟩

/-! ### The execute half -/

/-- The state once register bytes have been read, none of them marked: their lowest address is noted. -/
def State.lowRead (s : State) (low : Option Nat) : State := { s with issue := { s.issue with low := low } }

theorem foldl_keep {α β : Type} (a : α) (l : List β) : l.foldl (fun a _ => a) a = a := by
  induction l with
  | nil => rfl
  | cons b l ih => exact ih

theorem noteRead_unmarked {s : State} (h : s.cur.marks = []) (off n : Nat) : ∃ low, Does (noteRead off n) s (s.lowRead low) := by
  refine ⟨some (((List.range n).map (fun j => (off + j) % 2048)).foldl Nat.min (s.issue.low.getD 2048)), ?_⟩
  have hmarks : (s.ctx s.issue.core s.issue.ctx).marks = [] := h
  refine (Gives.change _ s).to ?_
  simp only [hmarks, tfind_nil, foldl_keep]
  rfl

theorem rsRead_unmarked {s : State} (h : s.cur.marks = []) (off n : Nat) : ∃ low, Gives (rsRead off n) s (s.cur.rsGet off n) (s.lowRead low) := by
  obtain ⟨low, hnote⟩ := noteRead_unmarked h off n
  exact ⟨low, hnote.bind ((Gives.getCtx _).bind (Gives.pure _ _))⟩

theorem gOrZero_cases {c : BitVec 6} (h : gOrZero c = true) : gOnly c = true ∨ c = 63 := by
  simpa [gOrZero, gOnly] using h

theorem gPop_plain {s : State} {c : BitVec 6} (hc : ehPlain c = true) (h : s.cur.marks = []) : ∃ v low, Gives (gPop c) s v (s.lowRead low) := by
  rcases gOrZero_cases hc with hg | rfl
  · obtain ⟨low, hread⟩ := rsRead_unmarked h (8 * c.toNat) 8
    exact ⟨_, low, gPop_gives (by rw [ehPop_reg hg]; exact hread)⟩
  · exact ⟨_, s.issue.low, gPop_gives (by rw [ehPop_none]; exact Gives.pure 0 s)⟩

theorem ehCode_plain (s : State) {c : BitVec 6} (h : gOrZero c = true) : s.ehSrc false c = true ∧ s.ehDst false c = true := by
  have hw : ∀ c : BitVec 6, gOrZero c = true → walkerOf c = none ∧ (decide (c.toNat < 48) || c == 63) = true := by decide
  obtain ⟨hwalker, hcode⟩ := hw c h
  simp only [State.ehSrc, State.ehDst, hwalker]
  simp only [Bool.or_eq_true, decide_eq_true_eq, beq_iff_eq] at hcode
  rcases hcode with h | rfl <;> simp [*]

theorem gBad_plain (s : State) {d : BitVec 6} {l : List (BitVec 6)} (hd : gOrZero d = true) (hl : ∀ c ∈ l, ehPlain c = true) : s.gBad d l = false := by
  rw [State.gBad, (ehCode_plain s hd).2, Bool.not_true, Bool.false_or, List.any_eq_false]
  exact fun c hc => by simp [(ehCode_plain s (hl c hc)).1]

/-- A register-store register written, or nothing for code 63. -/
def State.putG (s : State) (d : BitVec 6) (v : W64) : State := if d.toNat < 48 then s.onCur (fun c => c.rsPut (8 * d.toNat) 8 v.toNat) else s

theorem gPush_plain {s : State} {d : BitVec 6} (hd : gOrZero d = true) (hr : s.readsOk) (hi : s.issue.ign = []) (v : W64) :
    Does (gPush d v) s (s.putG d v) := by
  refine (gPush_run hr d v).trans ?_
  rcases gOrZero_cases hd with hg | rfl
  · rw [ehPush_reg hg, State.putG, if_pos (gOnly_lt hg)]
    exact rsWrite_gives hi _ _ _
  · exact ehPush_none _ _ _ s

/-- An execute-half word on registers that hold no mark is one write of its destination. -/
theorem execute_register_word {s : State} {i : Instr} {d : BitVec 6} (hclear : s.clear i) (hd : gOrZero d = true) (hm : s.cur.marks = [])
    (hp : s.cur.parityDue = false) (hi : (∃ p ∈ executeAlu, ∃ a b w, i = p.1 d a b w ∧ ehPlain a = true ∧ ehPlain b = true) ∨
      (∃ p ∈ executeImm, ∃ a im, i = p.1 d a im ∧ ehPlain a = true)) :
    ∃ v, exec i s = .next (s.putG d v).quiet := by
  have ⟨hign, _, hbad, _⟩ := hclear
  have hread : ∀ low, (s.lowRead low).readsOk := fun low => ⟨hbad, .inr hp⟩
  have hquiet : ∀ low v, ((s.lowRead low).putG d v).quiet = (s.putG d v).quiet := by
    intro low v
    unfold State.putG
    split <;> rfl
  have hout : ∀ low v, ((s.lowRead low).putG d v).readsOk := by
    intro low v
    unfold State.putG
    split
    · exact (hread low).onCur rfl
    · exact hread low
  have hpush : ∀ low v, Does (gPush d v) (s.lowRead low) ((s.lowRead low).putG d v) := fun low v => gPush_plain hd (hread low) hign v
  rcases hi with ⟨p, hp, a, b, w, rfl, ha, hb⟩ | ⟨p, hp, a, im, rfl, ha⟩
  · obtain ⟨x, low1, hx⟩ := gPop_plain ha hm
    obtain ⟨y, low2, hy⟩ := gPop_plain (s := s.lowRead low1) hb hm
    have hword := ehAlu_word (exec_executeAlu hp d a b w) s _ _ _ x y hclear (by simp [gBad_plain s hd (l := [a, b]) (by simp [ha, hb])]) hx hy
      (hpush low2 _) (hout low2 _)
    exact ⟨_, hword.trans (congrArg _ (hquiet low2 _))⟩
  · obtain ⟨x, low1, hx⟩ := gPop_plain ha hm
    have hword := ehImm_word (exec_executeImm hp d a im) s _ _ _ x () hclear (by simp [gBad_plain s hd (l := [a]) (by simp [ha])]) hx (Gives.pure () _)
      (hpush low1 _) (hout low1 _)
    exact ⟨_, hword.trans (congrArg _ (hquiet low1 _))⟩

theorem tget_foldl_tset_ne (f : Nat → Nat) (g : Nat → Byte) (l : List Nat) (m : Tab Byte) (n : Nat) (h : ∀ j ∈ l, n ≠ f j) :
    tget (l.foldl (fun m j => tset m (f j) (g j) 0) m) n 0 = tget m n 0 := by
  induction l generalizing m with
  | nil => rfl
  | cons j r ih =>
    rw [List.foldl_cons, ih _ (fun k hk => h k (by simp [hk]))]
    exact tget_tset_ne _ _ _ _ (h j (by simp))

theorem Ctx.rsPut_unmarked {c : Ctx} (h : c.marks = []) (off n v : Nat) : c.rsPut off n v = { c with rs := (c.rsPut off n v).rs } := by
  have hdel : ∀ l : List Nat, l.foldl (fun m j => tdel m ((off + j) % 2048)) ([] : Tab Mark) = [] := by
    intro l
    induction l with
    | nil => rfl
    | cons j r ih => exact ih
  simp only [Ctx.rsPut, h, hdel]

/-- A register-store register written changes its bytes and nothing else. -/
theorem State.putG_frame {s : State} (h : s.cur.marks = []) (d : BitVec 6) (v : W64) :
    s.onlyCur (s.putG d v).quiet ∧
      (s.putG d v).quiet.ctx s.issue.core s.issue.ctx = { s.cur with rs := ((s.putG d v).quiet.ctx s.issue.core s.issue.ctx).rs } ∧
      ∀ n, n < 2048 → ¬ (8 * d.toNat ≤ n ∧ n < 8 * d.toNat + 8) →
        tget ((s.putG d v).quiet.ctx s.issue.core s.issue.ctx).rs n 0 = tget s.cur.rs n 0 := by
  unfold State.putG
  split
  · have hcur : (s.onCur (fun c => c.rsPut (8 * d.toNat) 8 v.toNat)).ctx s.issue.core s.issue.ctx = s.cur.rsPut (8 * d.toNat) 8 v.toNat :=
      State.onCur_cur s _
    refine ⟨State.onCur_onlyCur s _, ?_, fun n hn hout => ?_⟩
    · rw [State.quiet_get_ctx, hcur]
      exact Ctx.rsPut_unmarked h _ _ _
    · rw [State.quiet_get_ctx, hcur]
      refine tget_foldl_tset_ne _ _ _ _ _ fun j hj => ?_
      have hj8 := List.mem_range.1 hj
      omega
  · exact ⟨State.onlyCur_quiet s, rfl, fun _ _ _ => rfl⟩

/-- Settles O9: each word is one write of its destination register. -/
theorem registerWordsChangeNothingElse : Obligations.RegisterWordsChangeNothingElse := by
  constructor
  · intro s i d hclear hd hi
    obtain ⟨v, hexec⟩ := access_register_word hclear hd hi
    exact ⟨_, hexec, State.putX_frame s d v⟩
  · intro s i d hclear hd hm hp hi
    obtain ⟨v, hexec⟩ := execute_register_word hclear hd hm hp hi
    exact ⟨_, hexec, State.putG_frame hm d v⟩

end Sys2Proof.Machine

namespace Sys2Proof.Machine
/-!
SUPPORT. Stores and their bytes (04 R73, R82, R84, R85; 05 R108; 08 R187): what the updates of a core and a cluster leave of their
bytes, and what a store writes.
-/

open Sys2Proof

/-! ### Tables written at several places -/

theorem tfind_foldl_tput_ne (f : Nat → Nat) (g : Nat → α) (l : List Nat) (m : Tab α) (n : Nat) (h : ∀ j ∈ l, n ≠ f j) :
    tfind (l.foldl (fun m j => tput m (f j) (g j)) m) n = tfind m n := by
  induction l generalizing m with
  | nil => rfl
  | cons j r ih =>
    rw [List.foldl_cons, ih _ (fun k hk => h k (by simp [hk]))]
    exact tfind_tput_ne _ _ (h j (by simp))

theorem tfind_foldl_tput_self (f : Nat → Nat) (g : Nat → α) {l : List Nat} (m : Tab α) {j : Nat} (hj : j ∈ l)
    (hf : ∀ i ∈ l, f i = f j → i = j) : tfind (l.foldl (fun m i => tput m (f i) (g i)) m) (f j) = some (g j) := by
  induction l generalizing m with
  | nil => cases hj
  | cons i r ih =>
    rw [List.foldl_cons]
    by_cases hr : j ∈ r
    · exact ih _ hr (fun k hk => hf k (by simp [hk]))
    · obtain rfl : j = i := (List.mem_cons.1 hj).resolve_right hr
      rw [tfind_foldl_tput_ne _ _ _ _ _ fun k hk he => hr (hf k (List.mem_cons_of_mem _ hk) he.symm ▸ hk)]
      exact tfind_tput_self _ _ _

/-! ### The bytes of a scratchpad -/

theorem Cluster.padByte_of_pad {x y : Cluster} (hp : x.pad = y.pad) (hl : x.lost = y.lost) (k a : Nat) : x.padByte k a = y.padByte k a := by
  simp only [Cluster.padByte, Cluster.era, hp, hl]

theorem Cluster.logLine_padByte (x : Cluster) (num line : Nat) (e : Bool) (k a : Nat) : (x.logLine num line e).padByte k a = x.padByte k a := by
  unfold Cluster.logLine
  split <;> rfl

theorem Cluster.putPads_other (x : Cluster) (off n v k a : Nat) (h : ∀ j, j < n → a ≠ (off + j) % Config.padBytes) :
    (x.putPads off n v).padByte k a = x.padByte k a := by
  unfold Cluster.padByte
  rw [show tfind (x.putPads off n v).pad a = tfind x.pad a from
    tfind_foldl_tput_ne _ _ _ _ _ fun j hj => h j (List.mem_range.1 hj)]
  rfl

theorem Cluster.putPads_self (x : Cluster) (off n v k j : Nat) (hn : n ≤ Config.padBytes) (hj : j < n) :
    (x.putPads off n v).padByte k ((off + j) % Config.padBytes) = byteOf v j := by
  have hinj : ∀ i ∈ List.range n, (off + i) % Config.padBytes = (off + j) % Config.padBytes → i = j := by
    intro i hi he
    have hi := List.mem_range.1 hi
    unfold Config.padBytes at *
    omega
  unfold Cluster.padByte
  rw [show tfind (x.putPads off n v).pad ((off + j) % Config.padBytes) = some (byteOf v j) from
    tfind_foldl_tput_self (fun i => (off + i) % Config.padBytes) (byteOf v) _ (List.mem_range.2 hj) hinj]
  rfl

/-! ### The bytes of a TCM -/

theorem Core.logLine_eq (x : Core) (num line : Nat) (e : Bool) :
    (x.logLine num line e).ctxs = x.ctxs ∧ (x.logLine num line e).tcm = x.tcm ∧ ∀ k a, (x.logLine num line e).tcmByte k a = x.tcmByte k a := by
  unfold Core.logLine
  split <;> exact ⟨rfl, rfl, fun _ _ => rfl⟩

theorem Core.putTcm_other (x : Core) (b : Byte) (k : Nat) (h : a ≠ off) : (x.putTcm off b).tcmByte k a = x.tcmByte k a := by
  unfold Core.putTcm
  split
  · simp only [Core.tcmByte, tfind_tput_ne _ _ h]
  · simp only [Core.tcmByte, tget_tset_ne _ _ _ _ h]

theorem Core.putTcm_self (x : Core) (b : Byte) (k : Nat) (h : tsorted x.tcm = true) : (x.putTcm off b).tcmByte k off = b := by
  unfold Core.putTcm
  split
  · simp only [Core.tcmByte, *]
    simp
  · simp only [Core.tcmByte, *]
    simp [tget_tset_self _ _ _ h]

theorem Core.putTcm_sorted (x : Core) (off : Nat) (b : Byte) (h : tsorted x.tcm = true) : tsorted (x.putTcm off b).tcm = true := by
  unfold Core.putTcm
  split
  · exact h
  · exact tsorted_tset _ _ _ h

theorem Core.putTcm_ctxs (x : Core) (off : Nat) (b : Byte) : (x.putTcm off b).ctxs = x.ctxs := by
  unfold Core.putTcm
  split <;> rfl

theorem Core.foldl_putTcm_other (g : Nat → Byte) (l : List Nat) (x : Core) (off k a : Nat) (h : ∀ j ∈ l, a ≠ off + j) :
    (l.foldl (fun c i => c.putTcm (off + i) (g i)) x).tcmByte k a = x.tcmByte k a := by
  induction l generalizing x with
  | nil => rfl
  | cons j r ih =>
    rw [List.foldl_cons, ih _ (fun i hi => h i (by simp [hi]))]
    exact Core.putTcm_other x _ k (h j (by simp))

theorem Core.foldl_putTcm_self (g : Nat → Byte) {l : List Nat} (x : Core) (off k : Nat) {j : Nat} (hj : j ∈ l) (h : tsorted x.tcm = true) :
    (l.foldl (fun c i => c.putTcm (off + i) (g i)) x).tcmByte k (off + j) = g j := by
  induction l generalizing x with
  | nil => cases hj
  | cons i r ih =>
    rw [List.foldl_cons]
    by_cases hr : j ∈ r
    · exact ih _ hr (Core.putTcm_sorted _ _ _ h)
    · obtain rfl : j = i := (List.mem_cons.1 hj).resolve_right hr
      rw [Core.foldl_putTcm_other _ _ _ _ _ _ fun i hi he => hr (by rwa [show j = i by omega])]
      exact Core.putTcm_self x _ k h

theorem Core.putTcms_other (x : Core) (off n v k a : Nat) (h : ¬ (off ≤ a ∧ a < off + n)) : (x.putTcms off n v).tcmByte k a = x.tcmByte k a := by
  refine (Core.foldl_putTcm_other _ _ _ _ _ _ fun j hj he => h ?_).trans rfl
  have hj := List.mem_range.1 hj
  omega

theorem Core.putTcms_self (x : Core) (off n v k j : Nat) (hj : j < n) (h : tsorted x.tcm = true) :
    (x.putTcms off n v).tcmByte k (off + j) = byteOf v j := by
  exact Core.foldl_putTcm_self (byteOf v) { x with bad := _, marked := _ } off k (List.mem_range.2 hj) h

theorem Core.putTcms_ctxs (x : Core) (off n v : Nat) : (x.putTcms off n v).ctxs = x.ctxs := by
  have hfold : ∀ (l : List Nat) (y : Core), (l.foldl (fun c i => c.putTcm (off + i) (byteOf v i)) y).ctxs = y.ctxs := by
    intro l
    induction l with
    | nil => exact fun _ => rfl
    | cons j r ih => exact fun y => (ih _).trans (Core.putTcm_ctxs y _ _)
  exact hfold _ _

/-! ### HBM under a mask -/

theorem State.hputb_sorted {s : State} (h : tsorted s.hbm = true) (a : Nat) (b : Byte) : tsorted (s.hputb a b).hbm = true := tsorted_tset _ _ _ h

/-- The bytes that a masked write selects hold its value afterwards, and no other byte changes (R73). -/
theorem State.hwriteMask_bytes {s : State} (a n v m : Nat) (h : tsorted s.hbm = true) :
    (∀ x, (∀ j, j < n → m.testBit j = true → x ≠ a + j) → (s.hwriteMask a n v m).hbyte x = s.hbyte x) ∧
      ∀ j, j < n → m.testBit j = true → (s.hwriteMask a n v m).hbyte (a + j) = byteOf v j := by
  have hother : ∀ (l : List Nat) (s : State) x, (∀ j ∈ l, m.testBit j = true → x ≠ a + j) →
      (l.foldl (fun s i => if m.testBit i then s.hputb (a + i) (byteOf v i) else s) s).hbyte x = s.hbyte x := by
    intro l
    induction l with
    | nil => exact fun _ _ _ => rfl
    | cons i r ih =>
      intro s x hx
      rw [List.foldl_cons, ih _ _ (fun j hj => hx j (by simp [hj]))]
      split
      · exact State.hbyte_hputb_other s _ (hx i (by simp) ‹_›)
      · rfl
  have hself : ∀ (l : List Nat) (s : State) j, j ∈ l → m.testBit j = true → tsorted s.hbm = true →
      (l.foldl (fun s i => if m.testBit i then s.hputb (a + i) (byteOf v i) else s) s).hbyte (a + j) = byteOf v j := by
    intro l
    induction l with
    | nil => exact fun _ _ hj => by cases hj
    | cons i r ih =>
      intro s j hj hm hs
      rw [List.foldl_cons]
      by_cases hr : j ∈ r
      · refine ih _ _ hr hm ?_
        split
        · exact State.hputb_sorted hs _ _
        · exact hs
      · obtain rfl : j = i := (List.mem_cons.1 hj).resolve_right hr
        rw [hother _ _ _ fun i hi _ he => hr (by rwa [show j = i by omega]), if_pos hm]
        exact tget_tset_self _ _ _ hs
  exact ⟨fun x hx => hother _ s x fun j hj => hx j (List.mem_range.1 hj), fun j hj hm => hself _ s j (List.mem_range.2 hj) hm h⟩


/-! ### Updates that keep bytes -/

/-- From s to t no register, no memory of the device and no byte of a TCM or scratchpad changes, besides the bytes A and B. -/
structure State.KeepsBytes (A B : Nat → Nat → Prop) (s t : State) : Prop where
  issue : t.issue = s.issue
  hbm : t.hbm = s.hbm
  plat : t.plat = s.plat
  teams : t.teams = s.teams
  domains : t.domains = s.domains
  dies : t.dies = s.dies
  ctx : ∀ c k, t.ctx c k = s.ctx c k
  tcm : ∀ c a, ¬ A c a → (t.core c).tcmByte c a = (s.core c).tcmByte c a
  pad : ∀ k a, ¬ B k a → (t.cluster k).padByte k a = (s.cluster k).padByte k a

theorem State.KeepsBytes.refl (A B : Nat → Nat → Prop) (s : State) : s.KeepsBytes A B s :=
  ⟨rfl, rfl, rfl, rfl, rfl, rfl, fun _ _ => rfl, fun _ _ _ => rfl, fun _ _ _ => rfl⟩

theorem State.KeepsBytes.trans {A B : Nat → Nat → Prop} {s t u : State} (h : s.KeepsBytes A B t) (g : t.KeepsBytes A B u) : s.KeepsBytes A B u :=
  ⟨g.issue.trans h.issue, g.hbm.trans h.hbm, g.plat.trans h.plat, g.teams.trans h.teams, g.domains.trans h.domains, g.dies.trans h.dies,
    fun c k => (g.ctx c k).trans (h.ctx c k), fun c a ha => (g.tcm c a ha).trans (h.tcm c a ha), fun k a ha => (g.pad k a ha).trans (h.pad k a ha)⟩

theorem State.KeepsBytes.modCore {A B : Nat → Nat → Prop} {s : State} {c : Nat} {f : Core → Core} (hctx : (f (s.core c)).ctxs = (s.core c).ctxs)
    (hb : ∀ a, ¬ A c a → (f (s.core c)).tcmByte c a = (s.core c).tcmByte c a) : s.KeepsBytes A B (s.modCore c f) where
  issue := rfl
  hbm := rfl
  plat := rfl
  teams := rfl
  domains := rfl
  dies := rfl
  pad _ _ _ := rfl
  ctx x y := by
    by_cases h : x = c
    · subst h
      simp only [State.ctx, Core.ctx, State.modCore_same, hctx]
    · simp only [State.ctx, State.modCore_other _ _ h]
  tcm x a ha := by
    by_cases h : x = c
    · subst h
      rw [State.modCore_same, hb a ha]
    · rw [State.modCore_other _ _ h]

theorem State.KeepsBytes.modCluster {A B : Nat → Nat → Prop} {s : State} {k : Nat} {f : Cluster → Cluster}
    (hb : ∀ a, ¬ B k a → (f (s.cluster k)).padByte k a = (s.cluster k).padByte k a) : s.KeepsBytes A B (s.modCluster k f) where
  issue := rfl
  hbm := rfl
  plat := rfl
  teams := rfl
  domains := rfl
  dies := rfl
  ctx _ _ := rfl
  tcm _ _ _ := rfl
  pad x a ha := by
    by_cases h : x = k
    · subst h
      rw [State.modCluster_same, hb a ha]
    · rw [State.modCluster_other _ _ h]

theorem State.KeepsBytes.pend {A B : Nat → Nat → Prop} {s t : State} (h : s.KeepsBytes A B t) (l : List Chore) : s.KeepsBytes A B (t.pend l) :=
  ⟨h.issue, h.hbm, h.plat, h.teams, h.domains, h.dies, h.ctx, h.tcm, h.pad⟩

theorem State.takeSeq_keeps (A B : Nat → Nat → Prop) (s : State) (c : Nat) : s.KeepsBytes A B (s.takeSeq c).2 :=
  .modCore rfl fun _ _ => rfl

theorem State.emitLine_keeps (A B : Nat → Nat → Prop) (s : State) (c seq : Nat) (tg : Target) (off n v : Nat) :
    s.KeepsBytes A B (s.emitLine c seq tg off n v) := by
  unfold State.emitLine
  split
  · exact .modCore rfl fun _ _ => rfl
  · unfold State.emit
    apply State.KeepsBytes.pend
    exact .modCore rfl fun _ _ => rfl

theorem State.takeEntry_keeps (A B : Nat → Nat → Prop) {s t : State} {c q : Nat} {l : Loc} (h : s.takeEntry c l = .ok (q, t)) :
    s.KeepsBytes A B t := by
  unfold State.takeEntry at h
  cases l with
  | unconf => cases h; exact .refl A B _
  | absent => cases h; exact .refl A B _
  | tcm off =>
    dsimp only at h
    repeat' split at h
    all_goals cases h
    · exact .refl A B _
    · exact .modCore (Core.logLine_eq _ _ _ _).1 fun a _ => (Core.logLine_eq _ _ _ _).2.2 _ a
  | pad off cls owner win woff =>
    dsimp only at h
    repeat' split at h
    all_goals cases h
    · exact .refl A B _
    · exact .refl A B _
    · exact .modCluster fun a _ => Cluster.logLine_padByte _ _ _ _ _ a
    · exact (State.takeSeq_keeps A B s c).trans (.modCluster fun _ _ => rfl)

/-! ### What a store writes -/

/-- A store of the path that is written changes the bytes at its place and no other. -/
theorem State.lwriteAt_keeps {s u : State} {c n v q : Nat} {l : Loc} (h : s.lwriteAt c l n v (some q) = .ok u) :
    s.KeepsBytes (fun k a => k = c ∧ l.coversTcm n a) (fun k a => k = clusterOf c ∧ l.coversPad c n a) u := by
  cases l with
  | unconf => cases h; exact .refl _ _ _
  | absent => cases h; exact .refl _ _ _
  | tcm off =>
    have hnot : ∀ a, ¬ (c = c ∧ (Loc.tcm off).coversTcm n a) → ¬ (off ≤ a ∧ a < off + n) := fun a ha hr => ha ⟨rfl, off, rfl, hr⟩
    unfold State.lwriteAt at h
    dsimp only at h
    repeat' split at h
    all_goals cases h
    · exact .modCore (Core.putTcms_ctxs _ _ _ _) fun a ha => Core.putTcms_other _ _ _ _ _ _ (hnot a ha)
    · obtain ⟨hctxs, -, hbyte⟩ := Core.logLine_eq (s.core c) c (off / 64) true
      exact .modCore ((Core.putTcms_ctxs _ _ _ _).trans hctxs) fun a ha => (Core.putTcms_other _ _ _ _ _ _ (hnot a ha)).trans (hbyte c a)
  | pad off cls owner win woff =>
    have hnot : cls = 0 ∨ cls ≠ 2 ∧ owner = inCluster c → ∀ a, ¬ (clusterOf c = clusterOf c ∧ (Loc.pad off cls owner win woff).coversPad c n a) →
        ∀ j, j < n → a ≠ (off + j) % Config.padBytes :=
      fun hc a ha j hj he => ha ⟨rfl, off, cls, owner, win, woff, rfl, hc, j, hj, he⟩
    unfold State.lwriteAt at h
    dsimp only at h
    repeat' split at h
    all_goals cases h
    · exact .modCluster fun a ha => Cluster.putPads_other _ _ _ _ _ _ (hnot (.inl ‹_›) a ha)
    · exact .modCore rfl fun _ _ => rfl
    · exact .modCluster fun a ha => (Cluster.putPads_other _ _ _ _ _ _ (hnot (.inr ⟨‹_›, ‹_›⟩) a ha)).trans (Cluster.logLine_padByte _ _ _ _ _ a)
    · exact State.emitLine_keeps _ _ _ _ _ _ _ _ _

theorem State.lwriteAt_tcm_bytes {s u : State} {c n v q off : Nat} (h : s.lwriteAt c (.tcm off) n v (some q) = .ok u) (hs : tsorted (s.core c).tcm = true)
    {j : Nat} (hj : j < n) : (u.core c).tcmByte c (off + j) = byteOf v j := by
  unfold State.lwriteAt at h
  dsimp only at h
  repeat' split at h
  all_goals cases h
  · rw [State.modCore_same]
    exact Core.putTcms_self _ _ _ _ _ _ hj hs
  · rw [State.modCore_same]
    exact Core.putTcms_self _ _ _ _ _ _ hj (by rwa [(Core.logLine_eq _ _ _ _).2.1])

theorem State.lwriteAt_pad_bytes {s u : State} {c n v q off cls owner win woff : Nat}
    (h : s.lwriteAt c (.pad off cls owner win woff) n v (some q) = .ok u) (hc : cls = 0 ∨ cls ≠ 2 ∧ owner = inCluster c) (hn : n ≤ Config.padBytes)
    {j : Nat} (hj : j < n) : (u.cluster (clusterOf c)).padByte (clusterOf c) ((off + j) % Config.padBytes) = byteOf v j := by
  unfold State.lwriteAt at h
  dsimp only at h
  repeat' split at h
  all_goals cases h
  · rw [State.modCluster_same]
    exact Cluster.putPads_self _ _ _ _ _ _ hn hj
  · omega
  · rw [State.modCluster_same]
    exact Cluster.putPads_self _ _ _ _ _ _ hn hj
  · omega

theorem State.writeHeld_of_ok {s u : State} {c : Nat} {p : Held} (hl : p.loc ≠ .unconf)
    (h : s.lwriteAt c p.loc p.size (p.data.toNat % 2 ^ (8 * p.size)) (some p.seq) = .ok u) : s.writeHeld c p = u := by
  unfold State.writeHeld
  split
  · exact absurd ‹_› hl
  · rw [h]

theorem State.writeHeld_keeps (s : State) (c : Nat) (p : Held) :
    s.KeepsBytes (fun k a => k = c ∧ p.loc.coversTcm p.size a) (fun k a => k = clusterOf c ∧ p.loc.coversPad c p.size a) (s.writeHeld c p) := by
  unfold State.writeHeld
  split
  · exact .modCore rfl fun _ _ => rfl
  · split
    · exact State.lwriteAt_keeps ‹_›
    · exact .refl _ _ _

theorem State.nudge_eq (s : State) (c : Nat) : s.nudge c = { s with sched := (s.nudge c).sched } := by
  unfold State.nudge
  split <;> rfl

/-! ### ST, LATM and LD -/

@[simp] theorem State.fencedAfter_issue (s : State) (k sc : Nat) : (s.fencedAfter k sc).issue = s.issue := by
  unfold State.fencedAfter
  split <;> rfl

theorem fenceAfter_same {s t : State} (h : t.issue = s.issue) : Does fenceAfter t (t.fencedAfter s.kind s.scope) := by
  have hkind : t.kind = s.kind ∧ t.scope = s.scope := by simp only [State.kind, State.scope, State.mod, h, and_self]
  rw [← hkind.1, ← hkind.2]
  exact fenceAfter_gives t

theorem localStore_gives {s t : State} {q : Nat} {l : Loc} {n v : Nat} {w : After → Nat → After} (hl : l ≠ .unconf)
    (h : s.takeEntry s.issue.core l = .ok (q, t)) :
    Does (localStore l n v w) s (((t.onCore (fun co => { co with accesses := co.accesses + 1 })).onCur (fun c =>
      { c with stores := c.stores ++ [s.holding t l n v q w] })).pend [.storeWrite s.issue.core s.issue.ctx]) := by
  have hi : t.issue = s.issue := (State.takeEntry_keeps (fun _ _ => True) (fun _ _ => True) h).issue
  have hacc : t.modCore s.issue.core (fun co => { co with accesses := (t.core s.issue.core).accesses + 1 }) =
      t.onCore (fun co => { co with accesses := co.accesses + 1 }) := by
    rw [State.onCore, hi]
    exact State.modCore_congr rfl
  unfold localStore
  rw [if_neg hl]
  refine (holdStore_gives h).bind ((Gives.modCtx _ _).bind ?_)
  refine (Gives.change _ _).to ?_
  rw [hacc]
  show State.pend _ [.storeWrite t.issue.core t.issue.ctx] = _
  rw [hi]
  rfl

/-- An ST whose source is read and whose place is free puts its store on the path. -/
theorem st_completes {s s1 t : State} {d b : BitVec 6} {o : BitVec 9} {z : BitVec 3} {v : BitVec 128} {q : Nat} (hclear : s.clear (.st d b o z))
    (hbad : storeBad d b z = false) (hpop : Gives (ahPop d) s v s1) (hun : s1.unread) (hi : s1.issue = s.issue)
    (hfree : s1.freeAt (s1.locate s1.issue.core (s.localAddr b o z.toNat) (2 ^ z.toNat)) (2 ^ z.toNat))
    (hl : s1.locate s1.issue.core (s.localAddr b o z.toNat) (2 ^ z.toNat) ≠ .unconf)
    (he : s1.takeEntry s1.issue.core (s1.locate s1.issue.core (s.localAddr b o z.toNat) (2 ^ z.toNat)) = .ok (q, t)) :
    Completes (.st d b o z) s ((((t.onCore (fun co => { co with accesses := co.accesses + 1 })).onCur (fun c => { c with stores := c.stores ++
      [s1.holding t (s1.locate s1.issue.core (s.localAddr b o z.toNat) (2 ^ z.toNat)) (2 ^ z.toNat) (v.toNat % 2 ^ (8 * 2 ^ z.toNat)) q
        (storeAfter s.kind (Nat.min s.scope (localReach (s.localAddr b o z.toNat))) s.issue.seq)] })).pend
      [.storeWrite s.issue.core s.issue.ctx]).fencedAfter s.kind s.scope) := by
  have hacc : Gives (localAccess (s.localAddr b o z.toNat) (2 ^ z.toNat)) s1 _ s1 := (localAccess_gives hfree).to (if_neg hl)
  have hti : t.issue = s.issue := (State.takeEntry_keeps (fun _ _ => True) (fun _ _ => True) he).issue.trans hi
  have hstore := localStore_gives (n := 2 ^ z.toNat) (v := v.toNat % 2 ^ (8 * 2 ^ z.toNat))
    (w := storeAfter s.kind (Nat.min s.scope (localReach (s.localAddr b o z.toNat))) s.issue.seq) hl he
  rw [show Chore.storeWrite s1.issue.core s1.issue.ctx = .storeWrite s.issue.core s.issue.ctx by rw [hi]] at hstore
  exact run_ok hclear rfl hbad (hpop.bind (hacc.bind (hstore.bind (fenceAfter_same hti)))) (State.readsOk_of hun (by simp [hti, hi]))

/-! ### What a completing store leaves alone -/

/-- From s to t only the issuing context changes, and no byte of any memory. -/
structure State.KeepsOthers (s t : State) : Prop where
  issue : t.issue = s.issue
  hbm : t.hbm = s.hbm
  plat : t.plat = s.plat
  teams : t.teams = s.teams
  domains : t.domains = s.domains
  dies : t.dies = s.dies
  ctx : ∀ c k, c ≠ s.issue.core ∨ k ≠ s.issue.ctx → t.ctx c k = s.ctx c k
  tcm : ∀ c a, (t.core c).tcmByte c a = (s.core c).tcmByte c a
  pad : ∀ k a, (t.cluster k).padByte k a = (s.cluster k).padByte k a

theorem State.KeepsOthers.refl (s : State) : s.KeepsOthers s := ⟨rfl, rfl, rfl, rfl, rfl, rfl, fun _ _ _ => rfl, fun _ _ => rfl, fun _ _ => rfl⟩

theorem State.KeepsOthers.trans {s t u : State} (h : s.KeepsOthers t) (g : t.KeepsOthers u) : s.KeepsOthers u :=
  ⟨g.issue.trans h.issue, g.hbm.trans h.hbm, g.plat.trans h.plat, g.teams.trans h.teams, g.domains.trans h.domains, g.dies.trans h.dies,
    fun c k hck => (g.ctx c k (by rwa [h.issue])).trans (h.ctx c k hck), fun c a => (g.tcm c a).trans (h.tcm c a),
    fun k a => (g.pad k a).trans (h.pad k a)⟩

theorem State.KeepsBytes.others {s t : State} (h : s.KeepsBytes (fun _ _ => False) (fun _ _ => False) t) : s.KeepsOthers t :=
  ⟨h.issue, h.hbm, h.plat, h.teams, h.domains, h.dies, fun c k _ => h.ctx c k, fun c a => h.tcm c a id, fun k a => h.pad k a id⟩

theorem State.onCur_keeps (s : State) (f : Ctx → Ctx) : s.KeepsOthers (s.onCur f) :=
  ⟨rfl, rfl, rfl, rfl, rfl, rfl, fun _ _ h => State.onCur_ctx_other s f h,
    fun c a => (congrArg (fun x : Core => x.tcmByte c a) (State.onCur_core_ctxs s f c) :), fun _ _ => rfl⟩

theorem State.KeepsOthers.pend {s t : State} (h : s.KeepsOthers t) (l : List Chore) : s.KeepsOthers (t.pend l) :=
  ⟨h.issue, h.hbm, h.plat, h.teams, h.domains, h.dies, h.ctx, h.tcm, h.pad⟩

theorem State.fencedAfter_keeps (s : State) (k sc : Nat) :
    s.KeepsOthers (s.fencedAfter k sc) ∧ (s.fencedAfter k sc).cur = { s.cur with sc := (s.fencedAfter k sc).cur.sc } ∧
      (k ≠ 4 → (s.fencedAfter k sc).cur.sc = s.cur.sc) := by
  unfold State.fencedAfter
  split
  · have hcur : (s.fencing sc).cur = { s.cur with sc := some { seq := s.issue.seq, scope := sc } } := State.onCur_cur s _
    exact ⟨(State.onCur_keeps s _).pend _, by rw [hcur], fun h => absurd ‹_› h⟩
  · exact ⟨.refl s, rfl, fun _ => rfl⟩

theorem st_changes_no_byte {s t : State} {d b : BitVec 6} {o : BitVec 9} {z : BitVec 3} {q : Nat} {l : Loc} {n : Nat} {h : Held}
    (hn : n = 2 ^ z.toNat) (hloc : l = s.locate s.issue.core (s.localAddr b o z.toNat) n)
    (hclear : s.clear (.st d b o z)) (hbad : storeBad d b z = false) (hd : xOnly d = true) (hfree : s.freeAt l n) (hl : l ≠ .unconf)
    (he : s.takeEntry s.issue.core l = .ok (q, t))
    (hheld : h = s.holding t l n ((s.xval d).toNat % 2 ^ (8 * n)) q
      (storeAfter s.kind (Nat.min s.scope (localReach (s.localAddr b o z.toNat))) s.issue.seq)) :
    ∃ u, exec (.st d b o z) s = .next u.quiet ∧ s.KeepsOthers u ∧
      u.cur = { s.cur with stores := s.cur.stores ++ [h], sc := u.cur.sc } ∧ (s.kind ≠ 4 → u.cur.sc = s.cur.sc) := by
  subst hn hloc
  have hpop : Gives (ahPop d) s ((s.xval d).setWidth 128) s :=
    ahPop_reg d s (by rintro rfl; exact absurd hd (by decide)) (by rintro rfl; exact absurd hd (by decide))
  have hval : ((s.xval d).setWidth 128).toNat = (s.xval d).toNat := by
    rw [BitVec.toNat_setWidth]
    exact Nat.mod_eq_of_lt (by have := (s.xval d).isLt; omega)
  have hexec := st_completes hclear hbad hpop ⟨hclear.2.2.1, hclear.2.1⟩ rfl hfree hl he
  rw [hval, ← hheld] at hexec
  have hkt := State.takeEntry_keeps (fun _ _ => False) (fun _ _ => False) he
  have hk1 : t.KeepsBytes (fun _ _ => False) (fun _ _ => False) (t.onCore (fun co => { co with accesses := co.accesses + 1 })) :=
    .modCore rfl fun _ _ => rfl
  have hk := (hkt.trans hk1).others
  have hcur1 : (t.onCore (fun co => { co with accesses := co.accesses + 1 })).cur = s.cur := by
    show (t.onCore _).ctx t.issue.core t.issue.ctx = _
    rw [hkt.issue]
    exact (hkt.trans hk1).ctx _ _
  have hcur2 : ((t.onCore (fun co => { co with accesses := co.accesses + 1 })).onCur (fun c => { c with stores := c.stores ++ [h] })).cur =
      { s.cur with stores := s.cur.stores ++ [h] } := by
    rw [State.onCur_cur, hcur1]
  obtain ⟨w, hw⟩ : ∃ w, w = ((t.onCore (fun co => { co with accesses := co.accesses + 1 })).onCur
    (fun c => { c with stores := c.stores ++ [h] })).pend [.storeWrite s.issue.core s.issue.ctx] := ⟨_, rfl⟩
  have hkw : s.KeepsOthers w := hw ▸ hk.trans ((State.onCur_keeps _ _).pend _)
  have hcw : w.cur = { s.cur with stores := s.cur.stores ++ [h] } := by
    rw [hw]
    exact hcur2
  rw [← hw] at hexec
  obtain ⟨hkf, hcf, hsf⟩ := State.fencedAfter_keeps w s.kind s.scope
  exact ⟨_, hexec, hkw.trans hkf, hcf.trans (by rw [hcw]), fun h4 => (hsf h4).trans (by rw [hcw])⟩

/-- What the step that performs a store of the path does (05 R108): one that nothing holds back leaves the path and is written. -/
theorem State.storeWrite_eq {s t : State} {c k : Nat} (h : s.storeWrite c k = some t) :
    ∃ p ∈ s.storesFree c k, (s.storesFree c k)[Config.performChoice s.fresh % (s.storesFree c k).length]? = some p ∧
      let left := (s.ctx c k).stores.flatMap (fun g => if g.id = p.id then (p.split c).2.toList else [g])
      let u := (s.modCtx c k (fun x => { x with stores := left })).writeHeld c (p.split c).1
      ∃ sched, t = { u with fresh := u.fresh + 1, sched := sched } := by
  unfold State.storeWrite at h
  dsimp only at h
  split at h
  · cases h
  · rename_i p hp
    cases h
    refine ⟨p, List.mem_of_getElem? hp, hp, ?_⟩
    dsimp only
    rw [State.nudge_eq]
    exact ⟨_, rfl⟩

/-- Settles O10: an ST changes its own context only, and the write of a store of the path the bytes of its place. -/
theorem storesChangeOnlyTheirBytes : Obligations.StoresChangeOnlyTheirBytes := by
  unfold Obligations.StoresChangeOnlyTheirBytes
  refine ⟨?_, ?_, ?_, ?_, ?_⟩
  · intro d b o z s t q n c l hclear hbad hd hfree hl he h
    obtain ⟨u, hu, hk, hcur, hsc⟩ := st_changes_no_byte (h := h) rfl rfl hclear hbad hd hfree hl he rfl
    have hcur' : u.ctx s.issue.core s.issue.ctx = u.cur := by
      rw [State.cur, hk.issue]
    refine ⟨_, hu, hk.hbm, hk.plat, hk.teams, hk.domains, hk.dies, hk.ctx, ?_, fun h4 => ?_, hk.tcm, hk.pad⟩
    · rw [show u.quiet.ctx c s.issue.ctx = u.cur from hcur']
      exact hcur
    · show (u.ctx s.issue.core s.issue.ctx).sc = _
      rw [hcur']
      exact hsc h4
  · intro s u c l n v q h
    have hk := State.lwriteAt_keeps h
    refine ⟨hk.hbm, hk.plat, hk.teams, hk.domains, hk.dies, hk.ctx, fun x a ha => hk.tcm x a fun hc => ha hc.1 hc.2,
      fun x a ha => hk.pad x a fun hc => ha hc.1 hc.2, ?_, ?_⟩
    · rintro off rfl hs j hj
      exact State.lwriteAt_tcm_bytes h hs hj
    · rintro off cls owner win woff rfl hc hn j hj
      exact State.lwriteAt_pad_bytes h hc hn hj
  · exact fun s u c p hl h => State.writeHeld_of_ok hl h
  · intro s t c k h
    obtain ⟨p, hmem, hget, sched, rfl⟩ := State.storeWrite_eq h
    refine ⟨p, hmem, ?_⟩
    intro q l left u
    have hk := State.writeHeld_keeps (s.modCtx c k (fun x => { x with stores := left })) c q
    have hbyte : ∀ x a, ((s.modCtx c k (fun x => { x with stores := left })).core x).tcmByte x a = (s.core x).tcmByte x a := by
      intro x a
      by_cases hx : x = c
      · subst hx
        rw [State.modCtx, State.modCore_same]
        rfl
      · rw [State.modCtx, State.modCore_other _ _ hx]
    have hctx : u.ctx c k = { s.ctx c k with stores := left } := (hk.ctx c k).trans (State.modCtx_same s c k _)
    refine ⟨hget, ?_, fun _ _ => rfl, fun _ _ => rfl, fun _ => rfl, hk.hbm, fun x y hxy => (hk.ctx x y).trans ?_, ?_,
      fun x a ha => (hk.tcm x a fun hc => ha hc.1 hc.2).trans (hbyte x a), fun x a ha => hk.pad x a fun hc => ha hc.1 hc.2⟩
    · exact congrArg Ctx.stores hctx
    · by_cases hx : x = c
      · subst hx
        exact State.modCtx_other_ctx s _ (hxy.resolve_left (by simp))
      · exact State.modCtx_other_core s _ hx
    · show u.ctx c k = { s.ctx c k with stores := (u.ctx c k).stores }
      rw [hctx]
  · exact fun s a n v m h => State.hwriteMask_bytes a n v m h

/-- Settles O16: the store path takes an ST at the place of its address, and LATM writes its operation's result there. -/
theorem storesAndLocalAtomicsWriteAtTheirAddress : Obligations.StoresAndLocalAtomicsWriteAtTheirAddress := by
  unfold Obligations.StoresAndLocalAtomicsWriteAtTheirAddress
  refine ⟨?_, ?_⟩
  · intro d b o z s s1 t v q n a l hclear hbad hpop hun hi hfree
    refine ⟨fun hl => ?_, fun hl he _ => st_completes hclear hbad hpop hun hi hfree hl he⟩
    have hstore : Does (localStore l n (v.toNat % 2 ^ (8 * n)) (storeAfter s.kind (Nat.min s.scope (localReach a)) s.issue.seq))
        (s1.touched l) (s1.touched l) := by
      unfold localStore
      rw [if_pos hl]
      rfl
    exact run_ok hclear rfl hbad (hpop.bind ((localAccess_gives hfree).bind (hstore.bind (fenceAfter_same (by simp [hi])))))
      (State.readsOk_of hun (by simp))
  · intro d b p z s n a l old new hclear hb hd hp hfence hrel hfree hsound
    have hbad : (!xOrZero b || !xOnly d || (p == 9 && !(decide (1 ≤ d.toNat) && decide (d.toNat ≤ 30)))) = false := by
      by_cases h9 : p = 9
      · obtain ⟨h1, h2⟩ := hp h9
        simp [hb, hd, h9, h1, h2]
      · simpa [hb, hd] using fun h => absurd h h9
    have hsound' := State.soundAt_touched hsound
    have hold : (s.touched l).lreadAt (s.touched l).issue.core l n = old := by
      rw [State.touched_issue, State.lreadAt_touched]
    have hmark : ((s.touched l).localMark (s.touched l).issue.core l a n).isSome = false := by
      rw [hsound'.2]
      rfl
    have hbody : ∀ {t : State}, Does (do
          match new with
          | some w => localWrite l n (w % 2 ^ (8 * n))
          | none => pure ()
          xset d (sext (8 * n) old)
          fenceAfter) (s.touched l) t → t.issue = s.issue → Completes (.latm d b p z) s t := by
      intro t ht hi
      have hrest : Does (do
          let v := (← xget d).toNat % 2 ^ (8 * n)
          let c := (← xget (d + 1)).toNat % 2 ^ (8 * n)
          let l ← localAccess a n
          checkMark a l n
          checkParity a l n
          let t ← get
          let old := t.lreadAt t.issue.core l n
          if (t.localMark t.issue.core l a n).isSome then fenceAfter
          else do
            match atomOp p.toNat (8 * n) old v c with
            | some w => localWrite l n (w % 2 ^ (8 * n))
            | none => pure ()
            xset d (sext (8 * n) old)
            fenceAfter) s t := by
        refine (Gives.xget d s).bind ((Gives.xget (d + 1) s).bind ((localAccess_gives hfree).bind
          ((checkMark_gives hsound').bind ((checkParity_gives hsound' a).bind ((Gives.get _).bind ?_)))))
        have hl : s.locate s.issue.core a n = l := rfl
        simp only [hl, hmark, hold]
        exact ht
      refine run_ok hclear rfl hbad ((fenceFirst_gives hfence).bind ?_) (hclear.readsOk' hi)
      by_cases hk : 2 ≤ s.kind
      · rw [if_pos hk] at hrel ⊢
        exact (releaseNow_gives hrel).bind hrest
      · rw [if_neg hk] at hrel ⊢
        exact (passPoint_gives hrel).bind hrest
    refine ⟨fun hnone => ?_, fun w u hsome hw hi => ?_⟩
    · refine hbody ?_ (by simp)
      rw [hnone]
      exact (xset_gives d _ _).bind (fenceAfter_same (by simp))
    · refine hbody ?_ (by simp [hi])
      rw [hsome]
      exact (localWrite_gives (by rwa [State.touched_issue])).bind ((xset_gives d _ _).bind (fenceAfter_same (by simp [hi])))

/-- Settles O15: a load of 8 bytes or fewer completes with them; one of 16 reads its low half in a step of its own (log entry 53). -/
theorem loadsReadTheBytesAtTheirAddress : Obligations.LoadsReadTheBytesAtTheirAddress := by
  unfold Obligations.LoadsReadTheBytesAtTheirAddress
  intro d b o z s n c l hclear hbad hfence hfree hsound h2 h3
  have hsound' := State.soundAt_touched hsound
  have hmark : s.localMark s.issue.core l (s.localAddr b o z.toNat) n = none := hsound.2
  have hcur := State.touched_cur s l
  have hread : (s.touched l).readSoFar = s.readSoFar := by
    have h := State.touched_cur s l
    rw [State.cur, State.touched_issue] at h
    rw [State.readSoFar, State.touched_issue, h]
    rfl
  have hinj : Does (injectParity (s.localAddr b o z.toNat) l) (s.touched l) (s.touched l) :=
    injectParity_gives (by rw [hcur]; exact h2) (by rw [hcur]; exact h3) l _
  have hdone : ∀ {v s1 t}, Gives (localRead l n) (s.touched l) v s1 → Does (loadResult d n v none) s1 t → t.issue = s.issue →
      Completes (.ld d b o z) s t := by
    intro v s1 t hr hres hi
    refine run_ok hclear rfl hbad ((fenceFirst_gives hfence).bind ((localAccess_gives hfree).bind ?_)) (hclear.readsOk' hi)
    dsimp only
    rw [hmark]
    exact ite_gives (fun _ => hinj.bind ((checkParity_gives hsound' _).bind (hr.bind hres)))
      (fun _ => (checkMark_gives hsound').bind (hinj.bind ((checkParity_gives hsound' _).bind (hr.bind hres))))
  have hlow : n ≠ 16 → Gives (localRead l n) (s.touched l) (s.lreadAt c l n) (s.touched l) := by
    intro hn
    have h := localRead_gives (s := s.touched l) (l := l) hn
    rwa [State.lreadAt_touched, State.touched_issue] at h
  have hhigh : ∀ x, n = 16 → partOf s.readSoFar 0 = some x →
      Gives (localRead l n) (s.touched l) (x.value + 2 ^ 64 * s.lreadAt c l.high 8) ((s.touched l).onCur (fun c' => { c' with loaded := [] })) := by
    intro x hn hx
    have h := localRead_high (s := s.touched l) (l := l) (by rw [hread]; exact hx)
    have hval : (s.touched l).lreadAt c l.high 8 = s.lreadAt c l.high 8 := by
      unfold State.touched
      split
      · rename_i hu
        rw [hu]
        rfl
      · rfl
    rw [State.touched_issue, hval] at h
    rwa [hn]
  refine ⟨fun hn hd => ?_, fun hn hd hlq => ?_, fun hn hp => ?_, fun x hn hx hd => ?_, fun x hn hx hd hlq => ?_⟩
  · exact hdone (hlow hn) (loadResult_reg hd) (by simp)
  · subst hd
    exact hdone (hlow hn) (loadResult_lq (by rw [hcur]; exact hlq)) (by simp)
  · refine run_waits hclear hbad ?_
    refine Gives.throws (fenceFirst_gives hfence) (Gives.throws (localAccess_gives hfree) ?_)
    dsimp only
    rw [hmark]
    have hstall : (localRead l n).run (s.touched l) = .error (.stall [.loadPart c s.issue.ctx s.issue.seq 0 (s.lreadAt c l 8)]) := by
      refine Gives.throws (Gives.get _) ?_
      rw [if_neg (by simp [hn]), hread, hp, State.touched_issue, State.lreadAt_touched]
      rfl
    split
    · exact hinj.throws ((checkParity_gives hsound' _).throws (throws_first hstall))
    · exact (checkMark_gives hsound').throws (hinj.throws ((checkParity_gives hsound' _).throws (throws_first hstall)))
  · subst hd
    exact hdone (hhigh x hn hx) ((loadResult_reg (by decide)).to (if_neg (by decide))) (by simp)
  · subst hd
    refine hdone (hhigh x hn hx) ((loadResult_lq ?_).to ?_) (by simp)
    · rw [State.onCur_cur, hcur]
      exact hlq
    · rw [State.onCur_onCur]

end Sys2Proof.Machine

namespace Sys2Proof.Machine
/-!
SUPPORT. Global accesses and deltas (04 R77, R82; 05 R108, R110, R121; 11 R297, R298).
-/

open Sys2Proof

/-! ### LDG and STG -/

theorem globalChecks_gives {a : W64} {n : Nat} (h : a.toNat % n = 0) (s : State) : Gives (globalChecks a n) s false s :=
  (Gives.get s).bind (ite_gives (fun hn => absurd h hn) (fun _ => rfl))

theorem forgetRead_gives (s : State) : Does forgetRead s (s.onCur (fun c => { c with loaded := [] })) := rfl

/-- A change of the issuing context's registers leaves the domain of every core. -/
theorem State.onCur_tenantOf (s : State) (f : Ctx → Ctx) (c : Nat) : (s.onCur f).tenantOf c = s.tenantOf c := by
  have hdom : ((s.onCur f).core c).domain = (s.core c).domain := (congrArg Core.domain (State.onCur_core_ctxs s f c) :)
  unfold State.tenantOf State.domOf
  rw [hdom]
  rfl

theorem granted_gives {m k : M α} (h : Gives m s x t) : Gives (if true = true then m else k) s x t := h

theorem Ctx.lend_point (c : Ctx) (k sc id : Nat) : (c.lend k sc id).point = c.point := by
  unfold Ctx.lend
  split <;> rfl

theorem globalStore_posted {t u : State} {a : W64} {n v : Nat} {w : After → Nat → After}
    (h : t.gprepare t.issue.core (t.tenantOf t.issue.core) a = .ok (.posted, u)) :
    Does (globalStore a n v w) t ((u.modCore t.issue.core (fun co => { co with accesses := (u.core t.issue.core).accesses + 1, gstores := co.gstores ++
      [{ ctx := t.issue.ctx, id := (u.core t.issue.core).accesses, seq := t.issue.seq, addr := a, size := n, data := BitVec.ofNat 128 v,
         after := w t.cur.point (u.core t.issue.core).accesses }] })).pend [.globalAccessPerformed t.issue.core]) := by
  refine (Gives.get t).bind ?_
  simp only [h]
  rfl

theorem globalStore_delta {t u : State} {a : W64} {n v die : Nat} {w : After → Nat → After}
    (h : t.gprepare t.issue.core (t.tenantOf t.issue.core) a = .ok (.delta die, u)) :
    Does (globalStore a n v w) t ((u.takeSeq t.issue.core).2.emitLine t.issue.core (u.takeSeq t.issue.core).1
      (.page (t.tenantOf t.issue.core) (w64 (alignTo 64 a.toNat))) (a.toNat % 64) n v) := by
  refine (Gives.get t).bind ?_
  simp only [h]
  rfl

theorem ldg_of_allRead {s t : State} {d b : BitVec 6} {o : BitVec 9} {z : BitVec 3} {v : Nat} {m : Option Mark} (hclear : s.clear (.ldg d b o z))
    (hbad : loadBad d b z = false) (hread : s.allRead (2 ^ z.toNat) = some (v, m)) (hm : m = none ∨ d = 57)
    (hres : Does (loadResult d (2 ^ z.toNat) v m) (s.onCur (fun c => { c with loaded := [] })) t) (hi : t.issue = s.issue) :
    Completes (.ldg d b o z) s t := by
  refine run_ok hclear rfl hbad ?_ (hclear.readsOk' hi)
  dsimp only
  rw [hread]
  rcases m with - | m
  · exact (forgetRead_gives s).bind hres
  · obtain rfl : d = 57 := by simpa using hm
    exact (forgetRead_gives s).bind hres

/-- Settles O17: a global load completes with what its requests read, and a global store is posted or becomes a line delta. -/
theorem globalLoadsReadAndGlobalStoresAreSent : Obligations.GlobalLoadsReadAndGlobalStoresAreSent := by
  unfold Obligations.GlobalLoadsReadAndGlobalStoresAreSent
  refine ⟨?_, ?_⟩
  · intro d b o z s phys cls e n a c hclear hbad
    have hlq : ∀ v m, s.cur.lq.length < 16 → Does (loadResult 57 n v m) (s.onCur (fun x => { x with loaded := [] })) (s.onCur (fun x =>
        { x with loaded := [], lq := x.lq ++ [{ data := BitVec.ofNat 128 v, mark := m }] })) := fun v m hl =>
      (loadResult_lq (by rw [State.onCur_cur]; exact hl)).to (by rw [State.onCur_onCur])
    refine ⟨fun v hv => ⟨fun hd => ?_, fun hd hl => ?_⟩, fun v m hv hd hl => ?_, fun hv hfence hal hx hup => ?_⟩
    · exact ldg_of_allRead hclear hbad hv (.inl rfl) (loadResult_reg hd) (by simp)
    · subst hd
      exact ldg_of_allRead hclear hbad hv (.inl rfl) (hlq v none hl) rfl
    · subst hd
      exact ldg_of_allRead hclear hbad hv (.inr rfl) (hlq v (some m) hl) rfl
    · refine run_waits hclear hbad ?_
      dsimp only
      rw [hv]
      refine (fenceFirst_gives hfence).throws ((globalChecks_gives hal s).throws ((Gives.get s).throws ?_))
      rw [hx]
      have hnot : ¬ (cls = 1 ∧ (s.ctx s.issue.core s.issue.ctx).upset = 5 ∧ (!s.issue.ign.contains 10) = true) := fun h => hup h.1 h.2.1
      dsimp only
      rw [if_neg hnot]
      rfl
  · intro d b o z s s1 u v n a c w hclear hbad hpop hun hal hi hu s2
    have hpoint : s2.cur.point = s1.cur.point := by
      rw [State.onCur_cur]
      exact Ctx.lend_point _ _ _ _
    have hdone : ∀ {t}, Does (globalStore a n (v.toNat % 2 ^ (8 * n)) w) s2 t → t.issue = s.issue →
        Completes (.stg d b o z) s (t.fencedAfter s.kind s.scope) := by
      intro t ht hti
      refine run_ok hclear rfl hbad (hpop.bind ((globalChecks_gives hal s1).bind ((Gives.modCtx _ s1).bind (Gives.bind (x := ()) ?_ (fenceAfter_same hti)))))
        (State.readsOk_of hun (by rw [State.fencedAfter_issue, hti, hi]))
      show Gives (globalStore a n _ w) (s1.onCur fun c => c.lend s.kind s.scope (s.core s.issue.core).accesses) () t
      rw [← hi]
      exact ht
    have hten : s2.gprepare s2.issue.core (s2.tenantOf s2.issue.core) a = s2.gprepare c (s1.tenantOf c) a := by
      rw [State.onCur_tenantOf]
      rfl
    refine ⟨?_, fun die hp => ?_⟩
    · intro hp id
      have hs := globalStore_posted (n := n) (v := v.toNat % 2 ^ (8 * n)) (w := w) (t := s2) (hten.trans hp)
      rw [hpoint] at hs
      exact hdone hs (by simp [hu, hi])
    · have hs := globalStore_delta (n := n) (v := v.toNat % 2 ^ (8 * n)) (w := w) (t := s2) (hten.trans hp)
      rw [State.onCur_tenantOf] at hs
      exact hdone hs (by simp [hu, hi])

/-! ### PUT, ATOM and MSG -/

theorem sendDelta_gives (n : Nat) (k : DeltaKind) (q : Target) (s : State) : Does (sendDelta n k q) s (s.sends n k q) := rfl

/-- The state with the mailbox word of an ATOM's old value reserved, when it asks for one (R297). -/
def State.mailed (e : BitVec 1) (c : Nat) (s : State) : State := if e = 1 then s.modCore c (fun k => { k with mailRes := k.mailRes + 1 }) else s

@[simp] theorem State.mailed_issue (e : BitVec 1) (c : Nat) (s : State) : (s.mailed e c).issue = s.issue := by
  unfold State.mailed
  split <;> rfl

theorem mailed_gives {s : State} {e : BitVec 1} {c : Nat} (h : e = 1 → (s.core c).mailUsed < Config.mailboxWords) :
    Gives (if e = 1 then mailEntry c 1 else pure true) s true (s.mailed e c) := by
  unfold State.mailed
  split
  · exact mailEntry_gives (h ‹_›)
  · rfl

/-- A clear access-half word to another device ends as the free value for its room there says (R297, log entry 58). -/
theorem run_foreign {s t : State} {i : Instr} {ill room : Bool} {v : W64} {body : M Unit} (hclear : s.clear i) (hhalf : halfOf i = .ah) (hill : ill = false)
    (hhandled : s.cur.handled 13 6 = true) (hread : t.readsOk) (hgo : room = true → Does body s t)
    (hstop : ¬ room = true → body.run s = .error (.trap 13 v false)) :
    run i false ill body s = .next (if room then t.quiet else (s.trapsTo i .ah 13 v).quiet) := by
  split
  · exact run_ok hclear rfl hill (hgo ‹_›) hread
  · have htrap := run_traps hclear rfl hill (hstop ‹_›) (by decide) (by decide) hhandled
    rwa [hclear.trapHalf, hhalf] at htrap

/-- Settles O18: each remote write takes the entries it needs, and then sends one delta under the next sequence number. -/
theorem remoteWritesSendOneDelta : Obligations.RemoteWritesSendOneDelta := by
  unfold Obligations.RemoteWritesSendOneDelta
  refine ⟨?_, ?_, ?_⟩
  · intro d a b z s s1 s2 x y n addr g t i v r hclear hpoint ha hb hpa hpb hun
    have hign : s2.issue.ign = [] := by rw [ahPop_ign hpb, ahPop_ign hpa, hclear.1]
    have hbz : (if z = 4 then !(b == 57 || b == 63) else !xOrZero b) = false := by
      by_cases hz : z = 4
      · rw [if_pos hz] at hb ⊢
        rcases hb with rfl | rfl <;> rfl
      · rw [if_neg hz] at hb ⊢
        rw [hb]
        rfl
    refine ⟨?_, ?_, fun hd hxd hbad hhere hhandled => ?_⟩
    · intro hd s3 die htgt hun3 hcore hroom q
      subst hd
      exact run_ok hclear rfl (by rw [hbz, ha]; rfl) ((passPoint_gives hpoint).bind (hpa.bind (hpb.bind (htgt.bind ((storeEntry_gives hroom).bind
        (sendDelta_gives _ _ _ _)))))) (State.readsOk_of hun3 (by simp))
    · intro hd hxd hbad hhere hroom q
      refine run_ok hclear rfl (by rw [hbz, ha, hxd, hbad]; simp) ((passPoint_gives hpoint).bind (hpa.bind (hpb.bind ?_))) (State.readsOk_of hun (by simp))
      rw [if_neg hd, hhere]
      exact (poolEntry_gives hroom).bind (sendDelta_gives _ _ _ _)
    · refine run_foreign hclear rfl (by rw [hbz, ha, hxd, hbad]; simp) hhandled (State.readsOk_of hun (by simp)) (fun hr => ?_) (fun hr => ?_)
      · refine (passPoint_gives hpoint).bind (hpa.bind (hpb.bind ?_))
        rw [if_neg hd, hhere]
        exact (foreignEntry_gives hr).bind rfl
      · refine (passPoint_gives hpoint).throws (hpa.throws (hpb.throws ?_))
        rw [if_neg hd, hhere]
        exact throws_first (foreignEntry_traps hr hign)
  · intro d a b e w p s s1 s2 x y n addr g t i c v mail hclear hpoint ha hb hpa hpb hun
    have hign : s2.issue.ign = [] := by rw [ahPop_ign hpb, ahPop_ign hpa, hclear.1]
    refine ⟨fun hd s3 die htgt hun3 hcore hroom hmail => ?_, fun hd hxd hbad hmail => ⟨fun hhere hroom => ?_, fun hhere hhandled => ?_⟩⟩
    · subst hd
      have hstore := storeEntry_gives hroom
      rw [hcore] at hstore
      exact run_ok hclear rfl (by rw [ha, hb]; rfl) ((passPoint_gives hpoint).bind (hpa.bind (hpb.bind (htgt.bind (hstore.bind
        (granted_gives ((mailed_gives (e := e) (c := c) (by exact hmail)).bind (sendDelta_gives _ _ _ _)))))))) (State.readsOk_of hun3 (by simp [mail]; split <;> rfl))
    · refine run_ok hclear rfl (by rw [ha, hb, hxd, hbad]; simp) ((passPoint_gives hpoint).bind (hpa.bind (hpb.bind ?_))) (State.readsOk_of hun ?_)
      · rw [if_neg hd, hhere]
        exact (poolEntry_gives hroom).bind (granted_gives ((mailed_gives (e := e) (c := c) (by exact hmail)).bind (sendDelta_gives _ _ _ _)))
      · exact (State.sends_issue _ _ _ _).trans (State.mailed_issue e c _)
    · refine run_foreign hclear rfl (by rw [ha, hb, hxd, hbad]; simp) hhandled (State.readsOk_of hun ?_) (fun hr => ?_) (fun hr => ?_)
      · exact (State.sendAway_issue _ _ _ _ _).trans (State.mailed_issue e c _)
      · refine (passPoint_gives hpoint).bind (hpa.bind (hpb.bind ?_))
        rw [if_neg hd, hhere]
        exact (foreignEntry_gives hr).bind (granted_gives ((mailed_gives (e := e) (c := c) (by exact hmail)).bind (Gives.change _ _)))
      · refine (passPoint_gives hpoint).throws (hpa.throws (hpb.throws ?_))
        rw [if_neg hd, hhere]
        exact throws_first (foreignEntry_traps hr hign)
  · intro d a b f s s1 s2 x y g t i c l hclear hpoint hd ha hbad hpa hpb hun
    have hign : s2.issue.ign = [] := by
      by_cases hf : f = 1
      · rw [if_pos hf] at hpb
        rw [ahPop_ign hpb.2, ahPop_ign hpa, hclear.1]
      · rw [if_neg hf] at hpb
        rw [hpb, ahPop_ign hpa, hclear.1]
    have hill : (!xOnly d || !ahSrc a || (f == 1 && !ahSrc b) || s.targetBad c g) = false := by
      by_cases hf : f = 1
      · rw [if_pos hf] at hpb
        rw [hd, ha, hpb.1, hbad]
        simp
      · rw [hd, ha, hbad]
        simpa using fun h => absurd h hf
    have hwords : ∀ k : List W64 → M Unit, (if f = 1 then (do
        let v ← (do return [x.setWidth 64, (← ahPop b).setWidth 64])
        k v) else (do
        let v ← pure [x.setWidth 64]
        k v) : M Unit).run s1 = (k l).run s2 := by
      intro k
      by_cases hf : f = 1
      · rw [if_pos hf] at hpb ⊢
        have hl : l = [x.setWidth 64, y.setWidth 64] := by simp [l, hf]
        rw [hl]
        have hpop : Gives (do return [x.setWidth 64, (← ahPop b).setWidth 64]) s1 [x.setWidth 64, y.setWidth 64] s2 := hpb.2.bind rfl
        exact hpop.run_bind
      · rw [if_neg hf] at hpb ⊢
        have hl : l = [x.setWidth 64] := by simpa [l] using hf
        rw [hl, hpb]
        rfl
    refine ⟨fun hhere hroom => ?_, fun hhere hhandled => ?_⟩
    · refine run_ok hclear rfl hill ((passPoint_gives hpoint).bind (hpa.bind ((hwords _).trans ?_))) (State.readsOk_of hun ?_)
      · dsimp only
        rw [hhere]
        by_cases hp : s.participates c t = true
        · rw [if_pos hp, if_pos hp]
          exact granted_gives ((mailEntry_gives (hroom hp)).bind (granted_gives (sendDelta_gives _ _ _ _)))
        · rw [if_neg hp, if_neg hp]
          exact granted_gives ((Gives.pure true s2).bind (granted_gives (sendDelta_gives _ _ _ _)))
      · rw [State.sends_issue]
        split <;> rfl
    · refine run_foreign hclear rfl hill hhandled (State.readsOk_of hun (State.sendAway_issue _ _ _ _ _)) (fun hr => ?_) (fun hr => ?_)
      · refine (passPoint_gives hpoint).bind (hpa.bind ((hwords _).trans ?_))
        dsimp only
        rw [hhere]
        exact (foreignEntry_gives hr).bind (Gives.change _ _)
      · refine (passPoint_gives hpoint).throws (hpa.throws ((hwords _).trans ?_))
        dsimp only
        rw [hhere]
        exact throws_first (foreignEntry_traps hr hign)

end Sys2Proof.Machine

namespace Sys2Proof.Machine
/-!
SUPPORT. Walker and copy words (08 R190, R192, R195, R197, R198; 04 R92, R95).
-/

open Sys2Proof

/-! ### Walkers -/

theorem stopWalker_gives {s : State} {w : Nat} (h : (s.walker w).held = []) :
    Does (stopWalker w) s (s.onWalker w (fun k => { k with fetched := 0, active := false })) :=
  (Gives.get s).bind ((awaitFor_gives (by rw [h]; rfl) s).bind (modWalker_gives _ _ s))

/-- Settles O19: each walker word reads or replaces one walker of its context. -/
theorem walkerWordsConfigureStartStopAndReport : Obligations.WalkerWordsConfigureStartStopAndReport := by
  unfold Obligations.WalkerWordsConfigureStartStopAndReport
  refine ⟨?_, ?_, ?_, ?_, ?_, ?_⟩
  · intro a n s s1 l hclear ha hl hun hpat hheld
    refine run_ok hclear rfl (by rw [ha]; rfl) (hl.bind ?_) (State.readsOk_of hun (State.onWalker_issue _ _ _))
    rw [if_neg (by rw [hpat]; exact Bool.false_ne_true)]
    exact (stopWalker_gives hheld).bind ((modWalker_gives _ _ _).to (State.onWalker_onWalker _ _ _ _))
  · intro n s hclear t
    have hstore : (t.walker n.toNat).store = (s.walker n.toNat).store := by rw [State.onWalker_walker]
    refine run_ok hclear rfl rfl ((modWalker_gives n.toNat _ s).bind ((Gives.change _ _).to ?_)) ?_
    · show (if (t.walker n.toNat).store then t else t.pend [.walkerFetch s.issue.core s.issue.ctx n.toNat]) = _
      rw [hstore]
    · refine hclear.readsOk' ?_
      split <;> rfl
  · intro n s hclear hheld
    exact run_ok hclear rfl rfl (stopWalker_gives hheld) (hclear.readsOk' rfl)
  · intro d n s hclear hd k
    exact run_ok hclear rfl (by rw [hd]; rfl) (xset_gives d _ s) (hclear.readsOk' (State.putX_issue _ _ _))
  · intro d a n s hclear hd
    exact run_ok hclear rfl (by rw [hd]; rfl) ((xset_gives d _ s).bind rfl) (hclear.readsOk' (State.putX_issue _ _ _))
  · intro d a n s hclear hd ha hle
    have hill : (!xOrZero d || ((1 : BitVec 1) == 1 && (!xOnly a || decide ((s.walker n.toNat).count < (s.xval a).toNat)))) = false := by
      rw [hd, ha]
      simpa using hle
    exact run_ok hclear rfl hill ((xset_gives d _ s).bind (modWalker_gives _ _ _)) (hclear.readsOk' (by simp))

/-! ### Copies -/

theorem takeCopyId_gives (s : State) : Gives takeCopyId s (s.core s.issue.core).copyNext
    (s.onCore (fun c => { c with copyNext := (c.copyNext + 1) % 2 ^ 16 })) := rfl

theorem issueCopy_none (k : Copy) (s : State) : Gives (issueCopy k 0) s (s.core s.issue.core).copyNext
    (s.onCore (fun c => { c with copyNext := (c.copyNext + 1) % 2 ^ 16 })) := rfl

/-- A copy of some bytes that finds room in the unit's queue and its scoreboard is queued under the next identifier (R92, R95). -/
theorem issueCopy_gives {k : Copy} {n c x : Nat} {s t : State} (hc : s.issue.core = c) (hx : s.issue.ctx = x) (hn : n ≠ 0)
    (horder : Does (copyOrder k) s s) (hqueue : s.copyQueued (teamOf c) < Config.copyQueue)
    (hboard : (s.core c).ranges.length + (s.copyRanges c k (s.core c).copyNext).length ≤ Config.scoreboardEntries)
    (hres : s.reserveAll c k.dg ((s.destLines c k).map w64) = .ok t) (hi : t.issue = s.issue) :
    Gives (issueCopy k n) s (t.core c).copyNext ((t.modCore c (fun co => { co with
      copyNext := (co.copyNext + 1) % 2 ^ 16, seq := (co.seq + (t.deltaLines c k).length) % 2 ^ 32,
      copies := co.copies ++ [{ k with id := (t.core c).copyNext, ctx := x, seq := (t.core c).seq, dc := (t.ctx c x).dc }],
      ranges := co.ranges ++ s.copyRanges c k (s.core c).copyNext })).pend
      (copyChores c { k with id := (t.core c).copyNext, ctx := x, seq := (t.core c).seq, dc := (t.ctx c x).dc })) := by
  subst hc hx
  unfold issueCopy
  rw [if_neg hn]
  refine (Gives.get s).bind (horder.bind ((await_gives (by simpa using hqueue) s).bind ((awaitFor_gives (by simpa using hboard) s).bind ?_)))
  rw [hres]
  refine (Gives.set s t).bind ((takeCopyId_gives t).bind ((Gives.modCore _ _).bind ((Gives.change _ _).bind ?_)))
  simp only [State.onCore, State.modCore_issue, State.modCore_modCore, hi]
  rfl

theorem awaitFor_waits {p : Bool} {l : List Chore} (h : p = false) (s : State) : (awaitFor p l).run s = .error (.stall l) := by
  subst h
  rfl

/-- Settles O20: CPY, RCPY and SSWEEP hand their copy to the copy unit by one routine, and CPYW reads the unit's list. -/
theorem copyWordsHandOverACopy : Obligations.CopyWordsHandOverACopy := by
  unfold Obligations.CopyWordsHandOverACopy
  refine ⟨?_, ?_, ?_, ?_, ?_, ?_, ?_⟩
  · intro d a s s1 t l k c ranges e hclear hd ha hl hcheck hlen horder hqueue hboard hres hi1 hi
    have hissue := issueCopy_gives (c := c) (x := s.issue.ctx) (by rw [hi1]) (by rw [hi1]) hlen horder hqueue hboard hres (hi.trans hi1.symm)
    exact run_ok hclear rfl (by rw [hd, ha]; rfl) (hl.bind (hcheck.bind (hissue.bind (xset_gives d _ _))))
      (hclear.readsOk' ((State.putX_issue _ _ _).trans hi))
  · intro d a s s1 l k c hclear hd ha hl hun hcore hcheck hlen
    have hissue : Gives (issueCopy k (if false = true then 0 else k.len * k.rows)) s1 (s1.core c).copyNext
        (s1.modCore c (fun co => { co with copyNext := (co.copyNext + 1) % 2 ^ 16 })) := by
      rw [if_neg Bool.false_ne_true, hlen, ← hcore]
      exact issueCopy_none k s1
    exact run_ok hclear rfl (by rw [hd, ha]; rfl) (hl.bind (hcheck.bind (hissue.bind (xset_gives d _ _)))) (State.readsOk_of hun (State.putX_issue _ _ _))
  · intro d a b s t id x n side hclear hd ha hb hn hal hreach hissue hun
    have hreq : (!(decide (2 ^ 32 < n) || (!bit x 63 && (bf x 32 31 != 0 || bf x 0 32 % 8 != 0 ||
        decide (s.windowSize s.issue.core (bf x 24 8) < 8 * n))))) = true := by
      by_cases hg : bit x 63 = true
      · simpa [hg] using hn
      · rw [if_neg hg] at hreach
        obtain ⟨hzero, haligned, hsize⟩ := hreach
        simpa [hg, hzero, haligned, hsize] using hn
    have h5 : (!(bit x 63 && bf x 0 55 % 8 != 0)) = true := by rw [hal]; simp
    have h6 : (!(bit x 63 && n != 0 && decide (2 ^ 55 ≤ bf x 0 55 + 8 * (n - 1)))) = true := by
      by_cases hg : bit x 63 = true
      · rw [if_pos hg] at hreach
        rcases hreach with h0 | hlt
        · simp [h0]
        · simp only [Bool.not_eq_true', Bool.and_eq_false_iff, decide_eq_false_iff_not]
          exact .inr (by omega)
      · simp [hg]
    exact run_ok hclear rfl (by rw [hd, ha, hb]; rfl) ((require_gives hreq s).bind ((withheld_gives h5 s).bind ((withheld_gives h6 s).bind
      (hissue.bind (xset_gives d _ t))))) (State.readsOk_of hun (State.putX_issue _ _ _))
  · intro d a h s t ring slot id c side hclear hd ha hring hprod hcheck hslot hissue hun hcore hin
    refine run_ok hclear rfl (by rw [hd, ha]; rfl) ?_ (State.readsOk_of hun (by simp))
    dsimp only
    rw [hring]
    refine (require_gives (by rw [hprod]; rfl) s).bind (hcheck.bind ?_)
    rw [hslot]
    refine hissue.bind ((Gives.getCore t).bind ?_)
    rw [hcore, hin]
    exact (Gives.change _ t).bind (xset_gives d _ _)
  · intro d a h s t ring slot id c side hclear hd ha hring hcons hcheck hslot hfull hissue hun hcore hin
    refine run_ok hclear rfl (by rw [hd, ha]; rfl) ?_ (State.readsOk_of hun (by simp))
    dsimp only
    rw [hring]
    refine (require_gives (by rw [hcons]; rfl) s).bind (hcheck.bind ?_)
    rw [hslot]
    refine (awaitFor_gives (by rw [hfull]; rfl) s).bind (hissue.bind ((Gives.getCore t).bind ?_))
    rw [hcore, hin]
    exact (Gives.change _ t).bind (xset_gives d _ _)
  · intro a e s k hclear ha hk
    refine ⟨fun he hr => ?_, fun hw => ?_⟩
    · refine run_ok hclear rfl (by rw [ha]; rfl) ((Gives.getCore s).bind ?_) hclear.readsOk
      rw [hk]
      exact awaitFor_gives (by rw [he, hr]; rfl) s
    · refine run_waits hclear (by rw [ha]; rfl) ((Gives.getCore s).throws ?_)
      rw [hk]
      refine awaitFor_waits ?_ s
      rcases hw with h | h
      · rw [beq_eq_false_iff_ne.2 h, Bool.false_and]
      · rw [h, Bool.and_false]
  · intro a e s hclear ha hk
    refine run_ok hclear rfl (by rw [ha]; rfl) ((Gives.getCore s).bind ?_) hclear.readsOk
    rw [hk]
    rfl

end Sys2Proof.Machine

namespace Sys2Proof.Machine
/-!
SUPPORT. Window, page-fetch, ring, tile and context words (08 R199-R204; 11 R300, R301; 04 R78, R95-R97).
-/

open Sys2Proof

/-! ### Windows and page fetches -/

theorem winOk_of {v : W64} (h1 : 1 ≤ v.toNat) (h2 : v.toNat ≤ 255) : winOk v = true := by
  simp [winOk, h1, h2]

@[simp] theorem State.winsetNow_issue (s : State) (c w : Nat) (e : Win) : (s.winsetNow c w e).issue = s.issue := by
  unfold State.winsetNow
  dsimp only
  (repeat' split) <;> rfl

/-- Settles O21: a WINSET takes effect at once or waits for the commit, and PFLIST hands its chain to the page-fetch engine. -/
theorem windowWordsReachTheWindowTable : Obligations.WindowWordsReachTheWindowTable := by
  unfold Obligations.WindowWordsReachTheWindowTable
  refine ⟨?_, ?_, ?_⟩
  · intro a b s s1 l w e k hclear ha hb h1 h255 hl hbad hi
    have hnow : ∀ t, s1.winsetsAtOnce = true → s1.winsetNow s.issue.core w e = t → Completes (.winset a b) s t := by
      intro t hat ht
      refine run_ok hclear rfl (by rw [ha, hb, winOk_of h1 h255]; rfl) (hl.bind ?_) (hclear.readsOk' (t := t) (by rw [← ht]; simp [hi]))
      rw [if_neg (by rw [hbad]; exact Bool.false_ne_true)]
      refine (Gives.get s1).bind ?_
      rw [if_pos hat, hi]
      exact (Gives.set s1 _).to ht
    refine ⟨fun hat hnone => hnow _ hat ?_, fun hat hown => hnow _ hat ?_, ?_, fun hat hroom => ?_⟩
    · simp only [State.winsetNow, show tfind (s1.cluster (clusterOf s.issue.core)).instant w = none from hnone]
      rfl
    · simp only [State.winsetNow, show tfind (s1.cluster (clusterOf s.issue.core)).instant w = some s.issue.core from hown, if_neg (not_not_intro rfl)]
      rfl
    · intro o hat hother ho t
      refine hnow _ hat ?_
      simp only [State.winsetNow, show tfind (s1.cluster (clusterOf s.issue.core)).instant w = some o from hother, if_pos ho]
      rfl
    · refine run_ok hclear rfl (by rw [ha, hb, winOk_of h1 h255]; rfl) (hl.bind ?_)
        (hclear.readsOk' (t := s1.winsetLater s.issue.core w e) hi)
      rw [if_neg (by rw [hbad]; exact Bool.false_ne_true)]
      refine (Gives.get s1).bind ?_
      rw [if_neg (by rw [hat]; exact Bool.false_ne_true), hi, if_pos hroom]
      exact Gives.set s1 _
  · intro d a k s e hclear hd ha h1 h255
    refine run_ok hclear rfl (by rw [hd, ha, winOk_of h1 h255]; rfl) ((xset_gives d _ s).to (congrArg (s.putX d) ?_))
      (hclear.readsOk' (State.putX_issue _ _ _))
    have hcases : ∀ k : BitVec 2, k = 0 ∨ k = 1 ∨ k = 2 ∨ k = 3 := by decide
    rcases hcases k with rfl | rfl | rfl | rfl <;> rfl
  · intro a s p c hclear ha h5 h6 hpoint hic
    have hbody : ∀ {t}, (if p = 0 then MonadStateOf.set (s.cancelChains c) else
        match s.walkChain c (s.tenantOf c) p.toNat 65536 with
        | .error l => stallFor l
        | .ok [] => MonadStateOf.set ((s.cancelChains c).handOver c [{ addr := p }])
        | .ok l => MonadStateOf.set (((s.lookups c (s.tenantOf c) (l.map (fun e => e.addr.toNat))).cancelChains c).handOver c l) : M Unit).run s
          = .ok ((), t) → t.issue = s.issue → Completes (.pflist a) s t := by
      intro t ht hi
      refine run_ok hclear rfl (by rw [ha]; rfl) ?_ (hclear.readsOk' hi)
      dsimp only
      rw [if_neg (fun h => h.1 h5), if_neg (not_not_intro h5), if_neg (not_not_intro h6)]
      exact (passPoint_gives hpoint).bind ht
    refine ⟨fun h0 => hbody ?_ hic, ?_⟩
    · rw [if_pos h0]
      rfl
    · intro x l h0 hwalk t hi
      refine hbody ?_ hi
      rw [if_neg h0, hwalk]
      rfl

/-! ### Rings -/

/-- A clear access-half word whose body finds an illegal operand traps with cause 2 and its word. -/
theorem run_body_operand_traps {s : State} {i : Instr} {body : M Unit} {opd : Bool} {v : W64} (h : s.clear i) (hhalf : halfOf i = .ah)
    (hopd : opd = false) (hb : body.run s = .error (.trap 2 v false)) (hh : s.cur.handled 2 0 = true) :
    run i false opd body s = .next (s.trapsTo i .ah 2 (wordOf i)).quiet := by
  subst hopd
  have hrun : (do body; checkReads false : M Unit).run s = .error (.trap 2 v false) := throws_first hb
  have ha : attempt i false false false body s = .error (.trap 2 (wordOf i) false) := by
    unfold attempt
    simp only [h.1, List.any_nil, firstCause_clear h, hrun]
    simp
  have hset := settle_of_trap (n := 17) ha (by decide) hh
  rw [h.trapHalf, hhalf] at hset
  exact congrArg _ hset

theorem ringFor_gives {s : State} {h : BitVec 4} {party : Ring → Nat} {r : Ring} (hr : (s.core s.issue.core).ring h.toNat = some r)
    (hp : party r = 0) : Gives (ringFor h party) s r s := by
  refine (Gives.getCore s).bind ?_
  rw [hr]
  exact (require_gives (by rw [hp]; rfl) s).bind (Gives.pure r s)

theorem no_slot_held {o : Option Ring} : (∀ r, o = some r → r.slots = []) → (match o with | some r => !r.slots.isEmpty | none => false) = false := by
  intro h
  cases o with
  | none => rfl
  | some r => simp [h r rfl]

/-- Settles O22: a ring word reads the ring that its number names and moves one of its positions on. -/
theorem ringWordsMoveAPositionOn : Obligations.RingWordsMoveAPositionOn := by
  unfold Obligations.RingWordsMoveAPositionOn
  refine ⟨?_, ?_, ?_, ?_, ?_, ?_, ?_⟩
  · intro a h s s1 l hclear ha hl hun hzero hbad hfree hroom
    have hheld := no_slot_held hfree
    refine run_ok hclear rfl (by rw [ha]; rfl) (hl.bind ((Gives.getCore s1).bind ?_)) (State.readsOk_of hun rfl)
    dsimp only
    rw [if_neg (by rw [hzero]; exact Bool.false_ne_true), if_neg ?_]
    · exact Gives.modCore _ s1
    · rw [hbad]
      simp only [Bool.false_or, Bool.or_eq_true, decide_eq_true_eq, not_or]
      exact ⟨fun hx => Bool.false_ne_true (hheld.symm.trans hx), by omega⟩
  · intro a h s s1 l hclear ha hl hzero
    refine ⟨fun hun hfree => ?_, fun r hr hslots hign hhandled => ?_⟩
    · have hheld := no_slot_held hfree
      refine run_ok hclear rfl (by rw [ha]; rfl) (hl.bind ((Gives.getCore s1).bind ?_)) (State.readsOk_of hun rfl)
      dsimp only
      rw [if_pos hzero]
      exact ite_gives (fun hx => absurd (hheld.symm.trans hx) Bool.false_ne_true) (fun _ => Gives.modCore _ s1)
    · refine run_body_operand_traps (v := 0) hclear rfl (by rw [ha]; rfl) (hl.throws ((Gives.getCore s1).throws ?_)) hhandled
      dsimp only
      rw [if_pos hzero, hr, if_pos (by simpa using hslots)]
      rfl
  · intro d h s r slot c hclear hd hr hprod hslot
    refine run_ok hclear rfl (by rw [hd]; rfl) ((ringFor_gives hr hprod).bind ?_) (hclear.readsOk'
      (t := (s.modRing c h.toNat (fun g => g.begin slot)).putX d (w64 r.pnext)) (by simp))
    rw [hslot]
    exact (Gives.change _ s).bind (xset_gives d _ _)
  · intro h s r x c hclear hr hprod hx hrel
    refine run_ok hclear rfl rfl ((ringFor_gives hr hprod).bind ?_) (hclear.readsOk' (t := s.modRing c h.toNat (fun g => g.mark x.pos .full)) (by simp))
    rw [hx]
    exact (releaseNow_gives hrel).bind (Gives.change _ s)
  · intro d h s r x c hclear hd hr hcons hx hfull
    refine run_ok hclear rfl (by rw [hd]; rfl) ((ringFor_gives hr hcons).bind ?_) (hclear.readsOk'
      (t := (s.modRing c h.toNat (fun g => { g.mark x.pos .draining with cnext := g.cnext + 1 })).putX d (w64 x.pos)) (by simp))
    rw [hx]
    dsimp only
    rw [if_pos hfull]
    exact (Gives.change _ s).bind (xset_gives d _ _)
  · intro h s r x c hclear hr hcons hx hrel
    refine run_ok hclear rfl rfl ((ringFor_gives hr hcons).bind ?_) (hclear.readsOk' (t := s.modRing c h.toNat (fun g => g.free x.pos)) (by simp))
    rw [hx]
    exact (releaseNow_gives hrel).bind (Gives.change _ s)
  · intro d a h s r c hclear hd ha hr
    exact run_ok hclear rfl (by rw [hd, ha]; rfl) ((ringFor_gives hr rfl).bind (xset_gives d _ s)) (hclear.readsOk' (State.putX_issue _ _ _))

/-! ### Tiles and contexts -/

/-- Settles O23: TNEXT takes the next tile of the core's deal, or branches when none is left. -/
theorem tileDealingGivesTheNextTile : Obligations.TileDealingGivesTheNextTile := by
  unfold Obligations.TileDealingGivesTheNextTile
  intro d im s m c own k cols hclear hctx hd hm
  have hill : (s.issue.ctx == 4) = false := beq_eq_false_iff_ne.2 hctx
  refine ⟨fun hk => ?_, fun hk => ?_⟩
  · refine run_ok hclear hill (by rw [hd]; rfl) ?_ (hclear.readsOk' (t := ((s.onCore (fun co => { co with dealt := co.dealt + 1 })).putX d
      (w64 ((own.1 + k) / cols * 2 ^ 32 + (own.1 + k) % cols))).onCur (fun x => x.follow s.issue.addr x.eh.isEmpty)) (by simp))
    dsimp only
    rw [hm]
    dsimp only
    rw [if_pos hk]
    refine (Gives.modCore _ s).bind ((xset_gives d _ _).bind ((fallThrough_gives _).to ?_))
    rw [State.putX_issue]
    rfl
  · refine run_ok hclear hill (by rw [hd]; rfl) ?_ (hclear.readsOk' (t := s.onCur (fun x => { x with pc := s.issue.addr + wi (4 * s.imm im), edge := none })) rfl)
    dsimp only
    rw [hm]
    dsimp only
    rw [if_neg (Nat.not_lt.2 hk)]
    exact jump_gives _ s

/-- The first idle context of a core's four (R64). -/
theorem find_idle_none {s : State} {c : Nat} (h : ∀ k < 4, (s.ctx c k).active = true) :
    (List.range 4).find? (fun k => !(s.ctx c k).active) = none := by
  rw [List.find?_eq_none]
  exact fun k hk => by simp [h k (List.mem_range.1 hk)]

theorem find_idle_some {s : State} {c k : Nat} (hk : k < 4) (hidle : (s.ctx c k).active = false) (hbusy : ∀ j < k, (s.ctx c j).active = true) :
    (List.range 4).find? (fun k => !(s.ctx c k).active) = some k := by
  rw [List.find?_range_eq_some]
  exact ⟨by simp [hidle], List.mem_range.2 hk, fun j hj => by simp [hbusy j hj]⟩

/-- Settles O24: each word of contexts starts, ends or queues what its rule says (which groups can be placed is log entry 33). -/
theorem contextWordsStartAndEndWork : Obligations.ContextWordsStartAndEndWork := by
  unfold Obligations.ContextWordsStartAndEndWork
  refine ⟨?_, ?_, ?_, ?_, ?_⟩
  · intro s hclear hin hi
    exact run_ok hclear hin rfl (Gives.change _ s) (hclear.readsOk' hi)
  · intro d a b s s1 s2 t pc arg c x hclear hctx hbad hpa hpb hread
    have hill : (s.issue.ctx == 4) = false := beq_eq_false_iff_ne.2 hctx
    refine ⟨fun hall hpush => ?_, fun k hk hidle hbusy hpush => ?_⟩
    · refine run_ok hclear hill hbad (hpa.bind (hpb.bind ?_)) hread
      rw [find_idle_none hall]
      exact hpush
    · refine run_ok hclear hill hbad (hpa.bind (hpb.bind ?_)) hread
      rw [find_idle_some hk hidle hbusy]
      exact (Gives.change _ s2).bind hpush
  · intro a b s s1 s2 m pc arg hclear hctx ha hb hpa hpb hread hm
    refine run_ok hclear (beq_eq_false_iff_ne.2 hctx) (by rw [ha, hb]; rfl) (hpa.bind (hpb.bind ?_)) hread
    dsimp only
    rw [hm]
    exact Gives.change _ s2
  · intro d a s s0 s1 t x l key m hclear hctx hbad hpa hl hgang hread hkey hm
    have hill : (s.issue.ctx == 4) = false := beq_eq_false_iff_ne.2 hctx
    refine ⟨fun hplace hpush => ?_, fun hplace hpush => ?_⟩
    · refine run_ok hclear hill hbad (hpa.bind (hl.bind ?_)) hread
      dsimp only
      rw [if_neg (by rw [hgang]; exact Bool.false_ne_true), hkey, hm]
      dsimp only
      rw [if_pos hplace]
      exact (Gives.change _ s1).bind hpush
    · refine run_ok hclear hill hbad (hpa.bind (hl.bind ?_)) hread
      dsimp only
      rw [if_neg (by rw [hgang]; exact Bool.false_ne_true), hkey, hm]
      dsimp only
      rw [if_neg (by rw [hplace]; exact Bool.false_ne_true)]
      exact hpush
  · intro d a s s0 s1 t x l key hclear hctx hbad hpa hl hread hkey hpush
    refine run_ok hclear (beq_eq_false_iff_ne.2 hctx) hbad (hpa.bind (hl.bind ?_)) hread
    rw [hkey]
    exact (Gives.change _ s1).bind hpush

end Sys2Proof.Machine

namespace Sys2Proof.Machine
/-!
SUPPORT. The words of the engines (11 R267-R290).
-/

open Sys2Proof

/-! ### Jobs -/

theorem takeJobId_gives (s : State) : Gives takeJobId s (s.core s.issue.core).jobNext
    (s.onCore (fun c => { c with jobNext := (c.jobNext + 1) % 2 ^ 16 })) := rfl

theorem submit_gives {s : State} {t : Nat} {j : Job} (h : (s.team t).queue.length < Config.jobQueue) :
    Gives (submit t j) s (s.core s.issue.core).jobNext (s.submitted t j) := by
  refine (Gives.get s).bind ((await_gives (by simpa using h) s).bind ((takeJobId_gives s).bind ((Gives.get _).bind ((Gives.modCore _ _).bind
    ((Gives.change _ _).bind ?_)))))
  simp only [State.onCore, State.modCore_issue, State.modCore_modCore]
  rfl

theorem getCore_at {s : State} {c : Nat} (h : s.issue.core = c) : Gives getCore s (s.core c) s := h ▸ Gives.getCore s

theorem modCore_at {s : State} {c : Nat} (h : s.issue.core = c) (f : Core → Core) : Does (modCore f) s (s.modCore c f) := h ▸ Gives.modCore f s

/-- A choice of a read before the rest of a word. -/
theorem ite_bind_gives [Decidable p] {a b : M α} {k : α → M β} (h : Gives (if p then a else b) s x s1) (hk : Gives (k x) s1 y t) :
    Gives (if p then a >>= k else b >>= k) s y t := by
  split
  · rw [if_pos ‹_›] at h
    exact h.bind hk
  · rw [if_neg ‹_›] at h
    exact h.bind hk

theorem submit_at {s : State} {c t : Nat} {j : Job} (hc : s.issue.core = c) (h : (s.team t).queue.length < Config.jobQueue) :
    Gives (submit t j) s (s.core c).jobNext (s.submitted t j) := hc ▸ submit_gives h

/-- Settles O36: a command of the matrix engine takes the core's next identifier as its job joins the queue (its weight is log entry 27). -/
theorem matrixCommandsQueueAJob : Obligations.MatrixCommandsQueueAJob := by
  unfold Obligations.MatrixCommandsQueueAJob
  refine ⟨?_, ?_, ?_, ?_⟩
  · intro a n s s1 l hclear ha hl hun hbad
    refine run_ok hclear rfl (by rw [ha]; rfl) (hl.bind ?_) (State.readsOk_of hun rfl)
    rw [if_neg (by rw [hbad]; exact Bool.false_ne_true)]
    exact Gives.modCore _ s1
  · intro west d n s t i c hclear hd hviews horder j hroom hpush hread
    have hexec : exec i s = loadTile i west d n s := by cases west <;> rfl
    rw [Completes, hexec]
    exact run_ok hclear rfl (by rw [hd]; rfl) (hviews.bind (horder.bind ((submit_gives hroom).bind hpush))) hread
  · intro d a s s1 s2 t j c key group hclear hd ha hj hread1 hc1 hbad hscope horder hroom hres hc2 hroom2 hpush hread
    refine run_ok hclear rfl (by rw [hd]; simpa using ha) (hj.bind ((getCore_at hc1).bind ((require_gives (by rw [hbad]; rfl) s1).bind
      ((require_gives (by simpa using hscope) s1).bind (horder.bind ((Gives.get s1).bind ((await_gives (by simpa using hroom) s1).bind
      (hres.bind ?_)))))))) hread
    exact granted_gives ((Gives.get s2).bind ((submit_at hc2 hroom2).bind ((modCore_at (by exact hc2) _).bind hpush)))
  · intro d a b s s1 s2 s3 t j cap e c hclear hd ha hb hj hcap hread2 hc2 hbad hfirst hfinal hacc hskind hdring hscope horder hroom hres hroom3 hc3 hpush hread
    refine run_ok hclear rfl (by rw [hd, hb]; simpa using ha) (hj.bind (hcap.bind ((getCore_at hc2).bind ((require_gives ?_ s2).bind
      ((require_gives (by simpa using hscope) s2).bind (horder.bind ((Gives.get s2).bind ((await_gives (by simpa using hroom) s2).bind
      (hres.bind ?_))))))))) hread
    · rw [hbad, hfirst, hfinal, hacc, hskind, hdring]
      rfl
    · exact granted_gives ((Gives.get s3).bind ((submit_at hc3 hroom3).bind hpush))

/-- Settles O37: records, streams, the lead span and capabilities, each word by the table that it reads or changes. -/
theorem matrixControlWordsReportAndConnect : Obligations.MatrixControlWordsReportAndConnect := by
  unfold Obligations.MatrixControlWordsReportAndConnect
  refine ⟨?_, ?_, ?_, ?_, ?_, ?_, ?_⟩
  · intro d a s s1 t x hclear hbad hx hread1 hdone hpush hread
    exact run_ok hclear rfl hbad (hx.bind ((checkReads_ok hread1).bind ((Gives.get s1).bind ((await_gives (by rw [hdone]; rfl) s1).bind hpush)))) hread
  · intro d a s s1 s2 t x y hclear hlegal hx hy hpush hread
    have hbad : s.gBad d [a] = false := by simpa using hlegal
    exact run_ok hclear rfl hbad (hx.bind (hy.bind hpush)) hread
  · intro d a n s t c k v hclear hd hviews horder hrows hfmt
    have hreq : (!(decide (128 < v.rows) || v.fmt == 0)) = true := by simp [hrows, hfmt]
    refine ⟨fun hsome hpush hread => ?_, ?_⟩
    · refine run_ok hclear rfl (by rw [hd]; rfl) (hviews.bind ((Gives.getCore s).bind ((require_gives hreq s).bind (horder.bind ((Gives.get s).bind ?_))))) hread
      exact ite_gives (fun _ => hpush) (fun h => absurd hsome h)
    · intro hnone hroom st hpush hread
      refine run_ok hclear rfl (by rw [hd]; rfl) (hviews.bind ((Gives.getCore s).bind ((require_gives hreq s).bind (horder.bind ((Gives.get s).bind ?_))))) hread
      refine ite_gives (fun h => absurd h (by rw [hnone]; exact Bool.false_ne_true)) fun _ => ?_
      exact (await_gives (by simpa using hroom) s).bind ((Gives.get s).bind ((Gives.change _ s).bind hpush))
  · intro d a b s s1 t x e hclear hbad hx hread1 hpoint h1 h2
    have hreq : (decide (1 ≤ x.toNat) && decide (x.toNat ≤ 65535)) = true := by simp [h1, h2]
    refine ⟨fun hany hpush hread => ?_, fun hany hpush hread => ?_⟩
    · refine run_ok hclear rfl hbad (hx.bind ((require_gives hreq s1).bind ((checkReads_ok hread1).bind ((passPoint_gives hpoint).bind
        ((Gives.get s1).bind ?_))))) hread
      exact ite_gives (fun _ => hpush) (fun h => absurd hany h)
    · refine run_ok hclear rfl hbad (hx.bind ((require_gives hreq s1).bind ((checkReads_ok hread1).bind ((passPoint_gives hpoint).bind
        ((Gives.get s1).bind ?_))))) hread
      refine ite_gives (fun h => absurd h (by rw [hany]; exact Bool.false_ne_true)) fun _ => ?_
      exact (Gives.change _ s1).bind hpush
  · intro a s e t hclear hi
    exact run_ok hclear rfl rfl (Gives.change _ s) (hclear.readsOk' hi)
  · intro d a n s s1 t cap e hclear hbad he h1 h4 hcap hread1 hpoint keys
    have hopd : (s.gBad d [a] || e % 16 != 0 || decide (n.toNat < 1) || decide (4 < n.toNat)) = false := by
      rw [hbad, he]
      simp
      omega
    refine ⟨fun hst hpush hread => ?_, fun hst hpush hread => ?_⟩
    · refine run_ok hclear rfl hopd (hcap.bind ((checkReads_ok hread1).bind ((passPoint_gives hpoint).bind ((Gives.get s1).bind ?_)))) hread
      refine ite_gives (fun _ => (Gives.change _ s1).bind ?_) (fun h => absurd hst h)
      rw [hst]
      exact hpush
    · refine run_ok hclear rfl hopd (hcap.bind ((checkReads_ok hread1).bind ((passPoint_gives hpoint).bind ((Gives.get s1).bind ?_)))) hread
      exact ite_gives (fun h => absurd h hst) (fun _ => hpush)
  · intro d a b s s1 s2 t x y low hclear hbad hx hy hread2 h13 h16 hpush hread
    exact run_ok hclear rfl hbad (hx.bind (hy.bind ((require_gives (by rw [h13, h16]; rfl) s2).bind ((checkReads_ok hread2).bind hpush)))) hread

/-! ### Rows and banks -/

theorem walkersDone_gives {s : State} (h : s.cur.unwritten.isEmpty = true) : Does walkersDone s s :=
  (Gives.get s).bind ((Gives.getCtx s).bind (awaitFor_gives h s))

/-- Settles O38: a handler context names, drops or writes the row that it holds. -/
theorem handlerWordsNameAndReleaseTheRow : Obligations.HandlerWordsNameAndReleaseTheRow := by
  unfold Obligations.HandlerWordsNameAndReleaseTheRow
  have hill : ∀ {s : State}, s.issue.ctx = 4 → (s.issue.ctx != 4) = false := fun h => by rw [h]; rfl
  refine ⟨?_, ?_, ?_⟩
  · intro d s t r j hclear hctx hd hrow hjob hpush hread
    refine run_ok hclear (hill hctx) (by rw [hd]; rfl) ((Gives.getCtx s).bind ?_) hread
    rw [hrow]
    refine (Gives.get s).bind ?_
    rw [hjob]
    exact hpush
  · intro app m s r j hclear hctx hwritten hrow hjob hi
    refine run_ok hclear (hill hctx) rfl ((walkersDone_gives hwritten).bind ((Gives.getCtx s).bind ?_)) (hclear.readsOk' hi)
    rw [hrow]
    refine (Gives.get s).bind ?_
    rw [hjob]
    refine ite_gives (fun h => absurd h.2 (by decide)) fun _ => (Gives.pure _ s).bind (ite_gives (fun h => absurd h (by decide)) fun _ => ?_)
    exact (Gives.pure _ s).bind ((checkReads_ok hclear.readsOk).bind (ite_gives (fun _ => Gives.change _ s) (fun h => absurd rfl h)))
  · intro app m s s0 s1 t r j mask row w hclear hctx hwritten hrow hjob hmask hread hread1 hfin hreadt
    refine run_ok hclear (hill hctx) rfl ((walkersDone_gives hwritten).bind ((Gives.getCtx s).bind ?_)) hreadt
    rw [hrow]
    refine (Gives.get s).bind ?_
    rw [hjob]
    have hmask' : Gives (if app = 1 ∧ (0 : BitVec 1) = 0 then rsRead (vAddr s.issue.view m.toNat) 16 else pure (2 ^ 128 - 1)) s mask s0 := by
      simpa only [and_true] using hmask
    refine ite_bind_gives hmask' (ite_gives (fun _ => hread.bind ((checkReads_ok hread1).bind ?_)) (fun h => absurd rfl h))
    refine ite_gives (fun h => absurd h (by decide)) fun _ => (Gives.get s1).bind ?_
    rw [show s1.finishRow { core := s.issue.core, cluster := clusterOf s.issue.core } r.team j r.row r.pos _ _ = .ok t from hfin]
    exact (Gives.set s1 t).bind (Gives.change _ t)

/-- From s to t the issue and every context stay. -/
def State.KeepsCtxs (s t : State) : Prop := t.issue = s.issue ∧ ∀ c k, t.ctx c k = s.ctx c k

theorem State.shadowFor_keeps {s t : State} {v p : Nat} {pch : Option Nat} (h : s.shadowFor v p pch = .ok t) : s.KeepsCtxs t := by
  unfold State.shadowFor at h
  repeat' split at h
  all_goals cases h
  all_goals exact ⟨rfl, fun _ _ => rfl⟩

theorem State.modCore_keeps {s : State} {c : Nat} {f : Core → Core} (h : (f (s.core c)).ctxs = (s.core c).ctxs) : s.KeepsCtxs (s.modCore c f) := by
  have hk : s.KeepsBytes (fun _ _ => True) (fun _ _ => True) (s.modCore c f) := .modCore h fun _ ha => absurd trivial ha
  exact ⟨hk.issue, hk.ctx⟩

theorem State.reserve1_keeps {s t : State} {c : Nat} {g : Bool} {a : W64} (h : s.reserve1 c g a = .ok t) : s.KeepsCtxs t := by
  unfold State.reserve1 at h
  dsimp only at h
  split at h
  · cases h
    exact ⟨rfl, fun _ _ => rfl⟩
  · cases h
  · split at h
    · cases h
      exact State.modCore_keeps rfl
    · cases h
  · split at h
    · cases h
      exact ⟨rfl, fun _ _ => rfl⟩
    · cases h
  · split at h
    · cases h
      exact ⟨rfl, fun _ _ => rfl⟩
    · cases h
  · split at h
    · cases h
      exact State.shadowFor_keeps ‹_›
    · cases h

theorem reserveEach_keeps {one : State → α → Except EStop State} (hone : ∀ s a t, one s a = .ok t → s.KeepsCtxs t) (l : List α) (s t : State)
    (h : reserveEach one s l = .ok t) : s.KeepsCtxs t := by
  induction l generalizing s with
  | nil =>
    cases h
    exact ⟨rfl, fun _ _ => rfl⟩
  | cons a r ih =>
    unfold reserveEach at h
    split at h
    · obtain ⟨hi, hc⟩ := hone _ _ _ ‹_›
      obtain ⟨hi', hc'⟩ := ih _ h
      exact ⟨hi'.trans hi, fun c k => (hc' c k).trans (hc c k)⟩
    · split at h <;> cases h

theorem State.reserveAll_keeps {s t : State} {c : Nat} {g : Bool} {l : List W64} (h : s.reserveAll c g l = .ok t) : s.KeepsCtxs t :=
  reserveEach_keeps (fun _ _ _ => State.reserve1_keeps) l s t h

/-- Reads are judged by the issue and the contexts only. -/
theorem State.KeepsCtxs.readsOk {s t : State} (h : s.KeepsCtxs t) (ht : t.readsOk) : s.readsOk := by
  obtain ⟨hi, hc⟩ := h
  unfold State.readsOk at *
  rwa [hi, hc] at ht

/-- Settles O39: a near-bank command is queued under the core's next identifier, and BWAIT reads the record of an ended one. -/
theorem nearBankWordsStartAndReport : Obligations.NearBankWordsStartAndReport := by
  unfold Obligations.NearBankWordsStartAndReport
  refine ⟨?_, ?_⟩
  · intro d a s s1 s2 u t lo hi c b g id s3 lines r hclear hd ha hlo hhi hc2 hbad hscope hregion h3 h2 hx horder hflight hres hcu hreadu hpush hread
    obtain ⟨p, e, hx⟩ := hx
    have h2' : (!(sideGlobal b.w2 && sideBase b.w2 % 8 != 0)) = true := by
      cases hg : sideGlobal b.w2
      · rfl
      · simp [h2 hg]
    have h3' : (!(sideGlobal b.w3 && sideBase b.w3 % 8 != 0)) = true := by
      cases hg : sideGlobal b.w3
      · rfl
      · simp [h3 hg]
    refine run_ok hclear rfl (by rw [hd]; simpa using ha) (hlo.bind (hhi.bind ((require_gives (by rw [hbad]; rfl) s2).bind
      ((require_gives (by simpa using hscope) s2).bind ((withheld_gives (by simpa using hregion) s2).bind ((withheld_gives h2' s2).bind
      ((withheld_gives h3' s2).bind ?_))))))) hread
    have hx' : s.xlate (s.tenantOf s.issue.core)
        (w64 ({ ctx := s.issue.ctx, w0 := w64 lo, w1 := w64 (lo >>> 64), w2 := w64 hi, w3 := w64 (hi >>> 64) } : Bank).region) .read = .ok p 3 e := hx
    dsimp only
    rw [hx']
    refine (withheld_gives rfl s2).bind ?_
    refine horder.bind ((getCore_at hc2).bind ((await_gives (by simpa using hflight) s2).bind ((Gives.modCore _ s2).bind ((Gives.get s3).bind ?_))))
    refine ite_gives (fun h => absurd h (by decide)) fun _ => ?_
    show Gives (match s3.reserveAll c g (lines.map w64) with | .error (.wait l) => _ | .error (.fault k a) => _ | .ok u => _) _ _ _
    rw [hres]
    refine (checkReads_ok ((State.reserveAll_keeps hres).readsOk hreadu)).bind ((Gives.set s3 _).bind ((modCore_at (c := c) ?_ _).bind hpush))
    show (if _ then _ else _ : Nat × State).2.issue.core = c
    split <;> exact hcu
  · intro d a s s1 t x r hclear hbad hx hread1 hdone hpush hread
    exact run_ok hclear rfl hbad (hx.bind ((checkReads_ok hread1).bind ((Gives.getCore s1).bind ((awaitFor_gives (by rw [show bf (Core.bankRecord _ _) 0 2 = 3 from hdone]; rfl) s1).bind
      hpush)))) hread

end Sys2Proof.Machine

namespace Sys2Proof.Machine
/-!
SUPPORT. Collectives, barriers, fences and waits (11 R291-R295, R302-R305; 05 R112, R113, R119).
-/

open Sys2Proof

/-! ### Collectives -/

/-- Reading an operand moves no translation. -/
theorem ahPop_xlate {s t : State} {c : BitVec 6} {x : W128} (h : Gives (ahPop c) s x t) (n : Nat) (a : W64) (k : Acc) :
    t.xlate (t.tenantOf n) a k = s.xlate (s.tenantOf n) a k := by
  rcases ahPop_cases h with ⟨-, -, -, rfl⟩ | ⟨q, e, r, -, -, rfl⟩
  · rfl
  · have hten := State.onCur_tenantOf s (fun k => k.setQue q r) n
    rw [← hten]
    cases e.mark <;> rfl

/-- What each step of a fold leaves, the fold leaves. -/
theorem foldl_leaves {f : σ → β → σ} {p : σ → γ} (h : ∀ s b, p (f s b) = p s) (l : List β) (s : σ) : p (l.foldl f s) = p s := by
  induction l generalizing s with
  | nil => rfl
  | cons b r ih => exact (ih _).trans (h s b)

theorem State.sendPost_issue (s : State) (v : Nat) (o : Coll) (l : List W64) : (s.sendPost v o l).issue = s.issue :=
  foldl_leaves (p := State.issue) (fun s _ => State.sendOut_issue s _) _ s

theorem State.sendPosts_issue (s : State) (o : Coll) (l : List W64) : (s.sendPosts o l).issue = s.issue :=
  foldl_leaves (p := State.issue) (fun s v => State.sendPost_issue s v o l) _ s

/-- Settles O40: COLL takes the lowest free slot, CWAIT reads the state of the operation that its identifier names (log entry 30), and
CSIG is a release store. -/
theorem collectiveWordsStartReportAndSignal : Obligations.CollectiveWordsStartReportAndSignal := by
  unfold Obligations.CollectiveWordsStartReportAndSignal
  refine ⟨?_, ?_, ?_⟩
  · intro d a s s1 l slot c dom o n hclear hd ha hl hun hpoint hbad h1 h3 h5 hfault htag hfree o'
    refine run_ok hclear rfl (by rw [hd, ha]; rfl) (hl.bind ((require_gives (by rw [hbad]; rfl) s1).bind
      ((withheld_gives (by rw [h1]; rfl) s1).bind ((withheld_gives (by rw [h3]; rfl) s1).bind ((withheld_gives (by rw [h5]; rfl) s1).bind
      ((withheld_gives (by rw [hfault]; rfl) s1).bind ?_))))))
      (State.readsOk_of hun ((State.putX_issue _ _ _).trans (State.sendPosts_issue _ _ _)))
    rw [htag]
    refine ite_gives (fun h => absurd h (by decide)) fun _ => (passPoint_gives hpoint).bind ?_
    rw [hfree]
    exact (Gives.change _ s1).bind (xset_gives d _ _)
  · intro d a s c dom id hclear hd ha
    refine ⟨fun o hstate => ?_, fun hstate => ?_, fun hstate => ?_⟩
    · refine run_ok hclear rfl (by rw [hd, ha]; rfl) ?_ (hclear.readsOk' (State.putX_issue _ _ _))
      rw [hstate]
      exact xset_gives d _ s
    · refine run_ok hclear rfl (by rw [hd, ha]; rfl) ?_ (hclear.readsOk' (State.putX_issue _ _ _))
      rw [hstate]
      exact xset_gives d _ s
    · refine run_waits hclear (by rw [hd, ha]; rfl) ?_
      rw [hstate]
      rfl
  · intro a b sc s s1 s2 u x v p e addr c id hclear ha hb hsc hpa hpb hun hi hal hx hprep hu
    have hc : s2.issue.core = s.issue.core := by rw [hi]
    have hxs : s.xlate (s.tenantOf s.issue.core) addr .write = .ok p 2 e := by
      rw [← ahPop_xlate hpa, ← ahPop_xlate hpb, ← hc]
      exact hx
    have hprep' : s2.gprepare s2.issue.core (s2.tenantOf s2.issue.core) addr = .ok (.posted, u) := hprep
    have hstore := globalStore_posted (n := 8) (v := (v.setWidth 64).toNat) (w := storeAfter 2 (Nat.max 2 sc.toNat) s.issue.seq) hprep'
    have hv : (v.setWidth 64).toNat = bf v 0 64 := by
      rw [BitVec.toNat_setWidth, bf, Nat.shiftRight_zero]
    have hafter : ∀ n, storeAfter 2 (Nat.max 2 sc.toNat) s.issue.seq s2.cur.point n = s2.cur.point.release (Nat.max 2 sc.toNat) n s.issue.seq :=
      fun _ => if_pos (.inl rfl)
    refine run_ok hclear rfl (by rw [ha, hb]; rfl) ((require_gives (by simpa using hsc) s).bind (hpa.bind (hpb.bind
      ((globalChecks_gives hal s2).bind ?_)))) (State.readsOk_of hun (by simp [hu]))
    rw [hxs]
    refine ite_gives (fun h => absurd h (by decide)) fun _ => (withheld_gives rfl s2).bind (hstore.to ?_)
    rw [hafter, hv, ← hi]

/-! ### Barriers -/

/-- Settles O41: a BAR waits at its slot and the core arrives when all of its contexts do; votes and requests keep the largest. -/
theorem barrierWordsWaitVoteAndRequest : Obligations.BarrierWordsWaitVoteAndRequest := by
  unfold Obligations.BarrierWordsWaitVoteAndRequest
  refine ⟨?_, ?_, ?_⟩
  · intro d a o sl s s1 v slot i w hclear hin hd ha hbound hres hv hun hwritten hw
    have hcause : (slot != 0 || s.cur.residue == 0 || s.issue.ign.contains 14) = true := by
      by_cases h : slot = 0
      · simp [hres h]
      · simp [h]
    refine run_ok hclear hin (by rw [hd, ha, hbound]; rfl) ((Gives.getCtx s).bind ((require_gives hcause s).bind (hv.bind ?_))) (State.readsOk_of hun hw)
    exact ite_gives (fun h => absurd (hres h.1) h.2) fun _ =>
      (walkersDone_gives hwritten).bind ((Gives.modCtx _ s1).bind ((Gives.modCore _ _).bind (Gives.change _ _)))
  · intro a c k s s1 g hclear ha hg hread
    have hopd : (c == 1 && !s.ehSrc false a) = false := by
      by_cases h : c = 1
      · simp [ha h]
      · simpa using fun h' => absurd h' h
    have hgo : Does (do checkReads false; if g ≠ (0 : W64) then modCtx (fun x => { x with vote := Nat.max x.vote k.toNat }) else pure ()) s1
        (if g ≠ (0 : W64) then s1.onCur (fun x => { x with vote := Nat.max x.vote k.toNat }) else s1) := by
      refine (checkReads_ok hread).bind ?_
      split
      · exact Gives.modCtx _ s1
      · exact Gives.pure () s1
    refine run_ok hclear rfl hopd (ite_bind_gives hg hgo) ?_
    split
    · exact hread.onCur rfl
    · exact hread
  · intro a s s1 g hclear ha hg hzero hread
    exact run_ok hclear rfl (by rw [ha]; rfl) (hg.bind ((require_gives (by rw [hzero]; rfl) s1).bind (Gives.modCore _ s1))) hread

/-! ### Fences and waits -/

/-- Settles O42: fences mark what is waited for, and a WAIT gives what it waited for once its condition holds. -/
theorem fencesAndWaitsGoOnWhenTheirConditionHolds : Obligations.FencesAndWaitsGoOnWhenTheirConditionHolds := by
  unfold Obligations.FencesAndWaitsGoOnWhenTheirConditionHolds
  refine ⟨?_, ?_, ?_, ?_, ?_, ?_, ?_, ?_, ?_⟩
  · intro sc s hclear hsc
    have hreq : (!(!((1 : BitVec 3) == 1 || (1 : BitVec 3) == 2 || (1 : BitVec 3) == 3) || decide (5 < sc.toNat))) = true := by
      simpa using hsc
    exact run_ok hclear rfl rfl ((require_gives hreq s).bind (ite_gives (fun h => absurd h (by decide)) (fun _ => rfl))) hclear.readsOk
  · intro sc k s hclear hsc hk
    have hreq : (!(!(k == 1 || k == 2 || k == 3) || decide (5 < sc.toNat))) = true := by
      rcases hk with rfl | rfl <;> simpa using hsc
    exact run_ok hclear rfl rfl ((require_gives hreq s).bind (ite_gives (fun _ => Gives.modCtx _ s) (fun h => absurd hk h))) (hclear.readsOk' rfl)
  · intro sc s hclear hsc
    exact run_ok hclear rfl rfl ((require_gives (by simpa using hsc) s).bind (openFence_gives s sc.toNat)) (hclear.readsOk' rfl)
  · intro c k s f hf
    refine ⟨fun htick hdone => ?_, fun htick hdone => ?_, fun t htick => ⟨fun hlt => ?_, fun hle => ?_⟩⟩
    · simp [State.scFence, hf, htick, hdone]
    · simp [State.scFence, hf, htick, hdone]
    · simp [State.scFence, hf, htick, hlt]
    · have heq : s.scFence c k = some (s.modCtx c k (fun x => { x with
          sc := none, scPass := if f.before then some f.seq else x.scPass,
          scPos := some { tick := t, dev := s.plat.devNo.toNat, gcid := s.gcid c, ctx := k } })) := by
        simp only [State.scFence, hf, htick, if_neg (Nat.not_lt.2 hle)]
      exact ⟨_, heq, by rw [State.modCtx_same], by rw [State.modCtx_same]⟩
  · intro s hclear hsettled hbanks
    exact run_ok hclear rfl rfl ((settled_gives hsettled false).bind ((Gives.get s).bind (awaitFor_gives hbanks s))) hclear.readsOk
  · intro d a b sc s t hclear hd hmail hpush hread
    refine run_ok hclear rfl (by rw [hd]; rfl) ((require_gives rfl s).bind ((Gives.getCore s).bind ?_)) hread
    exact ite_gives (fun _ => (await_gives (by simpa using hmail) s).bind hpush) (fun h => absurd rfl h)
  · intro d a b sc s t v hclear hd hv hpush hread
    refine run_ok hclear rfl (by rw [hd]; rfl) ((require_gives rfl s).bind ((Gives.getCore s).bind ?_)) hread
    exact ite_gives (fun h => absurd h (by decide)) fun _ => ite_gives (fun _ => (await_gives (by simpa using hv) s).bind hpush) (fun h => absurd rfl h)
  · intro d a b sc s s1 t x hclear hd ha hb hx htick hpush hread
    refine run_ok hclear rfl (by rw [hd, ha, hb]; rfl) ((require_gives rfl s).bind ((Gives.getCore s).bind ?_)) hread
    refine ite_gives (fun h => absurd h (by decide)) fun _ => ite_gives (fun h => absurd h (by decide)) fun _ => ite_gives (fun _ => ?_) (fun h => absurd rfl h)
    exact hx.bind ((await_gives (by simpa using htick) s1).bind hpush)
  · intro c hc d a b sc s s1 s2 s3 t x y w hclear hd ha hb hsc hx hy hw h2 h3 hpush hread
    have hgo : (if c = 2 then decide ((y.setWidth 64).toNat ≤ w.toNat) else w == y.setWidth 64) = true := by
      rcases hc with rfl | rfl
      · simpa using h2 rfl
      · simpa using h3 rfl
    have hreq : (!((c == 2 || c == 3) && decide (5 < sc.toNat))) = true := by
      rcases hc with rfl | rfl <;> simpa using hsc
    refine run_ok hclear rfl (by rw [hd, ha, hb]; simp) ((require_gives hreq s).bind ((Gives.getCore s).bind ?_)) hread
    have hne : c ≠ 0 ∧ c ≠ 1 ∧ c ≠ 4 := by rcases hc with rfl | rfl <;> decide
    refine ite_gives (fun h => absurd h hne.1) fun _ => ite_gives (fun h => absurd h hne.2.1) fun _ => ite_gives (fun h => absurd h hne.2.2) fun _ => ?_
    exact hx.bind (hy.bind (hw.bind ((await_gives hgo s3).bind hpush)))

end Sys2Proof.Machine

namespace Sys2Proof.Machine
/-!
SUPPORT. Traps and the words that end, return from or set up a context's flow (09 R216-R219, R226-R237).
-/

open Sys2Proof

/-! ### Illegal encodings -/

/-- A word that is illegal at decode is reported by the execute half, whatever its meaning is. -/
theorem runWith_illegal {s : State} {i : Instr} {ill opd vec : Bool} {body : M Unit} (hign : s.issue.ign = []) (hbad : badAtDecode s.issue.himm i = true)
    (hh : s.cur.handled 1 0 = true) : runWith i ill opd vec body s = .next (s.trapsTo i .eh 1 (wordOf i)).quiet := by
  have hfirst : s.firstCause i ill opd = some 1 := by simp [State.firstCause, hbad]
  have ha : attempt i ill opd vec body s = .error (.trap 1 (wordOf i) false) := by
    unfold attempt
    simp [hign, hfirst]
  have hset := settle_of_trap (n := 17) ha (by decide) hh
  rw [State.trapHalf, halfIn, if_pos hbad] at hset
  exact congrArg _ hset

theorem execVshuf_illegal {d a b : BitVec 6} {o : BitVec 3} {w : BitVec 2} {s : State} (hign : s.issue.ign = [])
    (hbad : badAtDecode s.issue.himm (.vshuf d a b o w) = true) (hh : s.cur.handled 1 0 = true) :
    execVshuf d a b o w s = .next (s.trapsTo (.vshuf d a b o w) .eh 1 (wordOf (.vshuf d a b o w))).quiet := by
  unfold execVshuf
  dsimp only
  split
  · exact runWith_illegal hign hbad hh
  · exact runWith_illegal hign hbad hh

/-- Settles O45: every word runs in one frame, which decides an illegal encoding before anything else (log entry 10). -/
theorem illegalEncodingsTrapWithTheirWord : Obligations.IllegalEncodingsTrapWithTheirWord := by
  intro i s h hign hbad hh
  exact match i, h, hbad with
    | .lwpost .., h, _ | .lwcancel .., h, _ | .lwcqhead .., h, _ | .split .., h, _ | .merge .., h, _ | .release .., h, _
    | .paddockConfigWrite .., h, _ | .vfBind .., h, _ | .exportTenant .., h, _ | .importTenant .., h, _ | .abandon .., h, _
    | .wdbudget .., h, _ | .rovasCommand .., h, _ | .membershipLoad .., h, _ | .pwcmd .., h, _ | .pwgate .., h, _
    | .pwhbm .., h, _ | .elhead .., h, _ | .stage .., h, _ | .commitSvn .., h, _ | .fetchDeliver .., h, _ | .walkerFetch .., h, _
    | .walkerStoreWrite .., h, _ | .copyReusable .., h, _ | .copyVisible .., h, _ | .sweepComplete .., h, _ | .copyFault .., h, _
    | .matrixJobStart .., h, _ | .drainRow .., h, _ | .matrixJobComplete .., h, _ | .chainForward .., h, _
    | .streamPublishRead .., h, _ | .bgemvComplete .., h, _ | .nbuFault .., h, _ | .globalAccessPerformed .., h, _
    | .collStart .., h, _ | .collComplete .., h, _ | .collTimeout .., h, _ | .startMessage .., h, _ | .risingPennant .., h, _
    | .coreArrive .., h, _ | .pollTimer .., h, _ | .poll .., h, _ | .corePark .., h, _ | .watchdogExpiry .., h, _
    | .decideProceed .., h, _ | .deltaArrive .., h, _ | .pfeRun .., h, _ | .pfeLand .., h, _ | .decideCommit .., h, _
    | .decideAbort .., h, _ | .donePennant .., h, _ | .resume .., h, _ | .translationWalk .., h, _ | .pageBringUp .., h, _
    | .backgroundScrub .., h, _ | .setpte .., h, _ | .fetch .., h, _ | .evict .., h, _ | .hwrite .., h, _ | .hread .., h, _
    | .shres .., h, _ | .launchSelect .., h, _ | .recomputeDrop .., h, _ | .gatePass .., h, _ | .saveSignal .., h, _
    | .copySaveDone .., h, _ | .restoreDone .., h, _ | .importConfirm .., h, _ | .warmReset .., h, _ | .wrcmdResume .., h, _
    | .start .., h, _ | .warmResetOverrun .., h, _ | .d2dFlitReceive .., h, _ | .d2dNak .., h, _ | .moduleRetrain .., h, _
    | .moduleRetrainDone .., h, _ | .edgeDown .., h, _ | .deviceFailed .., h, _ | .llynnalFlitReceive .., h, _
    | .portRetrain .., h, _ | .portRetrainDone .., h, _ | .heartbeatFlit .., h, _ | .timingReplay .., h, _ | .derate .., h, _
    | .recoverySelfTest .., h, _ | .currentLimit .., h, _ | .currentFallsBack .., h, _ | .thermalTrip .., h, _
    | .powerStateApply .., h, _ | .getVersion .., h, _ | .getCapabilities .., h, _ | .negotiateAlgorithms .., h, _
    | .getCertificate .., h, _ | .challenge .., h, _ | .getMeasurements .., h, _ | .keyExchange .., h, _ | .finish .., h, _
    | .setkey .., h, _ | .tdispLockInterface .., h, _ | .tdispStartInterface .., h, _ | .stopInterface .., h, _
    | .debuggerAttach .., h, _ | .debuggerResume .., h, _ | .registerWrite .., h, _ => nomatch h
    | .vshuf d a b o w, _, hbad => execVshuf_illegal hign hbad hh
    | .aadd .., _, hbad | .asub .., _, hbad | .aand .., _, hbad | .aorr .., _, hbad | .axor .., _, hbad | .ashl .., _, hbad
    | .ashr .., _, hbad | .asar .., _, hbad | .amul .., _, hbad | .amin .., _, hbad | .amax .., _, hbad | .aminu .., _, hbad
    | .amaxu .., _, hbad | .aslt .., _, hbad | .asltu .., _, hbad | .amad .., _, hbad | .aaddi .., _, hbad | .aandi .., _, hbad
    | .ashli .., _, hbad | .ashri .., _, hbad | .asari .., _, hbad | .ali .., _, hbad | .alui .., _, hbad | .abeq .., _, hbad
    | .abne .., _, hbad | .ablt .., _, hbad | .abge .., _, hbad | .abltu .., _, hbad | .abgeu .., _, hbad | .abq .., _, hbad
    | .ajmp .., _, hbad | .acall .., _, hbad | .aret .., _, hbad | .ajr .., _, hbad | .add .., _, hbad | .sub .., _, hbad
    | .mul .., _, hbad | .mulh .., _, hbad | .mulhu .., _, hbad | .and .., _, hbad | .or .., _, hbad | .xor .., _, hbad
    | .shl .., _, hbad | .shr .., _, hbad | .sar .., _, hbad | .min .., _, hbad | .max .., _, hbad | .minu .., _, hbad
    | .maxu .., _, hbad | .slt .., _, hbad | .sltu .., _, hbad | .seq .., _, hbad | .div .., _, hbad | .divu .., _, hbad
    | .rem .., _, hbad | .remu .., _, hbad | .sel .., _, hbad | .clz .., _, hbad | .popc .., _, hbad | .sext .., _, hbad
    | .addi .., _, hbad | .andi .., _, hbad | .ori .., _, hbad | .xori .., _, hbad | .shli .., _, hbad | .shri .., _, hbad
    | .sari .., _, hbad | .li .., _, hbad | .lui .., _, hbad | .epb .., _, hbad | .ebnz .., _, hbad | .feat .., _, hbad
    | .fadd .., _, hbad | .fsub .., _, hbad | .fmul .., _, hbad | .fmin .., _, hbad | .fmax .., _, hbad | .fsgn .., _, hbad
    | .fcmp .., _, hbad | .fma .., _, hbad | .fclass .., _, hbad | .frnd .., _, hbad | .fcvt .., _, hbad | .vadd .., _, hbad
    | .vsub .., _, hbad | .vmul .., _, hbad | .vmulh .., _, hbad | .vmin .., _, hbad | .vmax .., _, hbad | .vminu .., _, hbad
    | .vmaxu .., _, hbad | .vand .., _, hbad | .vor .., _, hbad | .vxor .., _, hbad | .vshl .., _, hbad | .vshr .., _, hbad
    | .vsar .., _, hbad | .vsadd .., _, hbad | .vsaddu .., _, hbad | .vcmp .., _, hbad | .vsel .., _, hbad | .vfadd .., _, hbad
    | .vfsub .., _, hbad | .vfmul .., _, hbad | .vfmin .., _, hbad | .vfmax .., _, hbad | .vfma .., _, hbad | .vfcmp .., _, hbad
    | .vfsgn .., _, hbad | .vfclass .., _, hbad | .vfcvt .., _, hbad | .vfred .., _, hbad | .vdot .., _, hbad | .vmov .., _, hbad
    | .vsplat .., _, hbad | .vperm .., _, hbad | .vext .., _, hbad | .vins .., _, hbad | .vslide .., _, hbad
    | .vnarrow .., _, hbad | .vwiden .., _, hbad | .vscale .., _, hbad | .vqpack .., _, hbad | .vqunpk .., _, hbad
    | .vmpop .., _, hbad | .vmfirst .., _, hbad | .vrot .., _, hbad | .cord .., _, hbad | .vcord .., _, hbad | .sset .., _, hbad
    | .sread .., _, hbad | .sadd .., _, hbad | .smrg .., _, hbad | .vsread .., _, hbad | .vsaddStamped .., _, hbad
    | .vsmrg .., _, hbad | .voptw .., _, hbad | .rsld .., _, hbad | .rsst .., _, hbad | .ld .., _, hbad | .st .., _, hbad
    | .ldg .., _, hbad | .stg .., _, hbad | .latm .., _, hbad | .fence .., _, hbad | .fenceSc .., _, hbad | .fenceBank .., _, hbad
    | .wcfg .., _, hbad | .wstart .., _, hbad | .wstop .., _, hbad | .wflags .., _, hbad | .wpos .., _, hbad | .winset .., _, hbad
    | .winget .., _, hbad | .cpy .., _, hbad | .cpyw .., _, hbad | .rcpy .., _, hbad | .ssweep .., _, hbad | .rcfg .., _, hbad
    | .rresv .., _, hbad | .rprod .., _, hbad | .rwait .., _, hbad | .rcons .., _, hbad | .rslot .., _, hbad | .csrr .., _, hbad
    | .csrw .., _, hbad | .csrs .., _, hbad | .csrc .., _, hbad | .trap .., _, hbad | .dbrk .., _, hbad | .eret .., _, hbad
    | .halt .., _, hbad | .nop .., _, hbad | .himm .., _, hbad | .hmod .., _, hbad | .hsched .., _, hbad | .nopHint .., _, hbad
    | .illegalInstruction .., _, hbad | .tvld .., _, hbad | .mloadn .., _, hbad | .mloadw .., _, hbad | .mjob .., _, hbad
    | .msend .., _, hbad | .mwait .., _, hbad | .mpoll .., _, hbad | .mpub .., _, hbad | .msub .., _, hbad | .munsub .., _, hbad
    | .mchain .., _, hbad | .mcap .., _, hbad | .mhnd .., _, hbad | .mdone .., _, hbad | .bgemv .., _, hbad | .bwait .., _, hbad
    | .csig .., _, hbad | .coll .., _, hbad | .cwait .., _, hbad | .bar .., _, hbad | .vote .., _, hbad | .stepadv .., _, hbad
    | .wait .., _, hbad | .tnext .., _, hbad | .tend .., _, hbad | .spawn .., _, hbad | .fan .., _, hbad | .gang .., _, hbad
    | .tqpush .., _, hbad | .put .., _, hbad | .atom .., _, hbad | .msg .., _, hbad | .pflist .., _, hbad | .loop .., _, hbad
    | .loopi .., _, hbad | .loopw .., _, hbad | .lbrk .., _, hbad => runWith_illegal hign hbad hh

/-! ### Traps -/

theorem Ctx.parityFound_frame (c : Ctx) (src : Nat) (sl : Option Slot) : ∃ u e, c.parityFound src sl = { c with upset := u, errinj := e } := by
  unfold Ctx.parityFound
  dsimp only
  repeat' split
  all_goals exact ⟨_, _, rfl⟩

/-- Settles O44: the trap writes its registers and then enters the handler, both in the context that it is taken by. -/
theorem trapsSaveTheirCauseAndGoToTheHandler : Obligations.TrapsSaveTheirCauseAndGoToTheHandler := by
  intro s c k sl half first cause tval committed x hh
  have hfound : ∀ src, ∃ u e, (if cause = 10 then x.parityFound src sl else x) = { x with upset := u, errinj := e } := by
    intro src
    split
    · exact Ctx.parityFound_frame x _ sl
    · exact ⟨_, _, rfl⟩
  obtain ⟨u, e, hf⟩ := hfound (if s.trapSource c sl cause tval = 4 then 3 else s.trapSource c sl cause tval)
  have hrep : (s.modCtx c k (fun x => (if cause = 10 then x.parityFound (if s.trapSource c sl cause tval = 4 then 3 else s.trapSource c sl cause tval) sl
      else x).report half first cause tval)).ctx c k = ({ x with upset := u, errinj := e } : Ctx).report half first cause tval := by
    rw [State.modCtx_same]
    exact congrArg (fun y : Ctx => y.report half first cause tval) hf
  refine ⟨_, if_pos (by rw [hrep]; exact hh), ?_⟩
  dsimp only
  rw [State.modCtx_same, hrep]
  refine ⟨rfl, rfl, rfl, by rw [Nat.mul_comm]; rfl, rfl, rfl, rfl, rfl, rfl, rfl, rfl, rfl, ⟨_, rfl, rfl, rfl, rfl, rfl, rfl, rfl, rfl, rfl, rfl⟩, rfl, rfl, rfl, rfl,
    rfl, rfl, rfl, rfl, fun c2 k2 h => ?_⟩
  rw [State.modCtx_modCtx]
  by_cases hc : c2 = c
  · subst hc
    exact State.modCtx_other_ctx s _ (h.resolve_left (by simp))
  · exact State.modCtx_other_core s _ hc

/-- A word of the access half that is illegal where it stands traps with cause 1 and its word (R226). -/
theorem run_illegal {s : State} {i : Instr} {opd : Bool} {ill : Bool} {body : M Unit} (h : s.clear i) (hhalf : halfOf i = .ah) (hill : ill = true)
    (hh : s.cur.handled 1 0 = true) : run i ill opd body s = .next (s.trapsTo i .ah 1 (wordOf i)).quiet := by
  subst hill
  have hfirst : s.firstCause i true opd = some 1 := by simp [State.firstCause]
  have ha : attempt i true opd false body s = .error (.trap 1 (wordOf i) false) := by
    unfold attempt
    simp [h.1, hfirst]
  have hset := settle_of_trap (n := 17) ha (by decide) hh
  rw [h.trapHalf, hhalf] at hset
  exact congrArg _ hset

/-- A word of the execute half that traps with its immediate. -/
theorem run_trapWith {s : State} {i : Instr} {c : Nat} {v : W64} {body : M Unit} (h : s.clear i) (hhalf : halfOf i = .eh) (hb : body.run s = (trapWith c v : M Unit).run s)
    (hc : 4 ≤ c) (hp : c ≠ 10) (hh : s.cur.handled c (groupOf c false) = true) : run i false false body s = .next (s.trapsTo i .eh c v).quiet := by
  have ht := run_traps (i := i) h rfl rfl (hb.trans rfl) hc hp hh
  rwa [h.trapHalf, hhalf] at ht

/-- Settles O46: each of these words traps, stops for the debugger or retires its context. -/
theorem trapHaltAndReturnWordsAct : Obligations.TrapHaltAndReturnWordsAct := by
  unfold Obligations.TrapHaltAndReturnWordsAct
  refine ⟨?_, ?_, ?_, ?_, ?_, ?_, ?_, ?_⟩
  · exact fun im s hclear hh => run_trapWith hclear rfl rfl (by decide) (by decide) hh
  · intro im s hclear hatt hh
    refine run_trapWith hclear rfl ((Gives.getCtx s).run_bind.trans ?_) (by decide) (by decide) hh
    rw [if_neg (by rw [hatt]; exact Bool.false_ne_true)]
  · intro im s hclear hatt
    exact run_ok hclear rfl rfl ((Gives.getCtx s).bind (ite_gives (fun _ => Gives.modCtx _ s) (fun h => absurd hatt h))) (hclear.readsOk' rfl)
  · intro s hclear hatt
    have hatt' : (s.ctx s.issue.core s.issue.ctx).attached = true := hatt
    exact run_ok hclear (by rw [hatt']; rfl) rfl (ite_gives (fun _ => Gives.modCtx _ s) (fun h => absurd hatt h)) (hclear.readsOk' rfl)
  · intro s hclear hatt hin hread
    exact run_ok hclear (by rw [hin, Bool.and_false]) rfl (ite_gives (fun h => absurd (hatt.symm.trans h) Bool.false_ne_true) (fun _ => Gives.change _ s)) hread
  · intro s hclear hatt hin hh
    have hatt' : (s.ctx s.issue.core s.issue.ctx).attached = false := hatt
    exact run_illegal hclear rfl (by rw [hatt', hin]; rfl) hh
  · intro s hclear hinh hh
    have hinh' : bit (s.ctx s.issue.core s.issue.ctx).tstatus 0 = false := hinh
    exact run_illegal hclear rfl (by rw [hinh']; rfl) hh
  · exact fun d a o z s hclear hin hh => run_illegal hclear rfl hin hh

/-! ### The return from a trap -/

theorem Ctx.follow_no_loop (c : Ctx) (a : W64) (idle : Bool) (h : c.loops.depth = 0) : (c.follow a idle).pc = a + 4 := by
  unfold Ctx.follow Ctx.backEdge
  dsimp only
  rw [if_pos h]

theorem Ctx.pushBack_frame (c : Ctx) (z : Slot) : ∃ p q, c.pushBack z = { c with ah := p, eh := q } ∧
    (halfIn z.iss.himm z.instr = .ah → p = z :: c.ah ∧ q = c.eh) ∧ (halfIn z.iss.himm z.instr = .eh → p = c.ah ∧ q = z :: c.eh) := by
  unfold Ctx.pushBack
  cases h : halfIn z.iss.himm z.instr
  · exact ⟨_, _, rfl, fun _ => ⟨rfl, rfl⟩, fun h => by cases h⟩
  · exact ⟨_, _, rfl, fun h => (by cases h), fun _ => ⟨rfl, rfl⟩⟩

/-- What the return gives back before it deals with the trapping instruction (R230). -/
def Ctx.unshelved (c : Ctx) (h : Shadow) : Ctx :=
  { c with ah := h.ah, eh := h.eh, lq := h.lq, sq := h.sq, xq := h.xq, bq := h.bq, pc := h.pc, edge := h.edge,
           hfirst := h.hfirst, himm := h.himm, hmod := h.hmod, loops := h.loops, skip := 0, shadow := none }

theorem Ctx.leaveHandler_eq {c : Ctx} {h : Shadow} (hs : c.shadow = some h) : c.leaveHandler =
    { (match h.trapped with
      | none => if bit c.tstatus 1 then (c.unshelved h).dropFetch else c.unshelved h
      | some z => if bit c.tstatus 1 then (if deferred z.instr then (c.unshelved h).follow z.iss.addr h.eh.isEmpty else c.unshelved h)
        else (c.unshelved h).pushBack z) with tstatus := 0 } := by
  unfold Ctx.leaveHandler
  rw [hs]
  rfl

/-- Settles O47: ERET takes back what the trap set aside, and then pushes the trapping instruction back, or passes it by. -/
theorem returnRestoresWhatTheTrapSetAside : Obligations.ReturnRestoresWhatTheTrapSetAside := by
  intro s h hclear hinh hs hread
  have hinh' : bit (s.ctx s.issue.core s.issue.ctx).tstatus 0 = true := hinh
  refine ⟨run_ok hclear (by rw [hinh']; rfl) rfl (Gives.modCtx _ s) hread, ?_⟩
  intro y
  have hy : y = _ := Ctx.leaveHandler_eq hs
  clear_value y
  subst hy
  cases htrapped : h.trapped with
  | none =>
    dsimp only
    by_cases hskip : bit s.cur.tstatus 1 = true
    · rw [if_pos hskip]
      obtain ⟨p, e, l, v, hf⟩ := Ctx.follow_frame { s.cur.unshelved h with himm := [], hmod := [], hfirst := none } h.pc h.eh.isEmpty
      have hpc := Ctx.follow_no_loop { s.cur.unshelved h with himm := [], hmod := [], hfirst := none } h.pc h.eh.isEmpty
      have hdrop : (s.cur.unshelved h).dropFetch = _ := hf
      rw [hf] at hpc
      rw [hdrop]
      exact ⟨rfl, rfl, rfl, rfl, rfl, rfl, rfl, rfl, rfl, fun _ => ⟨rfl, rfl, fun hn => absurd (hn.symm.trans hskip) Bool.false_ne_true,
        fun _ => ⟨rfl, rfl, rfl, hpc⟩⟩, fun z hz => by cases hz⟩
    · rw [if_neg hskip]
      exact ⟨rfl, rfl, rfl, rfl, rfl, rfl, rfl, rfl, rfl, fun _ => ⟨rfl, rfl, fun _ => ⟨rfl, rfl, rfl, rfl⟩, fun h => absurd h hskip⟩,
        fun z hz => by cases hz⟩
  | some z =>
    dsimp only
    by_cases hskip : bit s.cur.tstatus 1 = true
    · rw [if_pos hskip]
      by_cases hd : deferred z.instr = true
      · rw [if_pos hd]
        obtain ⟨p, e, l, v, hf⟩ := (s.cur.unshelved h).follow_frame z.iss.addr h.eh.isEmpty
        rw [hf]
        refine ⟨rfl, rfl, rfl, rfl, rfl, rfl, rfl, rfl, rfl, fun hn => (by cases hn), fun z' hz => ?_⟩
        cases hz
        exact ⟨fun hn => hn.elim (fun hn => absurd (hn.symm.trans hskip) Bool.false_ne_true) (fun hn => absurd (hn.symm.trans hd) Bool.false_ne_true),
          fun _ => ⟨rfl, rfl⟩, fun hn => absurd (hn.symm.trans hskip) Bool.false_ne_true⟩
      · rw [if_neg hd]
        refine ⟨rfl, rfl, rfl, rfl, rfl, rfl, rfl, rfl, rfl, fun hn => (by cases hn), fun z' hz => ?_⟩
        cases hz
        exact ⟨fun _ => ⟨rfl, rfl, rfl⟩, fun _ => ⟨rfl, rfl⟩, fun hn => absurd (hn.symm.trans hskip) Bool.false_ne_true⟩
    · rw [if_neg hskip]
      obtain ⟨p, q, hp, hah, heh⟩ := (s.cur.unshelved h).pushBack_frame z
      rw [hp]
      refine ⟨rfl, rfl, rfl, rfl, rfl, rfl, rfl, rfl, rfl, fun hn => (by cases hn), fun z' hz => ?_⟩
      cases hz
      exact ⟨fun _ => ⟨rfl, rfl, rfl⟩, fun h => absurd h hskip, fun _ => ⟨hah, heh⟩⟩

/-! ### Hints and loops -/

/-- Settles O48: an immediate extension or a modifier is kept for the next instruction, and the other hints do nothing. -/
theorem hintsJoinTheNextGroupAndNopDoesNothing : Obligations.HintsJoinTheNextGroupAndNopDoesNothing := by
  unfold Obligations.HintsJoinTheNextGroupAndNopDoesNothing
  refine ⟨?_, ?_, ?_⟩
  · exact fun p s hclear hread => run_ok hclear rfl rfl (Gives.modCtx _ s) hread
  · exact fun e sd n c k s hclear hread => run_ok hclear rfl rfl (Gives.modCtx _ s) hread
  · rintro i (rfl | ⟨x, k, r, l, rfl⟩ | ⟨o, p, rfl⟩) s hclear
    · exact run_ok hclear rfl rfl (Gives.pure () s) hclear.readsOk
    · exact run_ok hclear rfl rfl (Gives.pure () s) hclear.readsOk
    · exact run_ok hclear rfl rfl (Gives.pure () s) hclear.readsOk

/-- What a loop word of a legal length, at a level below the third and inside the level around it, does. -/
theorem openLoop_gives {s : State} {n walker flag : Nat} {walk : Bool} {count : W64} (hn : n ≤ 256) (hdepth : s.cur.loops.depth < 3)
    (hinside : s.cur.loops.depth ≠ 0 → (s.cur.loops.addr (s.cur.loops.depth - 1)).toNat ≤ (s.issue.addr + 4).toNat ∧
      (s.issue.addr + 4 + w64 (4 * (n - 1))).toNat ≤ (s.cur.loops.addr (s.cur.loops.depth - 1)).toNat + 4 * s.cur.loops.len (s.cur.loops.depth - 1))
    (hhint : Gives (hintAt (s.issue.addr + 4 + w64 (4 * (n - 1)))) s false s) :
    (walk = false → count = 0 → Does (openLoop n walk walker flag count) s
      (s.onCur (fun c => { c with pc := s.issue.addr + 4 + w64 (4 * (n - 1)) + 4, edge := none }))) ∧
    (walk = true ∨ count ≠ 0 → Does (openLoop n walk walker flag count) s (s.onCur (fun c =>
      ({ c with loops := c.loops.openAt (s.issue.addr + 4) n walk walker flag count } : Ctx).follow s.issue.addr c.eh.isEmpty))) := by
  have hopen : ∀ {t}, Does (if (!walk) = true ∧ count = 0 then jump (s.issue.addr + 4 + w64 (4 * (n - 1)) + 4) else do
      modCtx (fun c => { c with loops := c.loops.openAt (s.issue.addr + 4) n walk walker flag count })
      fallThrough) s t → Does (openLoop n walk walker flag count) s t := by
    intro t ht
    refine (Gives.get s).bind ((Gives.getCtx s).bind ?_)
    refine ite_gives (fun h => by omega) fun _ => ite_gives (fun h0 => ?_) fun _ => hhint.bind (ite_gives (fun h => absurd h Bool.false_ne_true) fun _ => ht)
    obtain ⟨hlow, hhigh⟩ := hinside h0
    exact ite_gives (fun h => absurd h (by simp only [not_or, Nat.not_lt]; exact ⟨hlow, hhigh⟩)) fun _ =>
      hhint.bind (ite_gives (fun h => absurd h Bool.false_ne_true) fun _ => ht)
  refine ⟨fun hw hc => hopen ?_, fun hw => hopen ?_⟩
  · rw [if_pos ⟨by rw [hw]; rfl, hc⟩]
    exact jump_gives _ s
  · rw [if_neg ?_]
    · refine (Gives.modCtx _ s).bind ((fallThrough_gives _).to ?_)
      rw [State.onCur_onCur]
      rfl
    · rintro ⟨h1, h2⟩
      rcases hw with rfl | hc
      · cases h1
      · exact hc h2

/-- Settles O49: the three loop words are one opening of a level, and LBRK closes the levels inside the one it breaks. -/
theorem loopWordsOpenAndCloseLevels : Obligations.LoopWordsOpenAndCloseLevels := by
  unfold Obligations.LoopWordsOpenAndCloseLevels
  refine ⟨?_, ?_, ?_, ?_⟩
  · intro a im s n start last l hclear ha hn hdepth hinside hhint
    have ha : xOnly a = true := ha
    obtain ⟨hskip, hgo⟩ := openLoop_gives (walker := 0) (flag := 0) (walk := false) (count := s.xval a) hn hdepth hinside hhint
    exact ⟨fun hw hc => run_ok hclear rfl (by rw [ha]; rfl) (hskip hw hc) (hclear.readsOk' rfl),
      fun hw => run_ok hclear rfl (by rw [ha]; rfl) (hgo hw) (hclear.readsOk' rfl)⟩
  · intro im s n start last l hclear _ hn hdepth hinside hhint
    obtain ⟨hskip, hgo⟩ := openLoop_gives (walker := 0) (flag := 0) (walk := false) (count := w64 ((s.imm im).toNat / 256)) hn hdepth hinside hhint
    exact ⟨fun hw hc => run_ok hclear rfl rfl (hskip hw hc) (hclear.readsOk' rfl), fun hw => run_ok hclear rfl rfl (hgo hw) (hclear.readsOk' rfl)⟩
  · intro f w im s n start last l hclear _ hn hdepth hinside hhint
    obtain ⟨hskip, hgo⟩ := openLoop_gives (walker := w.toNat) (flag := f.toNat) (walk := true) (count := 0) hn hdepth hinside hhint
    exact ⟨fun hw => absurd hw (by decide), fun hw => run_ok hclear rfl rfl (hgo hw) (hclear.readsOk' rfl)⟩
  · intro n s hclear hn hle
    have hill : decide ((s.ctx s.issue.core s.issue.ctx).loops.depth < n.toNat) = false := decide_eq_false (Nat.not_lt.2 hle)
    exact run_ok hclear hill rfl ((Gives.modCtx _ s).bind ((jump_gives _ _).to (State.onCur_onCur _ _ _))) (hclear.readsOk' rfl)

end Sys2Proof.Machine

namespace Sys2Proof.Machine
/-!
SUPPORT. CSR words (09 R222-R225): what a CSR reads is its own field, and a write changes no other.
-/

open Sys2Proof

/-! ### What a meaning keeps -/

/-- Whatever m does when it goes on, it keeps I. -/
def Holds (I : State → Prop) (m : M α) : Prop := ∀ s x t, Gives m s x t → I s → I t

section
variable {I : State → Prop} {m : M α} {f : α → M β}

theorem Holds.pure (x : α) : Holds I (Pure.pure x : M α) := by
  rintro s y t ⟨⟩ h
  exact h

theorem Holds.throw (e : Stop) : Holds I (throw e : M α) := by
  rintro s y t h
  cases h

theorem Holds.get : Holds I (MonadStateOf.get : M State) := by
  rintro s y t ⟨⟩ h
  exact h

theorem Holds.change {g : State → State} (h : ∀ s, I s → I (g s)) : Holds I (modify g) := by
  rintro s y t ⟨⟩ hs
  exact h s hs

theorem Holds.bind (h : Holds I m) (h2 : ∀ x, Holds I (f x)) : Holds I (m >>= f) := by
  intro s y t hg hs
  rcases hr : m.run s with e | ⟨x, u⟩
  · exact absurd hg (by rw [Gives, throws_first hr]; exact nofun)
  · exact h2 x u y t (by rwa [Gives.bind_iff hr] at hg) (h s x u hr hs)

theorem Holds.getCtx : Holds I Machine.getCtx := .bind .get fun _ => .bind .get fun _ => .bind .get fun _ => .pure _
theorem Holds.getCore : Holds I Machine.getCore := .bind .get fun _ => .bind .get fun _ => .pure _

theorem Holds.ite [Decidable p] {a b : M α} (ha : p → Holds I a) (hb : ¬p → Holds I b) : Holds I (if p then a else b) := by
  split
  · exact ha ‹_›
  · exact hb ‹_›

end

/-! ### Reading an operand -/

/-- Nothing is withheld from the word. -/
def State.heeds (s : State) : Prop := s.issue.ign = []

theorem noteMark_heeds (m : Option Mark) : Holds State.heeds (noteMark m) := by
  cases m with
  | none => exact .pure ()
  | some m => exact .change fun _ h => h

theorem popWalker_heeds (w : Nat) : Holds State.heeds (popWalker w) := by
  refine .bind .get fun s => .ite (fun _ => .throw _) fun _ => .ite (fun _ => .bind (.change fun _ h => h) fun _ => .pure _) fun _ => ?_
  split
  · exact .throw _
  · refine .ite (fun _ => .throw _) fun _ => .ite (fun _ => .throw _) fun _ => .ite (fun _ => .throw _) fun _ => .ite (fun _ => .throw _) fun _ => ?_
    refine .bind (.change fun _ h => h) fun _ => .bind (.change fun s h => ?_) fun _ => .bind (noteMark_heeds _) fun _ => .pure _
    split <;> exact h

theorem popQ_heeds (q : Que) : Holds State.heeds (popQ q) := by
  refine .bind .getCtx fun _ => ?_
  split
  · exact .throw _
  · exact .bind (.change fun _ h => h) fun _ => .pure _

theorem popChan_heeds (d : Nat) : Holds State.heeds (popChan d) := by
  refine .bind .getCore fun _ => ?_
  split
  · exact .throw _
  · exact .bind (.change fun _ h => h) fun _ => .pure _

theorem popMail_heeds : Holds State.heeds popMail := by
  refine .bind .getCore fun _ => ?_
  split
  · exact .throw _
  · exact .bind (.change fun _ h => h) fun _ => .pure _

theorem ehPop_heeds (off n : Nat) (c : BitVec 6) : Holds State.heeds (ehPop off n c) := by
  refine .ite (fun _ => .bind (.change fun _ h => h) fun _ => .bind .getCtx fun _ => .pure _) fun _ => ?_
  split
  · exact popWalker_heeds _
  · refine .ite (fun _ => .bind (popQ_heeds _) fun _ => .bind (noteMark_heeds _) fun _ => .pure _) fun _ => ?_
    refine .ite (fun _ => .bind (popChan_heeds _) fun _ => .bind (noteMark_heeds _) fun _ => .pure _) fun _ => ?_
    exact .ite (fun _ => .bind popMail_heeds fun _ => .pure _) fun _ => .pure _

theorem gPop_heeds (c : BitVec 6) : Holds State.heeds (gPop c) := .bind (ehPop_heeds _ _ c) fun _ => .pure _

/-! ### What a CSR reads after a write -/

theorem Ctx.setCsr_view (x : Ctx) (v : W64) (h : n ≠ 2) : (x.setCsr n v).view = x.view := by
  unfold Ctx.setCsr
  split
  case h_2 => exact absurd rfl h
  case h_11 => split <;> rfl
  all_goals rfl

/-- The CSRs that a context's loop levels hold. -/
def loopCsrs : List Nat := [4, 5, 6, 7, 0xC, 0xD, 0xE]

theorem csrOfLoops_setCsr_ne (l : Loops) (v : W64) (hm : m ∈ loopCsrs) (h : m ≠ n) : csrOfLoops (l.setCsr n v) m = csrOfLoops l m := by
  unfold Loops.setCsr
  simp only [loopCsrs, List.mem_cons, List.not_mem_nil, or_false] at hm
  split <;> rcases hm with rfl | rfl | rfl | rfl | rfl | rfl | rfl <;> simp_all [csrOfLoops]

theorem csrOfLoops_setCsr_self (l : Loops) (v : W64) (hm : n ∈ loopCsrs) : csrOfLoops (l.setCsr n v) n = v := by
  simp only [loopCsrs, List.mem_cons, List.not_mem_nil, or_false] at hm
  rcases hm with rfl | rfl | rfl | rfl | rfl | rfl | rfl <;> rfl

theorem Loops.setCsr_other (l : Loops) (v : W64) (hn : n ∉ loopCsrs) : l.setCsr n v = l := by
  unfold Loops.setCsr
  split
  case h_8 => rfl
  all_goals exact absurd (by decide) hn

theorem csrOfCtx_dc (x : Ctx) (h : 0x50 ≤ n ∧ n ≤ 0x5F) : csrOfCtx x n = tget x.dc (n - 0x50) 0 := by
  unfold csrOfCtx
  split
  case h_17 => exact if_pos h
  all_goals omega

theorem csrOfCtx_with_dc (x : Ctx) (d : Tab W64) (h : ¬ (0x50 ≤ n ∧ n ≤ 0x5F)) : csrOfCtx { x with dc := d } n = csrOfCtx x n := by
  unfold csrOfCtx
  split
  case h_17 => rw [if_neg h, if_neg h]
  all_goals rfl

theorem csrOfCtx_setCsr_ne (x : Ctx) (v : W64) (h : m ≠ n) : csrOfCtx (x.setCsr n v) m = csrOfCtx x m := by
  unfold Ctx.setCsr
  split
  case h_11 =>
    split
    · by_cases hm : 0x50 ≤ m ∧ m ≤ 0x5F
      · rw [csrOfCtx_dc _ hm, csrOfCtx_dc _ hm]
        exact tget_tset_ne _ _ _ _ (by omega)
      · exact csrOfCtx_with_dc x _ hm
    · rfl
  all_goals
    unfold csrOfCtx
    split <;> simp_all

/-- A CSR depends on the state through what its own arm reads only. -/
theorem State.csr_congr {s t : State} {n : Nat} (view : W64) (loops : Loops) (hi : t.issue = s.issue) (hp : t.plat = s.plat) (hh : t.hbt = s.hbt)
    (hteam : t.teams = s.teams) (hdoms : t.domains = s.domains) (hd : ∀ c, (t.core c).domain = (s.core c).domain)
    (htcm : ∀ c, (t.core c).tcmcfg = (s.core c).tcmcfg) (hrep : ∀ c, (t.core c).replays = (s.core c).replays)
    (hm : n = 0xC4 → (t.core s.issue.core).memdiag = (s.core s.issue.core).memdiag) (hx : csrOfCtx (t.ctx s.issue.core s.issue.ctx) n = csrOfCtx s.cur n) :
    t.csr view loops n = s.csr view loops n := by
  have hdom : ∀ c, t.domOf c = s.domOf c := fun c => by
    unfold State.domOf State.domain
    rw [hd, hdoms]
  have hsnap : ∀ c, t.snap c = s.snap c := fun c => by simp only [State.snap, hdom, hp]
  have hesnap : ∀ e c, t.esnap e c = s.esnap e c := fun e c => by simp only [State.esnap, hdom, hp]
  have hclock : ∀ c, t.clock c = s.clock c := fun c => by simp only [State.clock, State.nodeOf, State.node, hsnap, hdom, hp]
  have htick : t.tick = s.tick := congrArg w64 hh
  unfold State.csr
  dsimp only
  rw [hi]
  split
  case h_1 => rfl
  case h_2 => exact htcm _
  case h_7 => simp only [State.gcid, hp]
  case h_8 => rfl
  case h_9 => rw [hsnap, hesnap, hclock]
  case h_10 => rfl
  case h_11 => exact htick
  case h_12 => rw [htick, hp, hclock]
  case h_13 => simp only [hrep, State.team, hteam]
  case h_14 => exact hm rfl
  case h_15 =>
    split
    · rfl
    · exact hx
  all_goals rw [hdom]

theorem State.csr_onCur (s : State) (f : Ctx → Ctx) (view : W64) (loops : Loops) (hx : csrOfCtx (f s.cur) n = csrOfCtx s.cur n) :
    (s.onCur f).csr view loops n = s.csr view loops n := by
  have hcore := State.onCur_core_ctxs s f
  refine State.csr_congr view loops rfl rfl rfl rfl rfl (fun c => (congrArg Core.domain (hcore c) :)) (fun c => (congrArg Core.tcmcfg (hcore c) :))
    (fun c => (congrArg Core.replays (hcore c) :)) (fun _ => (congrArg Core.memdiag (hcore _) :)) ?_
  rw [show (s.onCur f).ctx s.issue.core s.issue.ctx = f s.cur from State.onCur_cur s f]
  exact hx

theorem State.csr_onCore_memdiag (s : State) (v : W64) (view : W64) (loops : Loops) (h : n ≠ 0xC4) :
    (s.onCore (fun c => { c with memdiag := v })).csr view loops n = s.csr view loops n := by
  have hcore : ∀ c, { (s.onCore (fun c => { c with memdiag := v })).core c with memdiag := 0 } = { s.core c with memdiag := 0 } := by
    intro c
    by_cases hc : c = s.issue.core
    · subst hc
      rw [State.onCore, State.modCore_same]
    · rw [State.onCore, State.modCore_other _ _ hc]
  refine State.csr_congr view loops rfl rfl rfl rfl rfl (fun c => (congrArg Core.domain (hcore c) :)) (fun c => (congrArg Core.tcmcfg (hcore c) :))
    (fun c => (congrArg Core.replays (hcore c) :)) (fun hn => absurd hn h) ?_
  rw [show (s.onCore (fun c => { c with memdiag := v })).ctx s.issue.core s.issue.ctx = s.cur from
    (congrArg (fun c : Core => c.ctx s.issue.ctx) (hcore s.issue.core) :)]

/-! ### A write, read again -/

theorem State.csr_view_loops (s : State) (v1 v2 : W64) (l1 l2 : Loops) (h2 : n ≠ 2) (hl : n ∈ loopCsrs → csrOfLoops l1 n = csrOfLoops l2 n) :
    s.csr v1 l1 n = s.csr v2 l2 n := by
  unfold State.csr
  dsimp only
  split
  case h_1 => exact absurd rfl h2
  case h_15 =>
    split
    · refine hl ?_
      simp only [loopCsrs, List.mem_cons, List.not_mem_nil, or_false]
      omega
    · rfl
  all_goals rfl

theorem Ctx.setCsr_loops (x : Ctx) (n : Nat) (v : W64) : (x.setCsr n v).loops = x.loops.setCsr n v := by
  unfold Ctx.setCsr
  split
  case h_11 =>
    split
    · refine (Loops.setCsr_other x.loops v ?_).symm
      simp only [loopCsrs, List.mem_cons, List.not_mem_nil, or_false]
      omega
    · rfl
  all_goals rfl

/-- The CSRs that a context holds and a word can write, besides VIEW and the loop levels. -/
def ctxCsrs : List Nat := [1, 0x20, 0x24, 0x25, 0x30, 0x46, 0x60, 0x61, 0xC8] ++ (List.range 16).map (fun i => 0x50 + i)

theorem mem_csrWritable (n : Nat) : n ∈ csrWritable ↔ n = 2 ∨ n ∈ loopCsrs ∨ n ∈ ctxCsrs := by
  simp only [csrWritable, loopCsrs, ctxCsrs, List.mem_append, List.mem_cons, List.not_mem_nil, or_false]
  grind

theorem mem_ctxCsrs (n : Nat) : n ∈ ctxCsrs ↔ (n = 1 ∨ n = 0x20 ∨ n = 0x24 ∨ n = 0x25 ∨ n = 0x30 ∨ n = 0x46 ∨ n = 0x60 ∨ n = 0x61 ∨ n = 0xC8) ∨
    0x50 ≤ n ∧ n ≤ 0x5F := by
  simp only [ctxCsrs, List.mem_append, List.mem_cons, List.not_mem_nil, or_false, List.mem_map, List.mem_range]
  refine or_congr Iff.rfl ⟨fun ⟨i, hi, he⟩ => by omega, fun h => ⟨n - 0x50, by omega, by omega⟩⟩

theorem State.csr_of_ctx (s : State) (view : W64) (loops : Loops) (h : n ∈ ctxCsrs) : s.csr view loops n = csrOfCtx s.cur n := by
  rcases (mem_ctxCsrs n).1 h with (rfl | rfl | rfl | rfl | rfl | rfl | rfl | rfl | rfl) | ⟨hlo, hhi⟩
  case inr =>
    obtain ⟨i, rfl⟩ := Nat.le.dest hlo
    obtain rfl | rfl | rfl | rfl | rfl | rfl | rfl | rfl | rfl | rfl | rfl | rfl | rfl | rfl | rfl | rfl : i = 0 ∨ i = 1 ∨ i = 2 ∨ i = 3 ∨ i = 4 ∨ i = 5 ∨ i = 6 ∨ i = 7 ∨ i = 8 ∨ i = 9 ∨ i = 10 ∨ i = 11 ∨ i = 12 ∨ i = 13 ∨ i = 14 ∨ i = 15 := by omega
    all_goals rfl
  all_goals rfl

theorem State.csr_of_loops (s : State) (view : W64) (loops : Loops) (h : n ∈ loopCsrs) : s.csr view loops n = csrOfLoops loops n := by
  simp only [loopCsrs, List.mem_cons, List.not_mem_nil, or_false] at h
  rcases h with rfl | rfl | rfl | rfl | rfl | rfl | rfl <;> rfl

theorem csrOfCtx_setCsr_self (x : Ctx) (v : W64) (h : n ∈ ctxCsrs) (hdc : tsorted x.dc = true) :
    csrOfCtx (x.setCsr n v) n = if n = 0x24 then bput v 0 1 (b2n (bit x.tstatus 0)) else v := by
  rcases (mem_ctxCsrs n).1 h with (rfl | rfl | rfl | rfl | rfl | rfl | rfl | rfl | rfl) | hr
  case inr =>
    have hset : x.setCsr n v = { x with dc := tset x.dc (n - 0x50) v 0 } := by
      unfold Ctx.setCsr
      split
      case h_11 => exact if_pos hr
      all_goals omega
    rw [csrOfCtx_dc _ hr, hset, if_neg (by omega)]
    exact tget_tset_self _ _ _ hdc
  all_goals rfl

theorem Ctx.setCsr_readOnly (x : Ctx) (v : W64) (h : n ∉ csrWritable) : x.setCsr n v = x := by
  rw [mem_csrWritable, mem_ctxCsrs] at h
  unfold Ctx.setCsr
  split
  case h_11 =>
    rw [if_neg (by omega), Loops.setCsr_other _ _ fun hl => h (.inr (.inl hl))]
  all_goals omega

theorem State.csrNow_setCsr_self (s : State) (n : Nat) (v : W64) (hdc : tsorted s.cur.dc = true) :
    (s.onCur (fun c => c.setCsr n v)).csrNow n =
      if n = 0x24 then bput v 0 1 (b2n (bit s.cur.tstatus 0)) else if csrWritable.contains n then v else s.csrNow n := by
  have hcur := State.onCur_cur s (fun c => c.setCsr n v)
  unfold State.csrNow
  rw [hcur]
  by_cases hw : n ∈ csrWritable
  · rw [if_pos (List.contains_iff_mem.2 hw)]
    rcases (mem_csrWritable n).1 hw with rfl | hl | hx
    · rfl
    · rw [State.csr_of_loops _ _ _ hl, Ctx.setCsr_loops, csrOfLoops_setCsr_self _ _ hl, if_neg]
      rintro rfl
      exact absurd hl (by decide)
    · rw [State.csr_of_ctx _ _ _ hx, hcur, csrOfCtx_setCsr_self _ _ hx hdc]
  · have hset := Ctx.setCsr_readOnly s.cur v hw
    rw [hset, State.csr_onCur s _ _ _ (by rw [hset]), if_neg, if_neg]
    · exact fun h => hw (List.contains_iff_mem.1 h)
    · rintro rfl
      exact hw (by decide)

theorem State.csrNow_setCsr_ne (s : State) (n m : Nat) (v : W64) (h : m ≠ n) : (s.onCur (fun c => c.setCsr n v)).csrNow m = s.csrNow m := by
  have hcur := State.onCur_cur s (fun c => c.setCsr n v)
  unfold State.csrNow
  rw [hcur, State.csr_onCur s _ _ _ (csrOfCtx_setCsr_ne s.cur v h)]
  by_cases h2 : m = 2
  · subst h2
    exact Ctx.setCsr_view s.cur v h.symm
  · exact State.csr_view_loops s _ _ _ _ h2 fun hl => by rw [Ctx.setCsr_loops, csrOfLoops_setCsr_ne _ _ hl h]

/-! ### What the words do -/

theorem readsDone_gives {s : State} (h : s.readsOk) : Does readsDone s { s with issue := { s.issue with low := none, bad := none } } :=
  (checkReads_ok h).bind (Gives.change _ s)

/-- A writing form on an assigned CSR that takes the value ends as its write does. -/
theorem csrForm_completes {s s1 t : State} {i : Instr} {d : BitVec 6} {n : BitVec 12} {f : W64 → W64 → W64} {w1c : Bool} {v : W64}
    (hexec : exec i s = csrForm i d n f w1c s) (hclear : s.clear i) (hn : csrAssigned n.toNat = true) (hd : s.ehSrc false d = true) (hv : Gives (gPop d) s v s1)
    (hread : s1.readsOk) (hrefuse : s1.csrRefuses n.toNat (f (s1.csr s1.cur.view s1.cur.loops n.toNat) v) = false)
    (hwrite : Does (csrWrite n.toNat (f (s1.csr s1.cur.view s1.cur.loops n.toNat) v) (if w1c then v else 0))
      { s1 with issue := { s1.issue with low := none, bad := none } } t) (ht : t.readsOk) : Completes i s t := by
  rw [Completes, hexec]
  have hign : s1.issue.ign = [] := gPop_heeds d s v s1 hv hclear.1
  have hnot : s1.issue.ign.contains 9 = false := by rw [hign]; rfl
  refine run_ok hclear (by rw [hn]; rfl) (by rw [hd]; rfl) (hv.bind ((Gives.get s1).bind ((Gives.getCtx s1).bind ?_))) ht
  refine (require_gives (by rw [hrefuse]; rfl) s1).bind ((readsDone_gives hread).bind ((Gives.ignoring 9 _).bind ?_))
  exact ite_gives (fun h => absurd (hnot.symm.trans h) Bool.false_ne_true) (fun _ => hwrite)

theorem csrRefuses_eq {s : State} {n : Nat} {v : W64} (h : csrBad n v = false) : s.csrRefuses n v = false := by
  rw [State.csrRefuses, h, Bool.and_false]

/-- Settles O43: the words on CSRs are one template, and each CSR is a field of its own. -/
theorem csrWordsReadAndWriteTheirRegister : Obligations.CsrWordsReadAndWriteTheirRegister := by
  unfold Obligations.CsrWordsReadAndWriteTheirRegister
  refine ⟨?_, ?_, ?_, ?_⟩
  · intro d n s t hclear hn hd hpush hread
    exact run_ok hclear (by rw [hn]; rfl) (by rw [hd]; rfl) hpush hread
  · intro p hp d n s s1 v old hclear hn hd hv hread
    have hexec : exec (p.1 d n) s = csrForm (p.1 d n) d n p.2.1 p.2.2 s := by
      simp only [csrForms, List.mem_cons, List.not_mem_nil, or_false] at hp
      rcases hp with rfl | rfl | rfl <;> rfl
    have hunread : ∀ {t : State}, t.issue = { s1.issue with low := none, bad := none } → t.readsOk := fun h => ⟨by rw [h], .inl (by rw [h])⟩
    refine ⟨fun h4 h8 h1 hbad => ?_, fun h4 => ?_, fun h8 hbad => ?_, fun h1 hbad => ?_⟩
    · have hne : n.toNat ≠ 0xC4 ∧ n.toNat ≠ 0xC8 ∧ n.toNat ≠ 0x61 :=
        ⟨fun h => h4 (BitVec.eq_of_toNat_eq h), fun h => h8 (BitVec.eq_of_toNat_eq h), fun h => h1 (BitVec.eq_of_toNat_eq h)⟩
      refine csrForm_completes (t := { s1 with issue := { s1.issue with low := none, bad := none } }.onCur (fun c => c.setCsr n.toNat (p.2.1 old v)))
        hexec hclear hn hd hv hread (csrRefuses_eq hbad) ((Gives.get _).bind ?_) (hunread rfl)
      refine ite_gives (fun h => absurd h hne.1) fun _ => ite_gives (fun h => absurd h.1 hne.2.1) fun _ =>
        ite_gives (fun h => absurd (hbad.symm.trans h) Bool.false_ne_true) fun _ => (Gives.modCtx _ _).bind (ite_gives (fun h => absurd h hne.2.2) fun _ => ?_)
      exact Gives.pure () _
    · subst h4
      refine csrForm_completes (t := { s1 with issue := { s1.issue with low := none, bad := none } }.onCore (fun c => { c with
        memdiag := c.memdiag &&& ~~~(if p.2.2 then v else 0) })) hexec hclear hn hd hv hread rfl ((Gives.get _).bind ?_) (hunread rfl)
      exact ite_gives (fun _ => Gives.modCore _ _) (fun h => absurd rfl h)
    · subst h8
      refine csrForm_completes (t := if s1.injectable s1.issue.core then
          { s1 with issue := { s1.issue with low := none, bad := none } }.onCur (fun c => { c with errinj := p.2.1 old v })
        else { s1 with issue := { s1.issue with low := none, bad := none } }) hexec hclear hn hd hv hread (csrRefuses_eq hbad) ((Gives.get _).bind ?_) ?_ |>.trans ?_
      · refine ite_gives (fun h => absurd h (by decide)) fun _ => ?_
        by_cases hinj : s1.injectable s1.issue.core = true
        · rw [if_pos hinj]
          refine ite_gives (fun h => Bool.noConfusion (hinj.symm.trans ((Bool.not_eq_eq_eq_not.mp h.2 : _ = !true)))) fun _ =>
            ite_gives (fun h => absurd (hbad.symm.trans h) Bool.false_ne_true) fun _ => (Gives.modCtx _ _).bind (ite_gives (fun h => absurd h (by decide)) fun _ => ?_)
          exact Gives.pure () _
        · rw [if_neg hinj]
          exact ite_gives (fun _ => Gives.pure () _) (fun h => absurd ⟨rfl, congrArg (!·) (Bool.not_eq_true _ ▸ hinj : s1.injectable s1.issue.core = false)⟩ h)
      · split
        · exact hunread rfl
        · exact hunread rfl
      · split <;> rfl
    · subst h1
      refine csrForm_completes (t := ({ s1 with issue := { s1.issue with low := none, bad := none } }.onCur (fun c => { c with collbw := p.2.1 old v })).modDie
        (dieOf s1.issue.core) (fun x => { x with collbw := p.2.1 old v })) hexec hclear hn hd hv hread (csrRefuses_eq hbad) ((Gives.get _).bind ?_) (hunread rfl)
      refine ite_gives (fun h => absurd h (by decide)) fun _ => ite_gives (fun h => absurd h.1 (by decide)) fun _ =>
        ite_gives (fun h => absurd (hbad.symm.trans h) Bool.false_ne_true) fun _ => (Gives.modCtx _ _).bind (ite_gives (fun _ => ?_) fun h => absurd rfl h)
      exact Gives.change _ _
  · intro n v s t _ hdc
    exact ⟨State.csrNow_setCsr_self s n v hdc, fun m _ h => State.csrNow_setCsr_ne s n m v h⟩
  · intro v s t
    have hcur : t.cur = s.cur := by
      show (t.core s.issue.core).ctx s.issue.ctx = _
      rw [show t.core s.issue.core = { s.core s.issue.core with memdiag := v } from State.modCore_same _ _ _]
      rfl
    refine ⟨congrArg Core.memdiag (State.modCore_same s s.issue.core _), fun m _ h => ?_⟩
    unfold State.csrNow
    rw [hcur]
    exact State.csr_onCore_memdiag s v _ _ h

end Sys2Proof.Machine

namespace Sys2Proof.Machine
/-!
SUPPORT. Steps of cores, the network and the tier engine (05 R121; 08 R191; 21 R369-R376).
-/

open Sys2Proof

/-- A step of the device that can occur is its next state. -/
theorem event_occurs {name : String} {o : Option State} {t : State} (h : o = some t) : event name o = .next t.quiet := by
  subst h
  rfl

/-! ### Cores and the network -/

theorem State.walkerFetch_eq {s : State} {c k w : Nat} {y : Walker} {l : Loc} (hy : tget (s.ctx c k).walkers w {} = y) (hctx : (s.ctx c k).active = true)
    (hw : y.active = true) (hstore : y.store = false) (hroom : y.fetched < 8) (hmore : y.index.toNat + y.fetched < y.count)
    (hl : s.locate c (y.addr (y.index.toNat + y.fetched)) y.size = l) (habs : ∀ i j, l ≠ .absent i j)
    (hbusy : (s.core c).busy l y.size = false) (hheld : s.heldOver c k l y.size = false) :
    s.walkerFetch c k w = some (s.modCtx c k (fun x => { x with walkers := tmod x.walkers w {} (fun z => { z with fetched := z.fetched + 1 }) })) := by
  unfold State.walkerFetch
  dsimp only
  rw [hy, if_pos (by simp [hctx, hw, hstore, hroom, hmore]), hl]
  split
  · exact absurd rfl (habs _ _)
  · exact if_neg (by simp [hbusy, hheld])

/-- A request that reaches its home is performed there. -/
theorem State.performReq_store {s s1 : State} {c f k : Nat} {g : GReq} {e : W64} (hg : g.load = false) (hx : s.xlate (s.tenantOf c) g.addr .write = .ok f k e)
    (hcross : s.cross (dieOf c) (homeDie f) = some s1) :
    s.performReq c g = some ((s1.modCore c (fun x => { x with gstores := x.gstores.flatMap (fun h => if h.id = g.id then
      (if g.size = 16 then [{ g with size := 8, addr := g.addr + 8, data := g.data >>> 64 }] else []) else [h]) })).performGlobal (s.tenantOf c) g.addr
        (Nat.min g.size 8) (g.data.toNat % 2 ^ (8 * Nat.min g.size 8)) (2 ^ Nat.min g.size 8 - 1)) := by
  unfold State.performReq
  dsimp only
  rw [show (if g.load then Acc.read else .write) = .write from if_neg (by rw [hg]; exact Bool.false_ne_true), hx]
  dsimp only
  rw [hcross]
  exact congrArg some (if_neg (by rw [hg]; exact Bool.false_ne_true))

theorem State.performReq_load {s s1 : State} {c f k : Nat} {g : GReq} {e : W64} {w : State} (hg : g.load = true)
    (hx : s.xlate (s.tenantOf c) g.addr .read = .ok f k e) (hcross : s.cross (dieOf c) (homeDie f) = some s1)
    (hw : (((s1.modCore c (fun x => { x with gstores := x.gstores.flatMap (fun h => if h.id = g.id then
      (if g.size = 16 then [{ g with size := 8, addr := g.addr + 8, data := g.data >>> 64 }] else []) else [h]) })).lookup c (s.tenantOf c) g.addr false).scrubLine f) = w)
    (hpoison : w.poisonAt f = false) :
    s.performReq c g = some (w.loadPart c g.ctx g.seq g.part (w.greadAt f (Nat.min g.size 8)) none) := by
  unfold State.performReq
  dsimp only
  rw [show (if g.load then Acc.read else .write) = .read from if_pos hg, hx]
  dsimp only
  rw [hcross]
  refine congrArg some ((if_pos hg).trans ?_)
  rw [hw, if_neg (by rw [hpoison]; exact Bool.false_ne_true)]

theorem execFetchDeliver_word {s t : State} {c k : Nat} {w : BitVec 32} (hturn : (s.core c).turns k = true) (hmay : (s.ctx c k).mayDeliver = true)
    (hedge : (s.ctx c k).edge = none) (hfetch : s.fetch c (s.ctx c k).pc = .word w t) (hhint : isHint (instrOf w) = false) :
    execFetchDeliver c k s = .next ((t.delivered c k (s.ctx c k).pc (instrOf w)).2.modCtx c k
      (fun x => x.append (t.delivered c k (s.ctx c k).pc (instrOf w)).1)).quiet := by
  have hdeliver : s.deliver c k false = .done ((t.delivered c k (s.ctx c k).pc (instrOf w)).2.modCtx c k
      (fun x => x.append (t.delivered c k (s.ctx c k).pc (instrOf w)).1)) := by
    unfold State.deliver
    rw [hedge]
    dsimp only
    rw [hfetch]
    dsimp only
    rw [if_neg (by rw [hhint]; exact Bool.false_ne_true)]
    rfl
  unfold execFetchDeliver
  rw [if_neg (by simp [hturn, hmay]), hdeliver]

/-- Settles O50: each step occurs when its condition holds, and is then its next state. -/
theorem coreAndNetworkStepsRun : Obligations.CoreAndNetworkStepsRun := by
  unfold Obligations.CoreAndNetworkStepsRun
  refine ⟨?_, ?_, ?_, ?_, ?_, ?_, ?_, ?_, ?_⟩
  · intro c k w s y e l t hctx hw hstore hroom hmore habs hbusy hheld
    exact event_occurs (State.walkerFetch_eq rfl hctx hw hstore hroom hmore rfl habs hbusy hheld)
  · intro c k w s h r p t hheld hdone
    refine ⟨event_occurs ?_, fun u hl hu => State.writeHeld_of_ok hl hu⟩
    unfold State.walkerWrite
    rw [hheld]
    exact if_pos hdone
  · intro c s t g l hg ht
    refine event_occurs ?_
    unfold State.globalAccessPerformed
    dsimp only
    rw [show (s.requestsFree c)[Config.performChoice s.fresh % (s.requestsFree c).length]? = some g from hg]
    dsimp only
    rw [ht]
  · intro c s s1 g f k e v n rest u w hcross
    exact ⟨fun hg hx => State.performReq_store hg hx hcross, fun hg hx hp => State.performReq_load hg hx hcross rfl hp⟩
  · intro c q s u l t hl hu
    refine event_occurs ?_
    unfold State.deltaArrive
    dsimp only
    rw [if_neg fun h => hl (List.isEmpty_iff.1 h), hu]
    rfl
  · intro c pc arg s d hd hmem
    refine event_occurs ?_
    unfold State.startMessage
    rw [hd]
    dsimp only
    rw [hmem]
    exact (apply_ite some _ _ _).symm
  · intro c k s t w pc r hturn hmay hedge hfetch hhint
    exact execFetchDeliver_word hturn hmay hedge hfetch hhint
  · intro c k on s hc hk hlocked
    refine event_occurs ?_
    unfold State.debuggerAttach
    rw [if_neg (by omega), if_neg fun h => absurd (hlocked h.1) (by rw [h.2]; exact Bool.noConfusion)]
  · intro c k s hactive hawait
    exact event_occurs (if_pos ⟨hactive, hawait⟩)

end Sys2Proof.Machine

namespace Sys2Proof.Machine
/-!
SUPPORT. Steps of translation and of the tier engine (21 R369-R376).
-/

open Sys2Proof

/-- A command of the tier engine that is well formed runs and leaves its RESULT. -/
theorem State.teRun_eq {s t : State} {op r : Nat} {f : State → State × Nat} (hc : s.commandIs op) (hf : f s = (t, r)) :
    s.teRun op f = some (t.teDone r) := by
  obtain ⟨hop, hwarm, hres, hvf⟩ := hc
  unfold State.teRun
  rw [if_neg (by simp [hop, hwarm]), if_neg (by rw [hres]; exact fun h => h.elim Bool.noConfusion fun ⟨h6, h0⟩ => by have := hvf h6; omega), hf]

/-- A mapped page is brought up into the frame found for it. -/
theorem State.bringUp_filled {s u : State} {v p f : Nat} {e : W64} (hp : tfind (s.vf v).pages p = some e) (hv : pteV e = true) (ht : pteTier e ≠ 0)
    (hgone : s.backingGone v e = false ∨ Config.pageLost v p = true)
    (hf : s.frameFor (s.vf v).node (if pteClass e = 3 then some (ptePch e) else none) = some (f, u)) :
    ∃ (t : State) (b : Bool), s.bringUp v p = some (t.setPage v p (bput (bput (bput (bput e 5 2 0) 34 30 f) 17 1 0) 15 1 (b2n b))) := by
  unfold State.bringUp
  dsimp only
  rw [hp]
  dsimp only
  rw [if_neg (by simp [hv, ht]), if_neg (by rcases hgone with h | h <;> simp [h]), hf]
  exact ⟨_, _, rfl⟩

/-- A page whose backing is gone, and which is not kept as lost, is unmapped. -/
theorem State.bringUp_unmapped {s : State} {v p : Nat} {e : W64} (hp : tfind (s.vf v).pages p = some e) (hv : pteV e = true) (ht : pteTier e ≠ 0)
    (hgone : s.backingGone v e = true) (hlost : Config.pageLost v p = false) :
    s.bringUp v p = some ((s.setPage v p (bput e 0 1 0)).modVf v (fun t => { t with backing := tdel t.backing p })) := by
  unfold State.bringUp
  dsimp only
  rw [hp]
  dsimp only
  rw [if_neg (by simp [hv, ht]), if_pos ⟨hgone, by rw [hlost]; rfl⟩]

theorem State.setPage_pages (s : State) (v p : Nat) (e : W64) : tfind ((s.setPage v p e).vf v).pages p = some e := by
  simp [State.setPage]

theorem State.scrubbed_frames (s : State) (f : Nat) (fr : Frame) : (s.scrubbed f fr).plat.frames = s.plat.frames := by
  unfold State.scrubbed
  dsimp only
  split
  · exact (apply_ite (fun s : State => s.plat.frames) ..).trans (ite_self _)
  · exact (apply_ite (fun s : State => s.plat.frames) ..).trans (ite_self _)
  · rfl

theorem State.hostCopy_word {s t u : State} {k : Acc} {classes : Nat → Bool} {move : State → Nat → Nat → State} {f : Nat} (ha : s.teAddr % 8 = 0)
    (hl : s.teLen = 8) (hlocked : (s.vf s.teVf).locked = false) (hruns : (s.vf s.teVf).runs = false) (hw : s.hostWord k s.teVf s.teAddr = (u, f, 0))
    (hm : move u f 0 = t) : s.hostCopy k classes move = (t, 0) := by
  unfold State.hostCopy
  dsimp only
  rw [if_neg (by omega), if_neg (by simp [hlocked]), if_neg (by simp [hruns]), hl]
  simp [List.range_succ, hw, hm]

/-- An invalid page's first mapping, with its key and class allowed, is written with its tables. -/
theorem State.setpteCmd_fresh {s t : State} (hlevel : s.teLevel = 2) (hbad : pteBad 2 s.teVal = false) (hv : pteV s.teVal = true)
    (hp : tfind (s.vf s.teVf).pages (s.teAddr / 2 ^ 16) = none) (hbig : (tfind (s.vf s.teVf).bigs (s.teAddr / 2 ^ 29)).any pteV = false)
    (hkey : pteKey s.teVal = (s.vf s.teVf).keyid ∨ pteKey s.teVal = 0) (hclass : pteKey s.teVal = 0 → pteClass s.teVal = 2 ∨ pteClass s.teVal = 4)
    (ht : (s.performIssued s.teVf).addTables s.teVf 2 s.teAddr = some t) :
    s.setpteCmd = ((t.setPage s.teVf (s.teAddr / 2 ^ 16) (bput s.teVal 5 2 3)).dropCached s.teVf (s.teAddr / 2 ^ 16), 0) := by
  unfold State.setpteCmd State.dropTableOf
  simp only [hlevel, hp, hbig, hbad, hv, ht, reduceCtorEq, if_false, Bool.not_true, Bool.not_false, Bool.and_self,
    (by decide : ¬ (2 : Nat) = 1), and_false, if_true]
  rw [if_neg (by simp [setpteAllowed]), if_neg (by grind), if_neg (by grind)]

/-- Settles O51: each walk, page step and command leaves the state that its rule gives. -/
theorem tierEngineStepsRun : Obligations.TierEngineStepsRun := by
  unfold Obligations.TierEngineStepsRun
  refine ⟨?_, ?_, ?_, ?_, ?_, ?_, ?_, ?_, ?_, ?_⟩
  · intro c p w s f k e h
    refine event_occurs ?_
    unfold State.translationWalk
    dsimp only
    rw [h]
  · intro v p s u e f hp hv ht hgone hf
    obtain ⟨t, b, hup⟩ := State.bringUp_filled hp hv ht hgone hf
    refine ⟨_, b2n b, by cases b <;> decide, event_occurs (congrArg (Option.map _) hup), ?_⟩
    exact State.setPage_pages ..
  · intro v p s e hp hv ht hgone hlost
    refine ⟨_, event_occurs (congrArg (Option.map _) (State.bringUp_unmapped hp hv ht hgone hlost)), ?_⟩
    rw [State.pend_get_vf, State.modVf_same]
    exact State.setPage_pages ..
  · intro f s x h
    refine ⟨_, event_occurs (by unfold State.backgroundScrub; rw [h]), ?_⟩
    unfold State.clearScrub
    change (tget (State.scrubbed _ f x).plat.frames f {}).orphan = 0
    rw [State.scrubbed_frames]
    exact congrArg Frame.orphan (tget_tmod_self (List.foldl (fun s i => s.scrubLine (f * 65536 + 64 * i)) s x.dirtyLines).plat.frames f {}
      (fun x => { x with orphan := 0 }))
  · intro s t v p e hc hlevel hbad hv hp hbig hkey hclass ht
    exact event_occurs (State.teRun_eq hc (State.setpteCmd_fresh hlevel hbad hv hp hbig hkey hclass ht))
  · intro s u p e hc hruns hpages hp hv ht hu
    refine event_occurs (State.teRun_eq hc ?_)
    unfold State.fetchCmd
    rw [if_neg (by simp [hruns]), hpages]
    simp [hp, hv, ht, hu]
  · intro s hc hruns hlevel
    refine event_occurs (State.teRun_eq hc ?_)
    unfold State.evictCmd
    rw [if_neg (by omega), if_neg (by simp [hruns])]
  · intro s u f hc ha hl hlocked hruns hw
    exact event_occurs (State.teRun_eq hc (State.hostCopy_word ha hl hlocked hruns hw rfl))
  · intro s u f hc ha hl hlocked hruns hw
    exact event_occurs (State.teRun_eq hc (State.hostCopy_word ha hl hlocked hruns hw rfl))
  · intro s hc hn hfree
    refine event_occurs (State.teRun_eq hc ?_)
    unfold State.shresCmd
    dsimp only
    rw [if_neg hn, if_neg (by omega)]

end Sys2Proof.Machine

namespace Sys2Proof.Machine
/-!
SUPPORT. Steps of the matrix engine (11 R274, R276, R280, R282).
-/

open Sys2Proof

/-- A class whose head can start is served, first with that head. -/
theorem State.serve_head {t u : State} {e c n : Nat} {j : Job} (hh : (t.team e).head c = some j) (hr : t.jobReady e j = true)
    (hc : j.cost ≤ tget (t.team e).deficit c 0) (hu : t.startJob e j = .ok u) :
    t.serve e c (n + 1) = (((u.modTeam e (fun x => { x with deficit := tmod x.deficit c 0 (fun d => d - j.cost) })).serve e c n).1, true) := by
  rw [State.serve, hh]
  dsimp only
  rw [if_pos ⟨hr, hc⟩, hu]

/-- The visit that starts a job ends the arbitration. -/
theorem State.arbitrate_served {s r : State} {e c n : Nat} {j : Job} (hturn : ((List.range 9).map (fun i => ((s.team e).served + 1 + i) % 9)).find?
      (fun c => match (s.team e).head c with
        | some j => s.canStart e j
        | none => false) = some c) (hh : (s.team e).head c = some j)
    (hr : (s.modTeam e (fun x => { x with served := c, deficit := tmod x.deficit c 0 (fun d => d + 64 * s.weight e j) })).serve e c 33 = (r, true)) :
    s.arbitrate e (n + 1) = some r := by
  rw [State.arbitrate]
  dsimp only
  split
  next hnone => exact absurd (hnone.symm.trans hturn) nofun
  next d hsome =>
    obtain rfl : d = c := Option.some.inj (hsome.symm.trans hturn)
    rw [hh]
    dsimp only
    rw [hr]
    rfl

/-- A row for a handler goes to it, and otherwise to the job's target. -/
theorem State.drainNext_handler {s : State} {e m h : Nat} {j : Job} (hn : s.nextRow e = some (j, m)) (hring : j.dring = false)
    (hh : j.handlerOf m = some h) :
    s.drainNext e = .ok (((((s.rowOut e j m).modJob e j.key (fun y => { y with busyRows := y.busyRows + 1 })).modCtx (e * 8 + h) 4
      (fun y => y.takeRow j { team := e, job := j.key, row := m, pos := 0 }
        (fun n => (tget ((s.team e).bufferOf j.group) (m * 128 + n) 0).toNat)))).pend [.drainRow e, .matrixJobComplete e, .matrixJobStart e]) := by
  unfold State.drainNext
  rw [hn]
  simp only [hring, Bool.false_eq_true, if_false, hh]

theorem State.drainNext_target {s u : State} {e m : Nat} {j : Job} (hn : s.nextRow e = some (j, m)) (hring : j.dring = false)
    (hh : j.handlerOf m = none) (hu : s.finishRow (j.actor e) e j m 0 (fun _ => true)
      (fun n => (tget ((s.team e).bufferOf j.group) (m * 128 + n) 0).toNat) = .ok u) :
    s.drainNext e = .ok (((u.rowOut e j m).modJob e j.key (fun y => { y with rows := y.rows + 1 })).pend
      [.drainRow e, .matrixJobComplete e, .matrixJobStart e]) := by
  unfold State.drainNext
  rw [hn]
  simp only [hring, Bool.false_eq_true, if_false, hh, hu]

/-- Settles O52: each step of the engine occurs when its condition holds, and is then its next state. -/
theorem matrixEngineStepsRun : Obligations.MatrixEngineStepsRun := by
  unfold Obligations.MatrixEngineStepsRun
  refine ⟨?_, ?_, ?_, ?_, ?_⟩
  · intro e s u c j w t hturn hh hr hc hu
    have hhead : (t.team e).head c = some j := by
      have : (t.team e).queue = (s.team e).queue := by simp [t]
      rw [Team.head, this]
      exact hh
    exact event_occurs (State.arbitrate_served hturn hh (State.serve_head hhead hr hc hu))
  · intro e s j m vals after hn hring
    exact ⟨fun h hh => event_occurs (congrArg Except.toOption (State.drainNext_handler hn hring hh)),
      fun u hh hu => event_occurs (congrArg Except.toOption (State.drainNext_target hn hring hh hu))⟩
  · intro e s j hj
    refine event_occurs ?_
    unfold State.matrixJobComplete
    rw [hj]
  · intro k s r rest n es hrows hn hroom
    refine event_occurs ?_
    unfold State.chainForward
    dsimp only
    rw [hrows]
    dsimp only
    rw [if_neg (by omega)]
    exact if_pos hroom
  · intro k n s u st rows v hst hread hrows
    refine event_occurs (congrArg Except.toOption (?_ : s.publishRead k n = .ok _))
    unfold State.publishRead
    rw [hst]
    dsimp only
    rw [if_neg (by rw [hread]; exact Bool.false_ne_true), hrows]

end Sys2Proof.Machine

namespace Sys2Proof.Machine
/-!
SUPPORT. Steps of copies, page-fetch lists, the near-bank units and collectives (04 R100, R120; 11 R288-R292).
-/

open Sys2Proof

/-! ### Copies -/

/-- A copy other than a sweep whose rows have moved is reusable. -/
theorem State.copyReusable_eq {s t : State} {c id : Nat} {k : Copy} (hr : s.runCopy c id = some (k, .done t)) (ht : s.copyTurn c k = true)
    (hk : ∀ n x, k.kind ≠ .sweep n x) : s.copyReusable c id = some (t.raiseReusable c k) := by
  unfold State.copyReusable
  rw [hr]
  dsimp only
  split
  next h => exact absurd h (hk _ _)
  next => exact if_pos ht

theorem State.sweepComplete_landed {s t : State} {c id n : Nat} {x : BitVec 24} {k : Copy} (hr : s.runCopy c id = some (k, .done t)) (ht : s.copyTurn c k = true)
    (hk : k.kind = .sweep n x) (hl : t.copyLanded c k = true) : s.sweepComplete c id = some ((t.raiseReusable c k).raiseVisible c k) := by
  unfold State.sweepComplete
  rw [hr]
  simp only [hk, ht, hl, Bool.not_true, Bool.false_eq_true, if_false, if_true]

theorem State.sweepComplete_moved {s t : State} {c id n : Nat} {x : BitVec 24} {k : Copy} (hr : s.runCopy c id = some (k, .done t)) (ht : s.copyTurn c k = true)
    (hk : k.kind = .sweep n x) (hl : t.copyLanded c k = false) (hrow : k.row < k.rows) :
    s.sweepComplete c id =
      some (((t.modCore c (fun co => co.modCopy id (fun y => { y with row := k.rows }))).tookTurn c k).pend [.sweepComplete c id]) := by
  unfold State.sweepComplete
  rw [hr]
  simp only [hk, ht, hl, hrow, Bool.not_true, Bool.false_eq_true, if_false, if_true]

/-- A fault that stops a copy's device leaves nothing of the copy; otherwise the copy goes on behind the row. -/
theorem State.copyFault_stopped {s w u : State} {c id j f : Nat} {a : W64} {k : Copy} (hr : s.runCopy c id = some (k, .fault j f a u))
    (ht : s.copyTurn c k = true) (hrows : s.faultRows c k (s.deltaLines c k) k.zeroing k.row (k.rows - k.row) = (w, none)) :
    s.copyFault c id = some ((w.tookTurn c k).modCore c (fun co => { co with
      copies := co.copies.filter (fun x => x.id != id), ranges := co.ranges.filter (fun x => x.id != id) })) := by
  unfold State.copyFault
  rw [hr]
  simp only [ht, hrows, Bool.not_true, Bool.false_eq_true, if_false]

theorem State.copyFault_copy {s w u : State} {c id j f n : Nat} {a : W64} {z : Bool} {k : Copy} (hr : s.runCopy c id = some (k, .fault j f a u))
    (ht : s.copyTurn c k = true) (hrows : s.faultRows c k (s.deltaLines c k) k.zeroing k.row (k.rows - k.row) = (w, some (n, z)))
    (hk : ∀ m x, k.kind ≠ .sweep m x) :
    s.copyFault c id = some (if n = k.rows then
      ((w.tookTurn c k).modCore c (fun co => co.modCopy id (fun y => { y with row := n, zeroing := z }))).raiseReusable c { k with begun := true }
      else ((w.tookTurn c k).modCore c (fun co => co.modCopy id (fun y => { y with row := n, zeroing := z }))).pend (copyChores c k)) := by
  unfold State.copyFault
  rw [hr]
  simp only [ht, hrows, Bool.not_true, Bool.false_eq_true, if_false]

theorem State.copyFault_sweep {s w u : State} {c id j f n m : Nat} {x : BitVec 24} {a : W64} {z : Bool} {k : Copy} (hr : s.runCopy c id = some (k, .fault j f a u))
    (ht : s.copyTurn c k = true) (hrows : s.faultRows c k (s.deltaLines c k) k.zeroing k.row (k.rows - k.row) = (w, some (n, z)))
    (hk : k.kind = .sweep m x) : s.copyFault c id =
      some (((w.tookTurn c k).modCore c (fun co => co.modCopy id (fun y => { y with row := n, zeroing := z }))).pend (copyChores c k)) := by
  unfold State.copyFault
  rw [hr]
  simp only [ht, hrows, hk, Bool.not_true, Bool.false_eq_true, if_false]

/-! ### Page-fetch lists -/

theorem State.pfeRun_copy {s : State} {e : Nat} {h : Chain} {x : Elem} (hn : (s.team e).nextElem = some (h, x))
    (hturn : (s.team e).lastWasElem = false ∨ (s.team e).promoted = some x.id ∨ s.copyReady e = false) (hc : s.elemCheck h x = .copy) :
    s.pfeRun e = some ((((s.elemLooks h x 0).modTeam e (fun y => { y.modElem x.id (fun z => { z with started := true }) with
      lastWasElem := true
      promoted := if y.promoted = some x.id then none else y.promoted })).winState (clusterOf h.core) x.dwin 2).pend [.pfeLand e, .pfeRun e]) := by
  unfold State.pfeRun
  rw [hn]
  dsimp only
  rw [if_neg (by rcases hturn with h | h | h <;> simp [h]), hc]

/-- An element that is not the last of a chain that goes on lands as its check says. -/
theorem State.pfeLand_copy {s : State} {e : Nat} {h : Chain} {x : Elem} (hr : (s.team e).running = some (h, x)) (hlast : x.last = true → x.next = 0)
    (hc : s.elemCheck h x = .copy) :
    s.pfeLand e = some ((((s.elemLooks h x 0).fillRows h x false).landElem e h { x with skipped := false }).pend [.pfeRun e]) := by
  unfold State.pfeLand
  rw [hr]
  simp only [hc, reduceCtorEq, if_false, decide_false]
  rw [if_neg (by rintro ⟨hl, hx⟩; exact hx (hlast hl))]

theorem State.pfeLand_skipped {s : State} {e : Nat} {h : Chain} {x : Elem} (hr : (s.team e).running = some (h, x)) (hlast : x.last = true → x.next = 0)
    (hc : s.elemCheck h x = .skipped) :
    s.pfeLand e = some (((s.elemLooks h x 0).landElem e h { x with skipped := true }).pend [.pfeRun e]) := by
  unfold State.pfeLand
  rw [hr]
  simp only [hc, if_true, decide_true]
  rw [if_neg (by rintro ⟨hl, hx⟩; exact hx (hlast hl))]

/-! ### Collectives -/

/-- An operation of a device that is alone has its own contribution only. -/
theorem State.collFinish_alone {s : State} {d n : Nat} {o : Coll} (ho : s.coll d n = some o) (hst : o.started = true) (hy : s.yielded o.dom = false)
    (halone : s.participants o.dom = [s.plat.devNo.toNat])
    (hw : s.collWaits o ((o.results [o.own] 0).map (fun e => o.w 1 + w64 (o.size * e.1)) ++ (if o.w 5 = 0#64 then [] else [o.w 5])) = []) :
    s.collFinish d n = .ok (((o.results [o.own] 0).foldl (fun s e =>
      s.performAs o.core o.vf (o.w 1 + w64 (o.size * e.1)) o.size e.2 (2 ^ o.size - 1)) s).collEnd d n o 0 1) := by
  unfold State.collFinish
  rw [ho]
  dsimp only
  rw [if_neg (by simp [hst, hy]), halone]
  have hposts : [s.plat.devNo.toNat].map (fun p => if p = s.plat.devNo.toNat then some (o.words, o.own)
      else ((s.domain o.dom).contribs.find? (fun x => x.dev == p && x.whole && bf (x.words.getD 0 0) 8 16 == o.tag)).map (fun x => (x.words, x.data))) =
      [some (o.words, o.own)] := by simp
  rw [hposts]
  have hbad : ([some (o.words, o.own)].filterMap (fun p => p)).any (fun p => p.1 != o.words) = false := by simp
  rw [hbad]
  have hrank : ([s.plat.devNo.toNat].takeWhile (fun p => p != s.plat.devNo.toNat)).length = 0 := by simp
  rw [hrank, if_neg (by simp)]
  have hres : (if false = true then [] else o.results (([some (o.words, o.own)].filterMap (fun p => p)).map (fun p => p.2)) 0) = o.results [o.own] 0 := rfl
  rw [hres, if_neg (fun h => absurd (congrArg (fun l => !l.isEmpty) hw) (by exact fun h' => Bool.false_ne_true (h'.symm.trans h)))]
  rfl

/-- Settles O53: each step of the four engines occurs when its condition holds, and is then its next state. -/
theorem copyBankAndCollectiveStepsRun : Obligations.CopyBankAndCollectiveStepsRun := by
  unfold Obligations.CopyBankAndCollectiveStepsRun
  refine ⟨?_, ?_, ?_, ?_, ?_, ?_, ?_, ?_, ?_, ?_, ?_⟩
  · intro c id s t k hr ht
    exact ⟨fun hk => event_occurs (State.copyReusable_eq hr ht hk), fun n x hk =>
      ⟨fun hl => event_occurs (State.sweepComplete_landed hr ht hk hl), fun hl hrow => event_occurs (State.sweepComplete_moved hr ht hk hl hrow)⟩⟩
  · intro c id s k hk hreuse hl
    refine event_occurs ?_
    unfold State.copyVisible
    rw [hk]
    exact if_pos (by simp [hreuse, hl])
  · intro c id s u k j f a r w hr ht
    refine ⟨fun h => event_occurs (State.copyFault_stopped hr ht (Prod.ext rfl h)), ?_⟩
    intro n z h v
    exact ⟨fun hk => event_occurs (State.copyFault_copy hr ht (Prod.ext rfl h) hk),
      fun m x hk => event_occurs (State.copyFault_sweep hr ht (Prod.ext rfl h) hk)⟩
  · intro e s h x t hn hturn hc
    exact event_occurs (State.pfeRun_copy hn hturn hc)
  · intro e s h x hr hlast
    exact ⟨fun hc => event_occurs (State.pfeLand_copy hr hlast hc), fun hc => event_occurs (State.pfeLand_skipped hr hlast hc)⟩
  · intro c id s u b st fl out hb hr
    refine event_occurs (congrArg Except.toOption (?_ : s.bankRun c id = .ok _))
    unfold State.bankRun
    rw [hb]
    dsimp only
    rw [hr]
  · intro c id s u b t hb hu
    unfold State.bankOut
    rw [hb]
    dsimp only
    rw [hu]
  · intro c id s b k a hb hr
    refine event_occurs ?_
    unfold State.nbuFault
    rw [hb]
    dsimp only
    rw [hr]
  · intro d n s t u o v l w ho hst hy hv hle hl
    refine event_occurs (congrArg Except.toOption (?_ : s.collBegin d n = .ok _))
    unfold State.collBegin
    rw [ho]
    dsimp only
    rw [if_neg (by simp [hst, hy]), hv]
    dsimp only
    rw [if_neg (by omega), hl]
  · intro d n s o ho hst hy halone hw
    exact event_occurs (congrArg Except.toOption (State.collFinish_alone ho hst hy halone hw))
  · intro d n s o late ho hst hlim hlate
    refine event_occurs ?_
    unfold State.collTimeout
    rw [ho]
    exact if_neg (by simpa [hst, Nat.not_lt.2 hlim, late] using hlate)

end Sys2Proof.Machine

namespace Sys2Proof.Machine
/-!
SUPPORT. Steps of the arrival at a barrier (02 R27-R30, R33, R36, R40, R47).
-/

open Sys2Proof

theorem State.domOf_live {s : State} {c d : Nat} (hd : (s.core c).domain = some d) (hl : (s.domain d).live = true) : s.domOf c = some (s.domain d) := by
  unfold State.domOf
  rw [hd]
  exact if_pos hl

/-- A core that has drained, without a residue in a general channel, arrives. -/
theorem State.coreArrive_drained {s : State} {c slot d : Nat} {m : Domain} (hd : (s.core c).domain = some d) (hm : s.domOf c = some m)
    (hphase : (s.core c).phase = .drain) (hslot : (s.core c).slot = slot) (hearly : (s.core c).early = none) (hdrained : s.drained c = true)
    (hchan : slot = 0 → (s.core c).chanSet = 0) : s.coreArrive c slot = some (s.arrive c slot d) := by
  unfold State.coreArrive
  dsimp only
  rw [hd, hm]
  dsimp only
  rw [if_neg (by simp [hphase]), if_neg (by simp [hphase, hslot, hearly, hdrained]), if_neg fun h => h.2 (hchan h.1)]

/-- A pennant of the inbox, or one of its own that can go on, is taken up. -/
theorem State.risingPennant_eq {s t : State} {d : Nat} (hl : (s.domain d).live = true)
    (ht : (match (s.domain d).inbox with
      | p :: r => some ((s.modDomain d (fun m => { m with inbox := r })).takePennant d p)
      | [] => s.advanceInsts d) = some t) :
    s.risingPennant d =
      some (if !(t.domain d).inbox.isEmpty || (t.domain d).insts.any (t.instReady (t.domain d)) then t.pend [.risingPennant d] else t) := by
  unfold State.risingPennant
  dsimp only
  rw [if_neg (by simp [hl])]
  exact congrArg (Option.map _) ht

theorem Core.parks_iff (c : Core) : c.parks = true ↔ c.phase = .run ∨ c.phase = .gather ∨ c.phase = .drain := by
  simp [Core.parks, or_assoc]

theorem State.modDomain_congr {s : State} {d : Nat} {f g : Domain → Domain} (h : f (s.domain d) = g (s.domain d)) : s.modDomain d f = s.modDomain d g := by
  unfold State.modDomain tmod
  simp only [State.domain] at h
  rw [h]

/-- A core that has not voted sends its early abort, parked or not. -/
theorem State.corePark_sends {s : State} {c d g x : Nat} {f : Core → Core} (hearly : (s.core c).early = some (g, x))
    (hd : (s.core c).domain = some d) (hl : (s.domain d).live = true) (hdec : (s.domain d).decision = none) (hvoted : (s.core c).voted = false)
    (hphase : (s.core c).parks = true ∨ (s.core c).phase = .arrived)
    (hf : (if (s.core c).parks then { s.core c with phase := .park } else { s.core c with voted := true }) = f (s.core c)) :
    s.corePark c = some (((s.modCore c f).modDomain d (fun m => { m with inbox := m.inbox ++ [s.earlyAbort c g (s.domain d)] })).pend
      [.risingPennant d]) := by
  unfold State.corePark
  dsimp only
  rw [hearly, hd, State.domOf_live hd hl]
  dsimp only
  rw [if_neg (by rcases hphase with h | h <;> simp [hdec, hvoted, h]), if_neg (by simp [hvoted]), State.modCore_congr (g := f) hf,
    State.modDomain_congr (s := s.modCore c f) (g := fun m => { m with inbox := m.inbox ++ [s.earlyAbort c g (s.domain d)] }) rfl]

/-- Settles O54: each step of the arrival occurs when its condition holds, and is then its next state. -/
theorem barrierArrivalStepsRun : Obligations.BarrierArrivalStepsRun := by
  unfold Obligations.BarrierArrivalStepsRun
  refine ⟨?_, ?_, ?_, ?_, ?_, ?_⟩
  · intro c slot d s m p hd hm hphase hslot hearly hdrained hchan
    exact event_occurs (State.coreArrive_drained hd hm hphase hslot hearly hdrained hchan)
  · intro d s t hl ht
    refine event_occurs (State.risingPennant_eq hl ?_)
    rcases ht with ⟨p, r, hin, rfl⟩ | ⟨hin, ht⟩
    · rw [hin]
    · rw [hin]
      exact ht
  · intro d s x n hroot hdec hpoll hn
    refine event_occurs ?_
    unfold State.pollTimer
    dsimp only
    rw [hroot, hdec]
    exact if_pos (by simp [hpoll, hn])
  · intro d who s t hwho
    have hpolled : ¬(!(s.domain d).polling.contains who) = true := by rw [hwho]; exact Bool.noConfusion
    constructor
    · intro hother
      refine event_occurs ?_
      unfold State.poll
      dsimp only
      rw [if_neg hpolled]
      cases who with
      | core c => exact absurd rfl (hother c)
      | cluster k => rfl
      | die k => rfl
    · intro c p q hc hp
      refine event_occurs ?_
      unfold State.poll
      dsimp only
      rw [if_neg hpolled, hc]
      dsimp only
      rw [← hc, show tfind (s.domain d).arrivals c = some p by simpa [t] using hp]
      rfl
  · intro c d s g x m p hearly hd hl hdec hvoted
    refine ⟨fun hphase => ?_, fun hphase => ?_⟩
    · have hparks := (s.core c).parks_iff.2 hphase
      exact event_occurs (State.corePark_sends hearly hd hl hdec hvoted (.inl hparks) (if_pos hparks))
    · have hparks : ¬(s.core c).parks = true := by simp [Core.parks, hphase]
      exact event_occurs (State.corePark_sends hearly hd hl hdec hvoted (.inr hphase) (if_neg hparks))
  · intro d s m r hl hdec hrun hbudget hparent
    refine ⟨rfl, event_occurs ?_⟩
    unfold State.watchdogExpiry
    exact if_neg (by simp [hl, hdec, hrun, hparent, m, (Nat.not_lt.2 hbudget)])

end Sys2Proof.Machine

namespace Sys2Proof.Machine
/-!
SUPPORT. What the decision of a barrier does to cores, clusters, dies and domains (02 R24, R27, R37, R39, R42, R43).
-/

open Sys2Proof

/-! ### Tables and folds -/

/-- A property that each step of a fold keeps, the fold keeps. -/
theorem foldl_keeps {P : σ → Prop} {f : σ → β → σ} (h : ∀ s b, P s → P (f s b)) (l : List β) {s : σ} (hs : P s) : P (l.foldl f s) := by
  induction l generalizing s with
  | nil => exact hs
  | cons b r ih => exact ih (h s b hs)

/-- A table mapped below a bound. -/
theorem tfind_map_below {t : Tab α} {n k : Nat} {f : α → α} (hk : k < n) :
    tfind (t.map (fun p => if p.1 < n then (p.1, f p.2) else p)) k = (tfind t k).map f := by
  induction t with
  | nil => rfl
  | cons p r ih =>
    obtain ⟨j, u⟩ := p
    by_cases hj : j = k
    · subst hj
      simp [tfind, hk]
    · rw [List.map_cons, show tfind ((j, u) :: r) k = tfind r k by simp [tfind, hj], ← ih]
      split <;> simp [tfind, hj]

/-- A table built from a list of keys. -/
theorem tfind_filterMap {g : Nat → Option (Nat × α)} {h : Nat → Option α} (hg : ∀ i, g i = (h i).map (fun x => (i, x))) {l : List Nat} {k : Nat}
    (hk : k ∈ l) : tfind (l.filterMap g) k = h k := by
  obtain rfl := funext hg
  have hall (l : List Nat) : tfind (l.filterMap (fun i => (h i).map (fun x => (i, x)))) k = if k ∈ l then h k else none := by
    induction l with
    | nil => rfl
    | cons i r ih =>
      by_cases hi : i = k
      · subst hi
        cases hx : h i with
        | none => simp [hx, ih]
        | some x => simp [hx, tfind]
      · cases hx : h i with
        | none => simp [hx, ih, Ne.symm hi]
        | some x => simp [hx, tfind, ih, hi, Ne.symm hi]
  rw [hall, if_pos hk]

/-! ### Answers and deltas -/

/-- What the sending of a flit leaves: all but the platform. -/
theorem State.sendOut_keeps {P : State → Prop} (hplat : ∀ (s : State) f, P s → P (s.modPlat f)) (s : State) (f : OutFlit) (h : P s) : P (s.sendOut f) := by
  unfold State.sendOut State.transmit State.modPort
  dsimp only
  split
  · exact hplat _ _ h
  · split
    · exact hplat _ _ h
    · split
      · exact hplat _ _ h
      · exact hplat _ _ (hplat _ _ h)

/-- The answer to a delta reaches the core that sent it, or a port. -/
theorem State.answer_keeps {P : State → Prop} (hplat : ∀ (s : State) f, P s → P (s.modPlat f)) (hcore : ∀ (s : State) c f, P s → P (s.modCore c f))
    (s : State) (d : Delta) (w : Option W64) (b : Bool) (h : P s) : P (s.answer d w b) := by
  unfold State.answer
  split
  · exact hcore _ _ _ h
  · exact State.sendOut_keeps hplat _ _ h

theorem lineBytes_keeps {P : State → Prop} {put : State → Nat → Byte → State} (hput : ∀ s i b, P s → P (put s i b)) (data : BitVec 512) (mask : BitVec 64)
    {s : State} (h : P s) : P (lineBytes data mask put s) :=
  foldl_keeps (fun s i hs => by
    show P (if bit mask i then put s i (byteOf data.toNat i) else s)
    split
    · exact hput _ _ _ hs
    · exact hs) _ h

/-- A delta that is applied writes its bytes and is answered. -/
theorem State.applyTo_keeps {P : State → Prop} {put : State → Nat → Byte → State} (hput : ∀ s i b, P s → P (put s i b))
    (hplat : ∀ (s : State) f, P s → P (s.modPlat f)) (hcore : ∀ (s : State) c f, P s → P (s.modCore c f)) (s : State) (d : Delta)
    (get : State → Nat → Byte) (h : P s) : P (s.applyTo d get put) := by
  unfold State.applyTo
  split
  · exact lineBytes_keeps hput _ _ h
  · next op n v ret _ =>
    have hwritten : P (match atomOp op (8 * n) (gather (get s) 0 n) v.toNat 0 with
        | some new => (List.range n).foldl (fun s i => put s i (byteOf new i)) s
        | none => s) := by
      split
      · exact foldl_keeps (fun s i hs => hput _ _ _ hs) _ h
      · exact h
    dsimp only
    split
    · exact State.answer_keeps hplat hcore _ _ _ _ hwritten
    · exact hwritten
  · exact h

/-- A delta applied to a core's memory or to a cluster's scratchpad. -/
theorem State.applyLocal_keeps {P : State → Prop} (hplat : ∀ (s : State) f, P s → P (s.modPlat f)) (hcore : ∀ (s : State) c f, P s → P (s.modCore c f))
    (hbad : ∀ (s : State) k (f : Cluster → List Nat) (g : Cluster → List Nat), P s → P (s.modCluster k (fun x => { x with bad := f x, marked := g x })))
    (hpad : ∀ (s : State) k a b, P s → P (s.modCluster k (fun x => x.putPad a b))) (s : State) (d : Delta) (h : P s) : P (s.applyLocal d) := by
  unfold State.applyLocal State.discardDelta
  split
  · split
    · exact State.answer_keeps hplat hcore _ _ _ _ h
    · exact State.applyTo_keeps (fun _ _ _ hs => hcore _ _ _ hs) hplat hcore _ _ _ (hcore _ _ _ h)
  · dsimp only
    split
    · exact State.answer_keeps hplat hcore _ _ _ _ h
    · exact State.applyTo_keeps (fun _ _ _ hs => hpad _ _ _ _ hs) hplat hcore _ _ _ (hbad _ _ _ _ h)
  · exact h

/-! ### What a commit does -/

theorem State.commitCore_core (s : State) (x : Decision) (c : Nat) : (s.commitCore x c).core c =
    Core.retain { ((s.core c).emptyChannels.modGeneral (fun k => k.pass x 0)) with undo := [], undoRes := [], badLog := [], markedLog := [], scratch := [],
                                                                                   gen := (s.core c).gen + 1, phase := .commit } := by
  unfold State.commitCore
  rw [State.modCore_same]

/-- A change of the general contexts that leaves the idle one is made in each of them. -/
theorem Core.modGeneral_ctx {c : Core} {f : Ctx → Ctx} {k : Nat} (hk : k < 4) (hf : f {} = {}) : (c.modGeneral f).ctx k = f (c.ctx k) := by
  unfold Core.modGeneral Core.ctx tget
  rw [tfind_map_below hk]
  cases tfind c.ctxs k with
  | none => exact hf.symm
  | some x => rfl

/-- A context that waits at the barrier passes with what the decision says. -/
theorem Ctx.pass_bar {x : Ctx} {y : Decision} {slot : Nat} {op : Nat} {v : W64} {a : BitVec 6} (h : x.await = .bar slot op v a) :
    (x.pass y slot).await = .running ∧ (x.pass y slot).barres = y.rval ∧ (x.pass y slot).bstrag = y.bstrag ∧ (x.pass y slot).bstat = y.bstat slot := by
  unfold Ctx.pass Ctx.setX
  rw [h]
  dsimp only
  rw [if_neg (by simp)]
  split
  · exact ⟨rfl, rfl, rfl, rfl⟩
  · split
    · split
      · exact ⟨rfl, rfl, rfl, rfl⟩
      · exact ⟨rfl, rfl, rfl, rfl⟩
    · exact ⟨rfl, rfl, rfl, rfl⟩

theorem Ctx.pass_running {x : Ctx} {y : Decision} {slot : Nat} (h : x.await = .running) : x.pass y slot = x := by
  unfold Ctx.pass
  rw [h]

theorem Ctx.pass_idle (y : Decision) (slot : Nat) : ({} : Ctx).pass y slot = {} := Ctx.pass_running rfl

theorem Core.retain_ctxs (c : Core) : c.retain.ctxs = c.ctxs := rfl
theorem Core.diag_ctxs (c : Core) (i n : Nat) : (c.diag i n).ctxs = c.ctxs := by unfold Core.diag; with_reducible rfl
theorem Core.emptyChannels_ctxs (c : Core) : c.emptyChannels.ctxs = c.ctxs := by
  unfold Core.emptyChannels
  rw [← Core.diag_ctxs c 3 c.chanCount]

theorem State.commitCore_ctx {s : State} {x : Decision} {c k : Nat} (hk : k < 4) : (s.commitCore x c).ctx c k = (s.ctx c k).pass x 0 := by
  have hpass : (((s.core c).emptyChannels.modGeneral (fun k => k.pass x 0)).ctx k) = ((s.core c).emptyChannels.ctx k).pass x 0 :=
    Core.modGeneral_ctx hk (Ctx.pass_idle x 0)
  unfold State.ctx
  rw [State.commitCore_core]
  unfold Core.ctx at hpass ⊢
  rw [Core.emptyChannels_ctxs] at hpass
  rw [Core.retain_ctxs]
  exact hpass

/-- The teams of a cluster change together. -/
theorem State.modTeams_clusters (s : State) (k : Nat) (f : Team → Team) : (s.modTeams k f).clusters = s.clusters :=
  foldl_leaves (p := State.clusters) (f := fun (s : State) i => s.modTeam (16 * k + i) f) (fun _ _ => rfl) (List.range 16) s

theorem State.modTeams_plat (s : State) (k : Nat) (f : Team → Team) : (s.modTeams k f).plat = s.plat :=
  foldl_leaves (p := State.plat) (f := fun (s : State) i => s.modTeam (16 * k + i) f) (fun _ _ => rfl) (List.range 16) s

theorem State.modTeams_team (s : State) (k : Nat) (f : Team → Team) {i : Nat} (hi : i < 16) :
    (s.modTeams k f).team (16 * k + i) = f (s.team (16 * k + i)) := by
  have hall : ∀ n ≤ 16, ((List.range n).foldl (fun s i => s.modTeam (16 * k + i) f) s).team (16 * k + i) =
      if i < n then f (s.team (16 * k + i)) else s.team (16 * k + i) := by
    intro n hn
    induction n with
    | zero => rfl
    | succ n ih =>
      rw [List.range_succ, List.foldl_append]
      by_cases h : i = n
      · subst h
        simp [ih (by omega)]
      · have hlt : i < n + 1 ↔ i < n := by omega
        simp only [List.foldl_cons, List.foldl_nil, hlt]
        rw [State.modTeam_other _ _ (by omega)]
        exact ih (by omega)
  exact (hall 16 (Nat.le_refl 16)).trans (if_pos hi)

/-- A cluster's log, its deltas and the engines, which the deltas of a commit leave. -/
def State.clusterLog (s : State) (k : Nat) : List (Nat × BitVec 512) × List Delta × Tab Team := ((s.cluster k).logged, (s.cluster k).deltas, s.teams)

theorem State.modCluster_log {s : State} {n k : Nat} {f : Cluster → Cluster} (hf : ∀ x : Cluster, (f x).logged = x.logged ∧ (f x).deltas = x.deltas) :
    (s.modCluster n f).clusterLog k = s.clusterLog k := by
  unfold State.clusterLog
  by_cases h : k = n
  · subst h
    rw [State.modCluster_same, (hf _).1, (hf _).2]
    rfl
  · rw [State.modCluster_other _ _ h]
    rfl

theorem State.applyLocal_log (s : State) (d : Delta) (k : Nat) : (s.applyLocal d).clusterLog k = s.clusterLog k :=
  State.applyLocal_keeps (P := fun t => t.clusterLog k = s.clusterLog k) (fun _ _ h => h) (fun _ _ _ h => h)
    (fun _ _ f g h => (State.modCluster_log (f := fun x => { x with bad := f x, marked := g x }) (fun _ => ⟨rfl, rfl⟩)).trans h)
    (fun _ _ a b h => (State.modCluster_log (f := fun x => x.putPad a b) (fun _ => ⟨rfl, rfl⟩)).trans h) s d rfl

/-- A commit leaves no log and no delta in a cluster, its windows for the next abort, and its engines' buffers empty. -/
theorem State.commitCluster_cluster (s : State) (k : Nat) : ((s.commitCluster k).cluster k).logged = [] ∧ ((s.commitCluster k).cluster k).deltas = [] ∧
    ((s.commitCluster k).cluster k).pending = [] ∧ ((s.commitCluster k).cluster k).reserved = 0 ∧
    ((s.commitCluster k).cluster k).keepWins = ((s.commitCluster k).cluster k).wins := by
  unfold State.commitCluster
  dsimp only
  have hlog := foldl_leaves (p := fun t : State => t.clusterLog k) (fun s d => State.applyLocal_log s d k) (sortDeltas s.deltaLe (s.cluster k).deltas)
    (s.modCluster k (fun x => { x with logged := [], badLog := [], markedLog := [], deltas := [] }))
  generalize (sortDeltas s.deltaLe (s.cluster k).deltas).foldl State.applyLocal _ = t at hlog ⊢
  rw [show (s.modCluster k _).clusterLog k = ([], [], s.teams) by simp [State.clusterLog]] at hlog
  obtain ⟨hl, hd, -⟩ : (t.cluster k).logged = [] ∧ (t.cluster k).deltas = [] ∧ t.teams = s.teams := by simpa [State.clusterLog] using hlog
  rw [show ∀ (u : State) f, (u.modTeams k f).cluster k = u.cluster k from fun u f => by unfold State.cluster; rw [State.modTeams_clusters],
    State.modCluster_same]
  exact ⟨hl, hd, rfl, rfl, rfl⟩

theorem State.commitCluster_team (s : State) (k : Nat) {i : Nat} (hi : i < 16) :
    ∃ mine, (s.commitCluster k).team (16 * k + i) = Team.commit mine (s.team (16 * k + i)) := by
  unfold State.commitCluster
  dsimp only
  rw [State.modTeams_team _ _ _ hi]
  refine ⟨_, congrArg _ ?_⟩
  have hlog := foldl_leaves (p := fun t : State => t.clusterLog k) (fun s d => State.applyLocal_log s d k)
    (sortDeltas s.deltaLe (s.cluster k).deltas) (s.modCluster k (fun x => { x with logged := [], badLog := [], markedLog := [], deltas := [] }))
  rw [State.modCluster_get_team]
  exact congrArg (fun p : List (Nat × BitVec 512) × List Delta × Tab Team => tget p.2.2 (16 * k + i) {}) hlog

/-! ### What the end of a commit leaves -/

/-- What counts a domain's supersteps and attempts. -/
def Domain.counters (m : Domain) : BitVec 48 × BitVec 48 × BitVec 32 × Nat × Nat × Tab Nat := (m.ssn, m.step, m.total, m.consec, m.att, m.pseqs)

/-- A property that no change of a unit touches, other than a change of a domain's counters. -/
structure State.Closed (P : State → Prop) : Prop where
  plat : ∀ (s : State) f, P s → P (s.modPlat f)
  core : ∀ (s : State) c f, P s → P (s.modCore c f)
  team : ∀ (s : State) e f, P s → P (s.modTeam e f)
  cluster : ∀ (s : State) k f, P s → P (s.modCluster k f)
  domain : ∀ (s : State) d f, (∀ m : Domain, (f m).counters = m.counters) → P s → P (s.modDomain d f)
  pend : ∀ (s : State) l, P s → P (s.pend l)

section
variable {P : State → Prop} (hP : State.Closed P)
include hP

theorem State.writeCompletion_keeps (s : State) (v : Nat) (h : P s) : P (s.writeCompletion v) := by
  unfold State.writeCompletion State.hostWrite State.modVf
  dsimp only
  split
  · exact h
  · split
    · exact hP.plat _ _ (hP.plat _ _ h)
    · exact h

theorem State.complete_keeps (s : State) (v : Nat) (e : Completion) (h : P s) : P (s.complete v e) :=
  foldl_keeps (fun s _ hs => State.writeCompletion_keeps hP s v hs) _ (hP.plat _ _ h)

theorem State.endJob_keeps (s : State) (v job : Nat) (h : P s) : P (s.endJob v job) := by
  unfold State.endJob
  split
  · exact hP.domain _ _ _ (fun m => by split <;> rfl) h
  · exact h

theorem State.wakeRecords_keeps (s : State) (v n : Nat) (h : P s) : P (s.wakeRecords v n) := by
  induction n generalizing s with
  | zero => exact h
  | succ n ih =>
    unfold State.wakeRecords State.modRec State.modVf
    dsimp only
    split
    · exact h
    · refine ih _ ?_
      split
      · exact State.endJob_keeps hP _ _ _ (State.complete_keeps hP _ _ _ (hP.plat _ _ h))
      · exact hP.plat _ _ h

theorem State.storeRecord_keeps (s : State) (v : Nat) (r : Rec) (h : P s) : P (s.storeRecord v r) :=
  hP.pend _ _ (State.wakeRecords_keeps hP _ _ _ (hP.plat _ _ (hP.plat _ _ h)))

theorem State.postPushed_keeps (s : State) (v : Nat) (l : List W64) (h : P s) : P (s.postPushed v l) := by
  unfold State.postPushed
  dsimp only
  split
  · exact State.storeRecord_keeps hP _ _ _ h
  · exact State.complete_keeps hP _ _ _ h

theorem State.startLaunched_keeps (s : State) (c : Nat) (pc arg : W64) (h : P s) : P (s.startLaunched c pc arg) :=
  hP.core _ _ _ (hP.pend _ _ (hP.core _ _ _ h))

theorem State.placeGangs_keeps (s : State) (d : Nat) (h : P s) : P (s.placeGangs d) := by
  refine foldl_keeps (fun s g hs => ?_) _ (hP.domain _ _ _ (fun _ => rfl) h)
  split
  · exact foldl_keeps (fun s x hs => foldl_keeps (fun s c hs => hP.core _ _ _ (State.startLaunched_keeps hP _ _ _ _ hs)) _ hs) _ hs
  · exact hP.domain _ _ _ (fun _ => rfl) hs

theorem State.markStale_keeps (s : State) (d k : Nat) (h : P s) : P (s.markStale d k) := by
  refine hP.cluster _ _ _ (foldl_keeps (fun s x hs => hP.pend _ _ (hP.team _ _ _ hs)) _ (foldl_keeps (fun s x hs => ?_) _ h))
  show P (if x.elem.dwin = 0 then s else s.winState k x.elem.dwin 3)
  split
  · exact hs
  · exact hP.cluster _ _ _ hs

/-- What holds once the counters of the domain have gone on holds at the end of the commit. -/
theorem State.finishCommit_keeps {s : State} {d : Nat} {x : Decision} (h : P (s.modDomain d (fun m =>
    { m with step := m.step + x.stepinc, ssn := m.ssn + 1, consec := 0, att := 0, pseqs := [], landed := 0, given := 0, insts := [] }))) :
    P (s.finishCommit d x) :=
  hP.domain _ _ _ (fun _ => rfl) (foldl_keeps (fun _ _ hs => State.markStale_keeps hP _ _ _ hs) _
    (foldl_keeps (fun _ _ hs => State.postPushed_keeps hP _ _ _ hs) _
      (State.placeGangs_keeps hP _ _ (foldl_keeps (fun _ _ hs => hP.core _ _ _ hs) _ h))))
end

/-- The counters of a domain are a property that the steps of its end leave. -/
theorem State.counters_closed (d : Nat) (x : BitVec 48 × BitVec 48 × BitVec 32 × Nat × Nat × Tab Nat) :
    State.Closed (fun t => (t.domain d).counters = x) where
  plat _ _ h := h
  core _ _ _ h := h
  team _ _ _ h := h
  cluster _ _ _ h := h
  domain s n f hf h := by
    by_cases hn : d = n
    · subst hn
      rw [State.modDomain_same, hf]
      exact h
    · rw [State.modDomain_other _ _ hn]
      exact h
  pend _ _ h := h

theorem State.finishCommit_counters (s : State) (d : Nat) (x : Decision) : ((s.finishCommit d x).domain d).counters =
    ((s.domain d).ssn + 1, (s.domain d).step + x.stepinc, (s.domain d).total, 0, 0, []) := by
  refine State.finishCommit_keeps (State.counters_closed d _) ?_
  rw [State.modDomain_same]
  rfl

/-! ### What a commit of a die leaves -/

theorem State.hwriteMask_keeps {P : State → Prop} (hput : ∀ (s : State) a b, P s → P (s.hputb a b)) (s : State) (a n v m : Nat) (h : P s) :
    P (s.hwriteMask a n v m) :=
  foldl_keeps (fun s i hs => by
    show P (if m.testBit i then s.hputb (a + i) (byteOf v i) else s)
    split
    · exact hput _ _ _ hs
    · exact hs) _ h

theorem State.scrubLine_keeps {P : State → Prop} (hput : ∀ (s : State) a b, P s → P (s.hputb a b)) (hplat : ∀ (s : State) f, P s → P (s.modPlat f))
    (s : State) (phys : Nat) (h : P s) : P (s.scrubLine phys) := by
  unfold State.scrubLine
  dsimp only
  split
  · exact h
  · split
    · exact hplat _ _ (State.hwriteMask_keeps hput _ _ _ _ _ h)
    · exact h

theorem State.notePoison_keeps {P : State → Prop} (hplat : ∀ (s : State) f, P s → P (s.modPlat f)) (s : State) (phys n m : Nat) (h : P s) :
    P (s.notePoison phys n m) := by
  unfold State.notePoison
  split
  · exact h
  · exact hplat _ _ h

/-- A delta applied to a page. -/
theorem State.applyPage_keeps {P : State → Prop} (hput : ∀ (s : State) a b, P s → P (s.hputb a b)) (hplat : ∀ (s : State) f, P s → P (s.modPlat f))
    (hcore : ∀ (s : State) c f, P s → P (s.modCore c f)) (hdom : ∀ (s : State) d f, P s → P (s.modDomain d f)) (s : State) (d : Nat) (x : Delta)
    (h : P s) : P (s.applyPage d x) := by
  unfold State.applyPage State.discardDelta
  split
  · split
    · exact hdom _ _ _ (State.applyTo_keeps (fun s i b hs => State.notePoison_keeps hplat _ _ _ _ (hput _ _ _ hs)) hplat hcore _ _ _
        (State.scrubLine_keeps hput hplat _ _ h))
    · exact State.answer_keeps hplat hcore _ _ _ _ h
  · exact h

theorem State.applyPage_die (s : State) (d : Nat) (x : Delta) (k : Nat) : (s.applyPage d x).die k = s.die k :=
  State.applyPage_keeps (P := fun t => t.die k = s.die k) (fun _ _ _ h => h) (fun _ _ h => h) (fun _ _ _ h => h) (fun _ _ _ h => h) s d x rfl

theorem State.commitDie_deltas (s : State) (d k : Nat) {y : Delta} (hy : y ∈ ((s.commitDie d k).die k).deltas) {v : Nat} {a : W64}
    (ht : y.target = .page v a) : v ≠ (s.domain d).vf := by
  unfold State.commitDie at hy
  dsimp only at hy
  rw [show ∀ (u : State) (l : List Delta), (l.foldl (fun s x => s.applyPage d x) u).die k = u.die k from fun u l =>
    foldl_leaves (p := fun t : State => t.die k) (fun s x => State.applyPage_die s d x k) l u, State.modDie_same] at hy
  have hfar := (List.mem_filter.1 hy).2
  rw [ht] at hfar
  simpa using hfar

/-! ### What an abort restores -/

theorem State.abortCore_core (s : State) (x : Option Decision) (c : Nat) : (s.abortCore x c).core c = ((s.settleCommands c).core c).restore x := by
  unfold State.abortCore
  generalize s.settleCommands c = t
  exact State.modCore_same t c (fun co => co.restore x)

/-- The contexts of a core that an abort restores are those of its image, with the decision noted. -/
theorem Core.restore_ctx (c : Core) (x : Decision) {k : Nat} (hk : k < 5) :
    (c.restore (some x)).ctx k = Ctx.restored (c.ctx k) (tget c.keep.ctxs k {}) (some x) ∨
    (c.restore (some x)).ctx k = {} ∧ tget c.keep.ctxs k ({} : Ctx) = {} := by
  have hfind := tfind_filterMap (l := List.range 5) (k := k) (g := fun i => if (tfind c.keep.ctxs i).isNone && (tfind c.ctxs i).isNone then none
      else some (i, Ctx.restored (tget c.ctxs i {}) (tget c.keep.ctxs i {}) (some x)))
    (h := fun i => if (tfind c.keep.ctxs i).isNone && (tfind c.ctxs i).isNone then none
      else some (Ctx.restored (tget c.ctxs i {}) (tget c.keep.ctxs i {}) (some x))) (fun i => by split <;> rfl) (List.mem_range.2 hk)
  have hctx : (c.restore (some x)).ctx k = (if (tfind c.keep.ctxs k).isNone && (tfind c.ctxs k).isNone then none
      else some (Ctx.restored (tget c.ctxs k {}) (tget c.keep.ctxs k {}) (some x))).getD {} := congrArg (fun o => Option.getD o ({} : Ctx)) hfind
  rw [hctx]
  split
  next h =>
    have hnone : tfind c.keep.ctxs k = none := Option.isNone_iff_eq_none.1 (Bool.and_eq_true_iff.1 h).1
    exact .inr ⟨rfl, by simp [tget, hnone]⟩
  next => exact .inl rfl

/-- A line put back into a table: its 64 bytes. -/
def lineBack (t : Bytes) (l : Nat × BitVec 512) : Bytes :=
  (List.range 64).foldl (fun t i => tset t (64 * l.1 + i) (byteOf l.2.toNat i) 0) t

theorem lineBack_sorted {t : Bytes} (l : Nat × BitVec 512) (h : tsorted t = true) : tsorted (lineBack t l) = true :=
  foldl_keeps (P := fun t : Bytes => tsorted t = true) (fun _ _ hs => tsorted_tset _ _ _ hs) _ h

theorem lineBack_other (t : Bytes) (l : Nat × BitVec 512) {m : Nat} (h : m / 64 ≠ l.1) : tget (lineBack t l) m 0 = tget t m 0 :=
  tget_foldl_tset_ne _ _ _ _ _ (fun j hj => by have := List.mem_range.1 hj; omega)

theorem lineBack_byte {t : Bytes} (l : Nat × BitVec 512) {i : Nat} (hi : i < 64) (h : tsorted t = true) :
    tget (lineBack t l) (64 * l.1 + i) 0 = byteOf l.2.toNat i := by
  have hall : ∀ n, tsorted ((List.range n).foldl (fun t i => tset t (64 * l.1 + i) (byteOf l.2.toNat i) 0) t) = true ∧
      (i < n → tget ((List.range n).foldl (fun t i => tset t (64 * l.1 + i) (byteOf l.2.toNat i) 0) t) (64 * l.1 + i) 0 = byteOf l.2.toNat i) := by
    intro n
    induction n with
    | zero => exact ⟨h, fun hn => absurd hn (Nat.not_lt_zero i)⟩
    | succ n ih =>
      simp only [List.range_succ, List.foldl_append, List.foldl_cons, List.foldl_nil]
      refine ⟨tsorted_tset _ _ _ ih.1, fun hn => ?_⟩
      by_cases hin : i = n
      · subst hin
        exact tget_tset_self _ _ _ ih.1
      · rw [tget_tset_ne _ _ _ _ (by omega)]
        exact ih.2 (by omega)
  exact (hall 64).2 hi

theorem foldl_lineBack_other {u : List (Nat × BitVec 512)} (t : Bytes) {m : Nat} (h : m / 64 ∉ u.map (fun l => l.1)) :
    tget (u.foldl lineBack t) m 0 = tget t m 0 := by
  induction u generalizing t with
  | nil => rfl
  | cons a r ih =>
    rw [List.map_cons, List.mem_cons, not_or] at h
    exact (ih _ h.2).trans (lineBack_other t a h.1)

/-- Lines of different numbers put back: each line has its bytes. -/
theorem foldl_lineBack {u : List (Nat × BitVec 512)} {t : Bytes} (h : tsorted t = true) (hu : (u.map (fun l => l.1)).Nodup) {l : Nat × BitVec 512}
    (hl : l ∈ u) {i : Nat} (hi : i < 64) : tget (u.foldl lineBack t) (64 * l.1 + i) 0 = byteOf l.2.toNat i := by
  induction u generalizing t with
  | nil => exact absurd hl List.not_mem_nil
  | cons a r ih =>
    obtain ⟨ha, hr⟩ := List.nodup_cons.1 hu
    rcases List.mem_cons.1 hl with rfl | hlr
    · exact (foldl_lineBack_other (lineBack t l) (u := r) (by rw [show (64 * l.1 + i) / 64 = l.1 by omega]; exact ha)).trans (lineBack_byte l hi h)
    · exact ih (lineBack_sorted a h) hr hlr

theorem Core.undoAll_tcm (c : Core) : c.undoAll.tcm = c.undo.foldl lineBack c.tcm := by
  have hline (l : Nat × BitVec 512) (n : List Nat) (c : Core) :
      (n.foldl (fun c i => { c with tcm := tset c.tcm (64 * l.1 + i) (byteOf l.2.toNat i) 0 }) c).tcm =
        n.foldl (fun t i => tset t (64 * l.1 + i) (byteOf l.2.toNat i) 0) c.tcm := by
    induction n generalizing c with
    | nil => rfl
    | cons i r ih => exact ih _
  have hlines (u : List (Nat × BitVec 512)) (c : Core) :
      (u.foldl (fun c l => (List.range 64).foldl (fun c i => { c with tcm := tset c.tcm (64 * l.1 + i) (byteOf l.2.toNat i) 0 }) c) c).tcm =
        u.foldl lineBack c.tcm := by
    induction u generalizing c with
    | nil => rfl
    | cons l r ih => exact (ih _).trans (congrArg (r.foldl lineBack) (hline l _ c))
  exact hlines c.undo { c with bad := badBack c.bad c.badLog c.undo, marked := markBack c.marked c.markedLog c.undo }

theorem Core.diag_tcm (c : Core) (i n : Nat) : (c.diag i n).tcm = c.tcm := by unfold Core.diag; with_reducible rfl
theorem Core.emptyChannels_tcm (c : Core) : c.emptyChannels.tcm = c.tcm := by
  unfold Core.emptyChannels
  rw [← Core.diag_tcm c 3 c.chanCount]

theorem Core.restore_tcm (c : Core) (x : Option Decision) : (c.restore x).tcm = c.undo.foldl lineBack c.tcm := by
  rw [← c.undoAll_tcm, ← Core.emptyChannels_tcm c.undoAll]
  unfold Core.restore Core.newAttempt
  with_reducible rfl

/-- An abort leaves no log, delta or pending WINSET in a cluster, and its engines' buffers and tiles empty. -/
theorem State.abortCluster_cluster (s : State) (k : Nat) : ((s.abortCluster k).cluster k).logged = [] ∧ ((s.abortCluster k).cluster k).deltas = [] ∧
    ((s.abortCluster k).cluster k).pending = [] ∧ ((s.abortCluster k).cluster k).reserved = 0 := by
  unfold State.abortCluster
  dsimp only
  rw [State.pend_get_cluster, show ∀ (u : State) f, (u.modTeams k f).cluster k = u.cluster k from
    fun u f => by unfold State.cluster; rw [State.modTeams_clusters], State.modCluster_same]
  exact ⟨rfl, rfl, rfl, rfl⟩

theorem State.abortCluster_team (s : State) (k : Nat) {i : Nat} (hi : i < 16) :
    ∃ mine, (s.abortCluster k).team (16 * k + i) = Team.abort mine (s.team (16 * k + i)) := by
  unfold State.abortCluster
  dsimp only
  rw [State.pend_get_team, State.modTeams_team _ _ _ hi, State.modCluster_get_team]
  exact ⟨_, rfl⟩

/-- An abort discards the shadow pages and the deltas of the domain's tenant on a die. -/
theorem State.abortDie_deltas (s : State) (d k : Nat) {y : Delta} (hy : y ∈ ((s.abortDie d k).die k).deltas) {v : Nat} {a : W64}
    (ht : y.target = .page v a) : v ≠ (s.domain d).vf := by
  unfold State.abortDie at hy
  rw [State.modDie_same] at hy
  have hfar := (List.mem_filter.1 hy).2
  rw [ht] at hfar
  simpa using hfar

theorem State.abortDie_shadows (s : State) (d k : Nat) :
    (s.abortDie d k).plat.shadows = s.plat.shadows.filter (fun x => !(s.shadowsOf (s.domain d).vf k).contains x) := by
  unfold State.abortDie
  exact congrArg (List.filter _) (foldl_leaves (p := fun t : State => t.plat.shadows) (f := fun (s : State) (x : ShadowPage) => s.dropFrame x.frame)
    (fun _ _ => rfl) _ s)

/-! ### The end of an abort -/

section
variable {P : State → Prop} (hplat : ∀ (s : State) f, P s → P (s.modPlat f)) (hsched : ∀ (s : State) x, P s → P { s with sched := x })
  (hdie : ∀ (s : State) k f, P s → P (s.modDie k f)) (hsize : ∀ (s : State) d a b, P s → P (s.modDomain d (fun m => { m with size := a, base := b })))
include hplat

theorem State.sendPosts_keeps (s : State) (o : Coll) (l : List W64) (h : P s) : P (s.sendPosts o l) :=
  foldl_keeps (fun _ _ hs => foldl_keeps (fun _ _ hs => State.sendOut_keeps hplat _ _ hs) _ hs) _ h

include hsched

theorem State.triggerReset_keeps (s : State) (g : Nat) (a : W64) (h : P s) : P (s.triggerReset g a) := by
  unfold State.triggerReset
  split
  · exact hsched _ _ h
  · exact hsched _ _ (hplat _ _ h)

include hdie hsize

theorem State.shrink_keeps (s : State) (d : Nat) (h : P s) : P (s.shrink d) :=
  hsched _ _ (foldl_keeps (fun _ _ hs => State.sendPosts_keeps hplat _ _ _ hs) _ (foldl_keeps (fun _ _ hs => hdie _ _ _ hs) _ (hsize _ _ _ _ h)))
end

/-- What the end of an abort counts and empties. -/
def Domain.aborted (m : Domain) : BitVec 32 × BitVec 48 × BitVec 48 × List (Nat × List W64) × List Gang × Nat :=
  (m.total, m.ssn, m.step, m.pushes, m.gangs, m.att)

theorem State.modDomain_keeps {α : Type} {p : Domain → α} {s : State} {d n : Nat} {f : Domain → Domain} (hf : ∀ m, p (f m) = p m) {x : α} (h : p (s.domain d) = x) :
    p ((s.modDomain n f).domain d) = x := by
  by_cases hn : d = n
  · subst hn
    rw [State.modDomain_same, hf, h]
  · rw [State.modDomain_other _ _ hn, h]

/-- The steps after the count of an abort leave what it has counted, other than CONSEC, which an escalation may restart. -/
theorem State.finishAbort_keeps {α : Type} {p : Domain → α} (hp : ∀ m a b, p { m with size := a, base := b } = p m)
    (hend : ∀ m a, p { m with ending := a } = p m) {s : State} {d : Nat} {x : Decision} (hcon : x.acause ≠ 9 → x.esc = true → ∀ m, p { m with consec := 0 } = p m) :
    p ((s.finishAbort d x).domain d) = p { (s.domain d) with
      total := (s.domain d).total + 1
      consec := if x.acause = 9 then (s.domain d).consec else ((s.domain d).consec + 1) % 256
      att := if x.acause = 9 then (s.domain d).att else ((s.domain d).att + 1) % 256
      landed := 0, given := 0, insts := [], pseqs := [], gangs := [], pushes := [], changed := [], decision := none, done := [] } := by
  unfold State.finishAbort
  extract_lets m s1 s2 ends
  have h1 := congrArg p (State.modDomain_same s d (fun m =>
    { m with total := m.total + 1, consec := if x.acause = 9 then m.consec else (m.consec + 1) % 256,
             att := if x.acause = 9 then m.att else (m.att + 1) % 256, landed := 0, given := 0, insts := [], pseqs := [], gangs := [], pushes := [],
             changed := [], decision := none, done := [] }))
  have h2 : p (s2.domain d) = p (s1.domain d) := by
    show p ((if x.acause = 9 then s1.shrink d else s1).domain d) = _
    split
    · exact State.shrink_keeps (P := fun t => p (t.domain d) = p (s1.domain d)) (fun _ _ h => h) (fun _ _ h => h) (fun _ _ _ h => h)
        (fun _ _ a b h => State.modDomain_keeps (fun m => hp m a b) h) s1 d rfl
    · rfl
  have hends (st : Nat) : p ((ends st).domain d) = p (s1.domain d) := State.modDomain_keeps (fun m => hend m _) h2
  refine Eq.trans ?_ h1
  split
  · exact hends 1
  · split
    next hesc =>
      split
      · exact State.modDomain_keeps (hcon (by omega) hesc.2) h2
      · exact hends _
      · exact State.triggerReset_keeps (P := fun t => p (t.domain d) = p (s1.domain d)) (fun _ _ h => h) (fun _ _ h => h) s2 _ _ h2
    next => exact h2

/-! ### The steps -/

theorem not_done_party {s : State} {d : Nat} {w : Party} {p : Prop} (hp : ¬p) (hdone : (s.domain d).done.contains w = false)
    (hparty : (s.domain d).parties.contains w = true) : ¬(p ∨ (s.domain d).done.contains w = true ∨ (!(s.domain d).parties.contains w) = true) := by
  rw [hdone, hparty]
  rintro (h | h | h)
  · exact hp h
  · exact Bool.noConfusion h
  · exact Bool.noConfusion h

theorem all_cores_done {m : Domain} (h : ∀ c ∈ m.members, .core c ∈ m.done) : m.members.all (fun c => m.done.contains (.core c)) = true :=
  List.all_eq_true.2 (fun c hc => List.contains_iff_mem.2 (h c hc))

/-- Settles O55: each decision step occurs when its condition holds, and a commit and an abort leave what R43 and R42 say. -/
theorem barrierDecisionStepsRun : Obligations.BarrierDecisionStepsRun := by
  unfold Obligations.BarrierDecisionStepsRun
  refine ⟨?_, ?_, ?_, ?_, ?_, ?_, ?_, ?_, ?_, ?_, ?_, ?_⟩
  · intro d s x m hx
    refine ⟨fun hdec => ⟨?_, ?_, ?_⟩, fun hdec => ⟨?_, ?_, ?_⟩, ?_⟩
    · intro c hdone hparty hphase
      refine event_occurs ?_
      unfold State.decideCommit
      dsimp only
      rw [show (s.domain d).decision = some x from hx]
      dsimp only
      rw [if_neg (not_done_party hdec hdone hparty)]
      exact if_neg (not_not_intro hphase)
    · intro k hdone hparty
      refine event_occurs ?_
      unfold State.decideCommit
      dsimp only
      rw [show (s.domain d).decision = some x from hx]
      exact if_neg (not_done_party hdec hdone hparty)
    · intro k hdone hparty hwaits
      refine event_occurs ?_
      unfold State.decideCommit
      dsimp only
      rw [show (s.domain d).decision = some x from hx]
      dsimp only
      rw [if_neg (not_done_party hdec hdone hparty)]
      exact if_pos (by rw [show s.deltaWaits k _ = [] from hwaits]; rfl)
    · intro c hdone hparty htakes
      refine event_occurs ?_
      unfold State.decideAbort
      dsimp only
      rw [show (s.domain d).decision = some x from hx]
      dsimp only
      rw [if_neg (not_done_party (not_not_intro hdec) hdone hparty)]
      exact if_pos htakes
    · intro k hdone hparty hcores
      refine event_occurs ?_
      unfold State.decideAbort
      dsimp only
      rw [show (s.domain d).decision = some x from hx]
      dsimp only
      rw [if_neg (not_done_party (not_not_intro hdec) hdone hparty)]
      exact if_pos (all_cores_done hcores)
    · intro k hdone hparty hcores
      refine event_occurs ?_
      unfold State.decideAbort
      dsimp only
      rw [show (s.domain d).decision = some x from hx]
      dsimp only
      rw [if_neg (not_done_party (not_not_intro hdec) hdone hparty)]
      exact if_pos (all_cores_done hcores)
    · intro t hdone hdevices
      refine event_occurs ?_
      unfold State.donePennant
      dsimp only
      rw [show (s.domain d).decision = some x from hx]
      dsimp only
      rw [if_neg (by rw [hdevices, List.all_eq_true.2 (fun p hp => List.contains_iff_mem.2 (hdone p hp))]; simp)]
      have hlast : (t.domain d).last = { decision := x, ssn := m.ssn, att := m.att % 256 } := congrArg Domain.last (State.modDomain_same _ d _)
      change (match s.parentDev d with
        | some up => some (t.sendDone d up)
        | none => some (t.resumes d x)) = some _
      clear_value t
      cases s.parentDev d with
      | none => rfl
      | some up =>
        dsimp only
        unfold State.sendDone State.donePennantOf
        dsimp only
        rw [hlast]
  · intro c x s t
    have ht : t = _ := State.commitCore_core s x c
    refine ⟨by rw [ht]; rfl, by rw [ht]; rfl, by rw [ht]; rfl, by rw [ht]; rfl, by rw [ht]; rfl, ?_⟩
    intro k op v a hk hbar
    dsimp only
    rw [State.commitCore_ctx hk]
    exact Ctx.pass_bar hbar
  · intro k s t y
    obtain ⟨hlog, hdeltas, hpending, hreserved, hkeep⟩ := s.commitCluster_cluster k
    refine ⟨hlog, hdeltas, hpending, hreserved, hkeep, fun i hi => ?_⟩
    obtain ⟨mine, hteam⟩ := s.commitCluster_team k hi
    rw [show t.team (16 * k + i) = _ from hteam]
    exact ⟨rfl, rfl, rfl⟩
  · intro d k s y hy v a ht
    exact s.commitDie_deltas d k hy ht
  · intro d x s m n
    have hn : n.counters = _ := s.finishCommit_counters d x
    simp only [Domain.counters, Prod.mk.injEq] at hn
    obtain ⟨hssn, hstep, htotal, hconsec, hatt, hpseqs⟩ := hn
    exact ⟨hssn, hstep, hconsec, hatt, hpseqs, htotal⟩
  · intro c x s
    exact s.abortCore_core _ c
  · intro c x t z
    refine ⟨rfl, rfl, rfl, rfl, rfl, rfl, rfl, rfl, rfl, rfl, rfl, rfl, ?_, ?_⟩
    · intro k hk
      rcases c.restore_ctx x hk with h | ⟨h, hz⟩
      · rw [show t.ctx k = _ from h]
        exact ⟨rfl, rfl, rfl, rfl, rfl, rfl, rfl, rfl, rfl, rfl, rfl, rfl, rfl, rfl, rfl, rfl, rfl, rfl, rfl⟩
      · rw [show t.ctx k = _ from h, show z k = _ from hz]
        exact ⟨rfl, rfl, rfl, rfl, rfl, rfl, rfl, rfl, rfl, rfl, rfl, rfl, rfl, rfl, rfl, rfl, rfl, rfl, rfl⟩
    · intro hsorted hu l hl i hi
      rw [show t.tcm = _ from c.restore_tcm (some x)]
      exact foldl_lineBack hsorted hu hl hi
  · intro k s t y
    obtain ⟨hlog, hdeltas, hpending, hreserved⟩ := s.abortCluster_cluster k
    refine ⟨hlog, hdeltas, hpending, hreserved, fun i hi => ?_⟩
    obtain ⟨mine, hteam⟩ := s.abortCluster_team k hi
    rw [show t.team (16 * k + i) = _ from hteam]
    exact ⟨rfl, rfl, rfl⟩
  · intro d k s t
    refine ⟨fun y hy v a ht => s.abortDie_deltas d k hy ht, fun y => ?_⟩
    rw [show t.plat.shadows = _ from s.abortDie_shadows d k, List.mem_filter]
    simp
  · intro d x s m n
    have hn : (n.total, n.ssn, n.step, n.pushes, n.gangs, n.att) = _ := s.finishAbort_keeps
      (p := fun m => (m.total, m.ssn, m.step, m.pushes, m.gangs, m.att)) (fun _ _ _ => rfl) (fun _ _ => rfl) (fun _ _ _ => rfl)
    simp only [Prod.mk.injEq] at hn
    obtain ⟨htotal, hssn, hstep, hpushes, hgangs, hatt⟩ := hn
    refine ⟨htotal, hssn, hstep, hpushes, hgangs, fun h9 => ⟨hatt.trans (if_pos h9), ?_⟩, fun h9 => ⟨hatt.trans (if_neg h9), fun hesc => ?_⟩⟩
    · exact (s.finishAbort_keeps (p := Domain.consec) (fun _ _ _ => rfl) (fun _ _ => rfl) (fun h => absurd h9 h)).trans (if_pos h9)
    · exact (s.finishAbort_keeps (p := Domain.consec) (fun _ _ _ => rfl) (fun _ _ => rfl)
        (fun _ h => absurd (h.symm.trans hesc) Bool.noConfusion)).trans (if_neg h9)
  · intro c d s m t hd hl hdec hheld hphase
    refine event_occurs ?_
    unfold State.resume
    rw [hd, State.domOf_live hd hl]
    dsimp only
    rw [if_neg (by rcases hphase with h | h <;> simp [show (s.domain d).decision = none from hdec, show (s.domain d).held = false from hheld, h])]
    rw [apply_ite some, apply_ite some]
  · intro c slot d s x y z t hd hl hphase hslot hx hy
    refine event_occurs ?_
    unfold State.decideProceed
    rw [hd, State.domOf_live hd hl]
    dsimp only
    rw [hx]
    dsimp only
    rw [if_neg (by simp [hphase, hslot]), show x.decision.getD {} = y by rw [hy]; rfl]

end Sys2Proof.Machine

namespace Sys2Proof.Machine
/-!
SUPPORT. Launch windows, the paddock tree and the host's registers (20 R354, R358-R363, R365).
-/

open Sys2Proof

/-- An event of the host leaves the state that its function gives. -/
theorem next_of_eq {t u : State} (h : t = u) : (.next t.quiet : Host.Outcome State Fault Refusal) = .next u.quiet := by rw [h]

theorem State.lwpost_eq {s : State} {v : Nat} {x : W64} (hn : (s.vf v).node ≠ 0) (hx : bf x 8 56 = 0) {r : Rec}
    (hr : recOf v ((List.range 16).map (fun i => w64 (gather (fun a => tget (s.vf v).slots a 0) (128 * bf x 0 8 + 8 * i) 8))) false = r) :
    s.lwpost v x = if s.recCheck v r = 0 then (s.storeRecord v r).posted v 0 else s.posted v (s.recCheck v r) := by
  unfold State.lwpost
  rw [if_neg hn]
  dsimp only
  rw [hr, show (if bf x 8 56 ≠ 0 then 7 else s.recCheck v r) = s.recCheck v r from if_neg (not_not_intro hx)]

/-- A cancel of a launch that runs notes it in the domain, one of a launch that has not begun ends its record. -/
theorem State.lwcancel_running {s : State} {v d : Nat} {x : W64} {r : Rec} (hn : (s.vf v).node ≠ 0) (he : (s.vf v).exported = none)
    (hr : (s.vf v).unretired (bf x 0 16) = some r) (hstate : r.state = .running) (hd : r.domain = some d) :
    s.lwcancel v x = s.modDomain d (fun m => { m with cancel := true }) := by
  unfold State.lwcancel
  dsimp only
  rw [if_neg (by simp [hn, he]), hr]
  dsimp only
  rw [hstate, hd]

theorem State.lwcancel_waiting {s : State} {v : Nat} {x : W64} {r : Rec} (hn : (s.vf v).node ≠ 0) (he : (s.vf v).exported = none)
    (hr : (s.vf v).unretired (bf x 0 16) = some r) (hstate : r.state = .ready ∨ r.state = .waiting) (hd : r.domain = none) :
    s.lwcancel v x = (s.endRecord v r.order 4 0 0 0).pend [.launchSelect (s.vf v).node] := by
  unfold State.lwcancel
  dsimp only
  rw [if_neg (by simp [hn, he]), hr]
  dsimp only
  rw [hd]
  rcases hstate with h | h <;> rw [h]

section
variable {s : State} {n v : Nat} {r : Rec} (hstate : (s.node n).state = .active) (hrun : (s.node n).running = none) (hbusy : s.nodeBusy n = false)
  (hwarm : s.plat.warm = false) (hbest : s.bestOf (s.candidates n) = some (v, r)) {p : Rec}
  (hp : ((s.vf v).replayFor r (s.vf v).records.length).getD r = p)
include hstate hrun hbusy hwarm hbest hp

/-- A selected launch one of whose cores is absent ends; another goes to the gate. -/
theorem State.launchSelect_absent {d : Nat} (hd : p.domain = some d) (habsent : (s.domain d).members.any s.coreAbsent = true) :
    s.launchSelect n = some (s.endLaunch d 2 15) := by
  have hf : p.domain.filter (fun d => (s.domain d).members.any s.coreAbsent) = some d := by simp only [hd, Option.filter, habsent, if_true]
  unfold State.launchSelect
  rw [if_neg (by simp [hstate, hrun, hbusy, hwarm]), hbest]
  dsimp only
  rw [hp, hf]

theorem State.launchSelect_gates (hpresent : ∀ d, p.domain = some d → (s.domain d).members.any s.coreAbsent = false) {t : State}
    (ht : s.modRec v p.order (fun q => { q with state := .gating, replay := q.replay || p.order != r.order, sel := s.effective r }) = t) :
    s.launchSelect n = some ((t.makeRoom n (t.wsetChores v).length (t.wsetChores v).length).pend (t.wsetChores v ++ [.gatePass n])) := by
  have hf : p.domain.filter (fun d => (s.domain d).members.any s.coreAbsent) = none := by
    cases hd : p.domain with
    | none => rfl
    | some d => simp only [Option.filter, hpresent d hd, Bool.false_eq_true, if_false]
  unfold State.launchSelect
  rw [if_neg (by simp [hstate, hrun, hbusy, hwarm]), hbest]
  dsimp only
  rw [hp, hf, ht]
end

theorem State.vfBind_binds {s : State} {v : Nat} {x : W64} (hv : 0 < v) (hmax : v ≤ Config.vfs) (h7 : bit x 7 = false) (hres : bf x 11 53 = 0)
    (hn : bf x 0 7 ≠ (s.vf v).node) (hlocked : (s.vf v).locked = false) (hrec : (s.vf v).records = []) (hnode : (s.vf v).node = 0)
    (hstate : (s.node (bf x 0 7)).state = .idle ∨ (s.node (bf x 0 7)).state = .active) :
    s.vfBind v x = (s.bind v (bf x 0 7)).modVf v (fun t => { t with bindResult := 0 }) := by
  unfold State.vfBind
  dsimp only
  rw [if_neg (by omega), if_neg (by simp [h7, hres]), if_neg hn, if_neg (by simp [hlocked]), if_neg (by simp [hrec]),
    if_neg (by rcases hstate with h | h <;> simp [h]), if_pos hnode, if_neg (show ¬bf x 0 7 = 0 by omega)]

theorem State.vfBind_unbinds {s : State} {v : Nat} {x : W64} (hv : 0 < v) (hmax : v ≤ Config.vfs) (h7 : bit x 7 = false) (hres : bf x 11 53 = 0)
    (hn : bf x 0 7 ≠ (s.vf v).node) (hlocked : (s.vf v).locked = false) (hrec : (s.vf v).records = []) (hzero : bf x 0 7 = 0) :
    s.vfBind v x = ((s.unbind v).afterUnbind (s.vf v).node).modVf v (fun t => { t with bindResult := 0 }) := by
  unfold State.vfBind
  dsimp only
  rw [if_neg (by omega), if_neg (by simp [h7, hres]), if_neg hn, if_neg (by simp [hlocked]), if_neg (by simp [hrec]), if_neg (fun h => h.1 hzero),
    if_neg (show ¬(s.vf v).node = 0 by omega), if_pos hzero]

/-- The paddock's configuration fields are written when their checks hold. -/
theorem State.paddockConfigWrite_fields (s : State) (n : Nat) (x : W64) :
    (bf x 48 16 = 0 → s.nodeLocked n = false →
      s.paddockConfigWrite n 0x10 x = (s.modNode n (fun y => { y with ppol := x.setWidth 48 })).nodeResult n 0) ∧
    (bf x 5 3 = 0 → bf x 40 24 = 0 → bf x 0 4 ≠ 0 → (s.nodeLocked n = true → bit x 4 = false) →
      s.paddockConfigWrite n 0x18 x = (s.modNode n (fun y => { y with pcfg := x })).nodeResult n 0) ∧
    (bit x 15 = false → bit x 31 = false → bf x 47 17 = 0 → bf x 16 15 ≤ bf x 32 15 → bf x 32 15 ≤ bf x 0 15 →
      s.paddockConfigWrite n 0x20 x = (s.modNode n (fun y => { y with pmem := x })).nodeResult n 0) ∧
    ((s.node n).state ≠ .active →
      s.paddockConfigWrite n 0x30 x = (s.modNode n (fun y => { y with ppool := BitVec.ofNat 16 (bf x 0 16) })).nodeResult n 0) := by
  refine ⟨fun hx hl => ?_, fun h5 h40 h0 hl => ?_, fun h15 h31 h47 hlow hhigh => ?_, fun hs => ?_⟩ <;> unfold State.paddockConfigWrite
  · rw [if_pos rfl, if_neg (not_not_intro hx), if_neg (by simp [hl])]
  · rw [if_neg (by decide), if_pos rfl, if_neg (by simp [h5, h40, h0]), if_neg (fun h => Bool.false_ne_true ((hl h.1).symm.trans h.2))]
  · rw [if_neg (by decide), if_neg (by decide), if_pos rfl, if_neg (by simp [h15, h31, h47]; omega)]
  · rw [if_neg (by decide), if_neg (by decide), if_neg (by decide), if_pos rfl, if_neg hs]

/-- A function that is not bound, or that a warm reset holds, reads as 0. -/
theorem State.registerRead_unbound {s : State} {v : Nat} (off : Nat) (hv : 0 < v) (h : (s.vf v).node = 0 ∨ s.plat.warm = true) :
    s.registerRead v off = 0 := by
  unfold State.registerRead State.readVf
  rw [if_neg (by omega)]
  split
  · rfl
  · exact if_pos (by grind)

/-- A bound function's register window. -/
theorem State.registerRead_bound {s : State} {v : Nat} (hv : 0 < v) (hmax : v ≤ Config.vfs) : s.registerRead v = s.readVf v := by
  funext off
  unfold State.registerRead
  rw [if_neg (by omega), if_neg (by omega)]

/-- Settles O56: each launch and paddock step has its effect, and a register reads as it was written or as zero (log entry 61). -/
theorem launchAndPaddockStepsRun : Obligations.LaunchAndPaddockStepsRun := by
  unfold Obligations.LaunchAndPaddockStepsRun
  refine ⟨?_, ?_, ?_, ?_, ?_, ?_, ?_, ?_, ?_, ?_, ?_, ?_, ?_, ?_, ?_⟩
  · intro v x s r hn hx
    exact next_of_eq (State.lwpost_eq hn hx rfl)
  · intro v x s r hn he hr
    exact ⟨fun d hstate hd => next_of_eq (State.lwcancel_running hn he hr hstate hd),
      fun hstate hd => next_of_eq (State.lwcancel_waiting hn he hr hstate hd)⟩
  · intro v x s t gone hn
    exact next_of_eq (if_neg hn)
  · intro n s v r hstate hrun hbusy hwarm hbest p
    exact ⟨fun d hd habsent => event_occurs (State.launchSelect_absent hstate hrun hbusy hwarm hbest rfl hd habsent),
      fun hpresent => event_occurs (State.launchSelect_gates hstate hrun hbusy hwarm hbest rfl hpresent rfl)⟩
  · intro n s t v r hgating hwarm hopen ht
    refine event_occurs (congrArg Except.toOption (?_ : s.passGate n = .ok _))
    unfold State.passGate
    rw [hgating]
    dsimp only
    rw [if_neg (by simp [hwarm]), if_neg (by simp [hopen]), ht]
    rfl
  · intro n s hrun hfree hdrop
    refine event_occurs (if_neg ?_)
    simp [hrun, hdrop, Nat.not_le.2 hfree]
  · intro n s child h0 hmax hstate
    refine next_of_eq ?_
    unfold State.split
    rw [if_neg (by omega), if_neg (not_not_intro hstate)]
  · intro n s child h0 hstate hleft hright hl hr
    refine next_of_eq ?_
    unfold State.merge
    dsimp only
    rw [if_neg (by omega), if_neg (by simp [hstate, hleft, hright]), if_neg (by simp [hl, hr])]
  · intro n s h0 hstate hlocked
    refine next_of_eq ?_
    unfold State.release
    rw [if_neg (by omega), if_neg (by simp [hlocked]), if_neg (not_not_intro hstate)]
  · intro n x s
    obtain ⟨hpol, hcfg, hmem, hpool⟩ := s.paddockConfigWrite_fields n x
    exact ⟨fun h1 h2 => next_of_eq (hpol h1 h2),
      fun h1 h2 h3 h4 => next_of_eq (hcfg h1 h2 h3 h4),
      fun h1 h2 h3 h4 h5 => next_of_eq (hmem h1 h2 h3 h4 h5),
      fun h => next_of_eq (hpool h)⟩
  · intro v x s n hv hmax h7 hres hn hlocked hrec
    exact ⟨fun hnode hstate =>
        next_of_eq (State.vfBind_binds hv hmax h7 hres hn hlocked hrec hnode hstate),
      fun hzero => next_of_eq (State.vfBind_unbinds hv hmax h7 hres hn hlocked hrec hzero)⟩
  · intro v off x s hmax
    refine event_occurs ?_
    unfold State.registerWrite
    rw [apply_ite some, if_neg (show ¬Config.vfs < v by omega)]
  · intro v off s hv h
    exact State.registerRead_unbound off hv h
  · intro v s hv hmax hn hwarm hsafe
    rw [State.registerRead_bound hv hmax]
    unfold State.readVf
    refine ⟨?_, ?_, ?_, fun off hoff => ?_⟩
    · simp [hn, hwarm, hsafe]
    · simp
    · simp
    · dsimp only
      rw [if_neg (show ¬off < 0x8000 by omega), if_neg (show ¬off = 0x100008 by omega), if_neg (show ¬off = 0x100010 by omega),
        if_neg (show ¬off = 0x100018 by omega), if_neg (show ¬off = 0x100020 by omega), if_neg (show ¬off = 0x100028 by omega),
        if_neg (show ¬off = 0x100038 by omega), ite_self]
  · intro x s hsafe hx
    have hw : s.writePf 0x10 x = s.setPf 0x10 x := by
      unfold State.writePf State.writeRw
      rw [if_neg (by decide), if_pos rfl, if_pos hx]
    rw [hw]
    exact State.setPf_same s 0x10 x

end Sys2Proof.Machine

namespace Sys2Proof.Machine
/-!
SUPPORT. Yield, migration, the warm reset and start (22 R378-R389).
-/

open Sys2Proof

theorem State.exportTenant_eq {s : State} (h0 : 0 < s.mgVf) (hmax : s.mgVf ≤ Config.vfs) (hn : (s.vf s.mgVf).node ≠ 0) (hl : (s.vf s.mgVf).locked = false)
    (hb : (s.vf s.mgVf).records.any Rec.busy = false) (he : (s.vf s.mgVf).exported = none) {k : Nat → W64} (hk : ∀ i, Config.freshKey (s.plat.draws + i) = k i) :
    s.exportTenant = ((((((s.modPlat (fun p => { p with draws := p.draws + 4 })).modVf s.mgVf (fun t =>
      { t with exported := some { dev := s.mgDev, ticket := [k 0, k 1, k 2, k 3] } })).setPf 0x200020 (k 0)).setPf 0x200028 (k 1)).setPf
        0x200030 (k 2)).setPf 0x200038 (k 3)).mgDone 0 := by
  unfold State.exportTenant
  dsimp only
  rw [if_neg (by omega), if_neg (by simp [hl]), if_neg (by simp [hb]), if_neg (by simp [he]), show (fun i => Config.freshKey (s.plat.draws + i)) = k from funext hk]
  rfl

theorem State.importTenant_eq {s t : State} {x : Emigrant} (h0 : 0 < s.mgVf) (hmax : s.mgVf ≤ Config.vfs) (hl : (s.vf s.mgVf).locked = false)
    (hc : (s.modPlat (fun p => { p with imported := 0 })).importCheck s.mgVf = .ok (x, t)) {u : State}
    (hu : (t.pullRecords s.mgVf x).modPlat (fun p => { p with
      foreign := p.foreign.filter (fun y => y.ticket != x.ticket)
      imported := BitVec.ofNat 32 x.mib
      vfs := p.vfs.map (fun y => (y.1, { y.2 with exported := y.2.exported.map (fun e => if e.ticket = x.ticket then { e with used := true } else e) })) }) = u) :
    s.importTenant true = (u.pend [.launchSelect (u.vf s.mgVf).node]).mgDone 0 := by
  subst hu
  unfold State.importTenant
  dsimp only
  rw [if_neg (by omega)]
  refine (if_neg (fun h => Bool.false_ne_true (hl.symm.trans h))).trans ?_
  rw [hc]
  rfl

theorem State.importConfirm_eq {s : State} {v : Nat} {e : Export} (he : (s.vf v).exported = some e) (hu : e.dev = s.plat.devNo.toNat → e.used = true) :
    s.importConfirm v = some (((s.vf v).tables.foldl (fun (s : State) p => s.dropFrame p.2) ((s.vf v).pages.foldl (fun (s : State) p => s.unmap v p.1)
      ((s.vf v).bigs.foldl (fun (s : State) p => s.unmapBig v p.1) ({ s with
        domains := s.domains.map (fun (p : Nat × Domain) => if p.2.vf = v then (p.1, { p.2 with live := false }) else p)
        dies := s.dies.map (fun (p : Nat × Die) => (p.1, { p.2 with colls := p.2.colls.filter (fun o => o.2.vf != v) })) } : State)))).modVf v (fun t => { t with
          records := [], waitingEntries := [], areas := [], pages := [], tables := [], backing := [], wset := [], wbigs := [], written := [],
          exported := none })) := by
  unfold State.importConfirm
  dsimp only
  rw [he]
  dsimp only
  rw [if_neg (fun h => by rw [hu h.1] at h; exact Bool.false_ne_true h.2)]

theorem State.wrcmdResume_eq {s : State} {x : W64} (hx : bf x 0 4 = 2) (hres : bf x 11 53 = 0)
    (hstate : (s.node (bf x 4 7)).state = .idle ∨ (s.node (bf x 4 7)).state = .active) {n : Nat} (hn : bf x 4 7 = n) :
    s.wrcmdResume x = some (((((s.modNode n (fun y => { y with selectable := true })).bound n).foldl (fun s v => s.modVf v (fun t =>
        { t with records := t.records.map (fun r => { r with preserved := false }) })) (s.modNode n (fun y => { y with selectable := true }))).modPlat
          (fun p => { p with wrResult := 0 })).pend [.launchSelect n]) := by
  subst hn
  unfold State.wrcmdResume
  dsimp only
  rw [if_neg (not_not_intro hx), if_neg (by rcases hstate with h | h <;> simp [hres, Node.paddock, h]), if_neg (by rcases hstate with h | h <;> simp [h])]

/-- The sixteen steps of a start, each with its record. -/
theorem step_of_steps (f : Nat → StartStep) : tget ((List.range 16).map (fun i => (i + 1, f (i + 1)))) 15 {} = f 15 := rfl

/-- What a start leaves of cores, tenants, steps and numbers (R387). -/
theorem State.start_leaves {s : State} (x : StartInput) (hsafe : s.plat.safe = false) : ∃ t : State, s.start x = some t ∧ t.cores = State.reset.cores ∧
    t.hbt = 0 ∧ t.plat.vfs = State.reset.plat.vfs ∧ t.plat.devNo = (if (s.runStep x.failing 15).outcome = 1 then BitVec.ofNat 12 x.dev else 0) ∧
    t.plat.steps = (List.range 16).map (fun i => (i + 1, s.runStep x.failing (i + 1))) ∧ t.plat.starts = (if s.plat.blank then 1 else s.plat.starts + 1) := by
  unfold State.start
  rw [if_neg (by simp [hsafe])]
  exact ⟨_, rfl, rfl, rfl, rfl, by rw [← step_of_steps (s.runStep x.failing)]; rfl, rfl, rfl⟩

/-- Settles O57: each step of yield, migration, warm reset and start has the effect that its rule gives (log entries 39-41). -/
theorem yieldMigrationAndStartStepsRun : Obligations.YieldMigrationAndStartStepsRun := by
  unfold Obligations.YieldMigrationAndStartStepsRun
  refine ⟨?_, ?_, ?_, ?_, ?_, ?_, ?_, ?_, ?_, ?_, ?_, ?_⟩
  · intro c d s t hd hphase hsaved hrec
    refine event_occurs ?_
    unfold State.saveSignal
    rw [hd]
    dsimp only
    rw [if_neg (by rw [hsaved, hrec]; simp [hphase])]
    exact (apply_ite some _ _ _).symm
  · intro d s hrec
    exact event_occurs (if_pos hrec)
  · intro d s a r ha hr
    refine event_occurs ?_
    unfold State.restoreDone
    dsimp only
    rw [ha, hr]
  · intro s v k h0 hmax hn hl hb he
    exact next_of_eq (State.exportTenant_eq h0 hmax hn hl hb he (fun _ => rfl))
  · intro s x t v u h0 hmax hl hc
    exact next_of_eq (State.importTenant_eq h0 hmax hl hc rfl)
  · intro v s e t dropped he hu
    exact event_occurs (State.importConfirm_eq he hu)
  · intro s e he hu
    refine next_of_eq ?_
    unfold State.abandon
    dsimp only
    rw [he]
    exact if_neg (by simp [hu])
  · intro k f s t hsafe h0 h3 hwarm
    refine event_occurs (if_neg ?_)
    rw [hsafe]
    rintro (h | h | h | ⟨hw, h⟩)
    · exact Bool.false_ne_true h
    · omega
    · omega
    · exact h.elim (fun h => h (hwarm hw).1) (fun h => h (hwarm hw).2)
  · intro x s n hx hres hstate
    exact event_occurs (State.wrcmdResume_eq hx hres hstate rfl)
  · intro x s d hx hrun hbudget
    refine next_of_eq ?_
    unfold State.wdbudget
    rw [if_neg (not_not_intro hx), hrun]
    exact if_neg (Nat.not_lt.2 hbudget)
  · intro x s hsafe
    obtain ⟨t, ht, hleaves⟩ := State.start_leaves x hsafe
    obtain ⟨hcores, hhbt, hvfs, hdev, hsteps, hstarts⟩ := hleaves
    refine ⟨t, event_occurs ht, hcores, hhbt, hvfs, hdev, hsteps, hstarts, fun hwarm hx => event_occurs ?_⟩
    unfold State.warmResetOverrun
    rw [if_pos hwarm, ← hx, ht]
  · intro s
    rfl

end Sys2Proof.Machine

namespace Sys2Proof.Machine
/-!
SUPPORT. Membership, replays, limits, derating, power and the error log (23 R397; 25 R410, R415, R418, R419).
-/

open Sys2Proof

theorem State.modNode_modNode (s : State) (n : Nat) (f g : Node → Node) : (s.modNode n f).modNode n g = s.modNode n (fun x => g (f x)) := by
  unfold State.modNode State.modPlat
  dsimp only
  rw [tmod_tmod]

theorem State.setPf_other (s : State) {o p : Nat} (v : W64) (h : p ≠ o) : (s.setPf o v).pf p = s.pf p := by
  unfold State.setPf State.pf State.modPlat
  exact tget_tput_ne _ _ _ h

/-- A membership list that is well formed, of a job between launches and with this device in it, is loaded. -/
theorem State.membershipLoad_loads {s : State} {job count : Nat} {l : List Nat} (hjob : bf (s.pf 0x308000) 0 32 = job) (hcount : bf (s.pf 0x308010) 0 13 = count)
    (hl : (List.range count).map (fun i => s.hostRead ((s.pf 0x308008).toNat + 2 * i) 2) = l) (h0 : job ≠ 0) (hpos : 0 < count) (hmax : count ≤ 4096)
    (ha : (s.pf 0x308008).toNat % 8 = 0) (hd : ∀ d ∈ l, d < 4096) (hr : rising l = true) (hb : s.jobBusy job = false)
    (hown : l.contains s.plat.devNo.toNat = true) :
    s.membershipLoad = s.modPlat (fun p => { p with
      members := { job := job, devices := l, absent := ((s.membership job).getD {}).absent.filter l.contains } :: p.members.filter (fun m => m.job != job)
      mbResult := 0 }) := by
  have hbound : l.any (fun d => decide (4096 ≤ d)) = false := List.any_eq_false.2 (fun d h => by simpa using hd d h)
  unfold State.membershipLoad
  simp only [hjob, hcount, hl]
  rw [if_neg (by rw [hbound, hr]; simp [h0, ha]; omega), if_neg (by simp [hb]), if_neg (by rw [hown]; exact Bool.false_ne_true)]
  rfl

theorem State.timingReplay_team {s : State} {u : Nat} (hu : u < Config.teams) (hlim : (s.team u).marginCount ≠ s.engineLimit) :
    s.timingReplay true u = some (s.modTeam u (fun t => { t with replays := t.replays + 1, marginCount := t.marginCount + 1 })) := by
  unfold State.timingReplay
  rw [if_pos rfl, if_neg (by omega)]
  refine if_pos ?_
  rw [State.modTeam_same]
  exact fun h => hlim (Nat.succ.inj h)

theorem State.timingReplay_core {s : State} {u : Nat} (hu : u < Config.cores) {t : State}
    (ht : s.modCore u (fun c => { c with replays := c.replays + 1, marginCount := c.marginCount + 1 }) = t) :
    s.timingReplay false u = some (if (s.core u).marginCount = s.coreLimit then t.marginExcess u else t) := by
  have hcount : (t.core u).marginCount = t.coreLimit + 1 ↔ (s.core u).marginCount = s.coreLimit := by
    subst ht
    rw [State.modCore_same]
    exact ⟨Nat.succ.inj, congrArg (· + 1)⟩
  unfold State.timingReplay
  rw [if_neg Bool.false_ne_true, if_neg (by omega)]
  dsimp only
  rw [ht]
  simp only [hcount]

/-- A power state that is applied changes its node's power state and nothing else of it. -/
theorem State.applyPower_node (s : State) (n k : Nat) : (s.applyPower n k).node n = { s.node n with power := k, powerNext := none } := by
  unfold State.applyPower
  rw [State.modNode_same]
  have hnode : ∀ (l : Tab Domain) (t : State), (l.foldl (fun s p => if p.2.live ∧ p.2.node = n then s.noteTicks p.1 else s) t).node n = t.node n :=
    fun l t => foldl_leaves (p := fun t : State => t.node n) (fun s p => by
      show State.node (if p.2.live ∧ p.2.node = n then s.noteTicks p.1 else s) n = s.node n
      split <;> rfl) l t
  rw [hnode]

/-- Stacks that nothing uses go down together. -/
theorem State.pwhbm_eq {s : State} {x : W64} (h : ∀ k, k < 16 → bit x k = true →
      s.plat.lent.getLsbD k = false ∧ s.plat.frames.any (fun p => p.2.used && p.1 / 2 ^ 20 == k) = false) :
    s.pwhbm x = (s.setPf 0x420020 (w64 ((List.range 16).map (fun k => if bit x k then 2 ^ k else 0)).sum)).modNode (bf (s.pf 0x420000) 0 7)
      (fun n => { n with powerResult := 0 }) := by
  have hfree : ∀ k ∈ List.range 16, bit x k = true → (s.plat.lent.getLsbD k || s.plat.frames.any (fun p => p.2.used && p.1 / 2 ^ 20 == k)) = false :=
    fun k hk hx => by rw [(h k (List.mem_range.1 hk) hx).1, (h k (List.mem_range.1 hk) hx).2]; rfl
  have hrefused : (List.range 16).any (fun k => bit x k && (s.plat.lent.getLsbD k || s.plat.frames.any (fun p => p.2.used && p.1 / 2 ^ 20 == k))) = false :=
    List.any_eq_false.2 (fun k hk hx => by
      rw [Bool.and_eq_true] at hx
      exact Bool.false_ne_true ((hfree k hk hx.1).symm.trans hx.2))
  have hdown : (List.range 16).map (fun k => if bit x k = true ∧
        (!(s.plat.lent.getLsbD k || s.plat.frames.any (fun p => p.2.used && p.1 / 2 ^ 20 == k))) = true then 2 ^ k else 0) =
      (List.range 16).map (fun k => if bit x k then 2 ^ k else 0) :=
    List.map_congr_left (fun k hk => by
      by_cases hx : bit x k = true
      · rw [if_pos ⟨hx, by rw [hfree k hk hx]; rfl⟩, if_pos hx]
      · rw [if_neg (fun h => hx h.1), if_neg hx])
  unfold State.pwhbm State.pwDone State.pwNode
  dsimp only
  rw [hrefused, hdown, State.setPf_other _ _ (by decide)]
  rfl

/-- Settles O58: each step of membership, timing, power and the log has the effect that its rule gives (log entries 45 and 47). -/
theorem powerSpeedAndLogStepsRun : Obligations.PowerSpeedAndLogStepsRun := by
  unfold Obligations.PowerSpeedAndLogStepsRun
  refine ⟨?_, ?_, ?_, ?_, ?_, ?_, ?_, ?_, ?_, ?_⟩
  · intro s job count l h0 hpos hmax ha hd hr hb hown
    exact next_of_eq (State.membershipLoad_loads rfl rfl rfl h0 hpos hmax ha hd hr hb hown)
  · intro u s
    refine ⟨fun hu hlim => event_occurs (State.timingReplay_team hu hlim), ?_⟩
    intro hu t
    exact event_occurs (State.timingReplay_core hu rfl)
  · intro d s hd hstretched t
    refine event_occurs ?_
    unfold State.currentLimit
    rw [if_neg (by rw [hstretched]; simp; omega)]
    cases (s.die d).clHit <;> rfl
  · intro d s hstretched
    exact event_occurs (if_pos hstretched)
  · intro u n s b
    refine ⟨fun hu hn => event_occurs ?_, fun hu hn => event_occurs ?_⟩ <;> unfold State.thermalTrip
    · rw [if_neg (by simp; omega)]
      rfl
    · rw [if_neg (by simp; omega)]
      rfl
  · intro b u s x
    refine ⟨fun habsent hu hdue hbusy => event_occurs ?_, fun habsent hbusy => event_occurs ?_⟩
    · unfold State.derate
      dsimp only
      rw [if_neg (by
        rintro (h | h | ⟨hp, hm⟩)
        · exact Bool.false_ne_true (habsent.symm.trans h)
        · omega
        · rcases hdue with hdue | hdue
          · rw [show (s.speedOf b u).pending = true from hdue] at hp
            exact Bool.noConfusion hp
          · exact absurd hdue (Nat.not_le.2 hm)), if_pos (by rw [hbusy]; rfl)]
      rfl
    · exact if_neg (by rw [show (s.speedOf b u).absent = true from habsent, hbusy]; simp)
  · intro x s n hpad
    refine ⟨fun hres hbusy => next_of_eq ?_, fun hgate => next_of_eq ?_⟩
    · unfold State.pwcmd
      dsimp only
      rw [if_neg (not_not_intro hres), if_neg (by rw [show (s.node s.pwNode).paddock = true from hpad]; exact Bool.false_ne_true),
        if_neg (fun h => Bool.false_ne_true ((hbusy h.1).symm.trans h.2))]
      exact State.modNode_modNode s n _ _
    · unfold State.pwgate
      dsimp only
      rw [if_neg (by rw [show (s.node s.pwNode).paddock = true from hpad]; exact Bool.false_ne_true),
        if_neg (fun h => hgate.elim (fun hg => Bool.false_ne_true (hg.symm.trans h.1)) (fun hg => h.2 hg))]
      exact State.modNode_modNode s n _ _
  · intro n k s hk
    refine ⟨event_occurs ?_, s.applyPower_node n k⟩
    unfold State.powerStateApply
    rw [hk]
    rfl
  · intro x s down h
    exact next_of_eq (State.pwhbm_eq h)
  · intro x s
    rfl

end Sys2Proof.Machine

namespace Sys2Proof.Machine
/-!
SUPPORT. Edges, ports, the heartbeat and failed devices (23 R390-R396, R400, R401).
-/

open Sys2Proof

/-! ### Edges -/

theorem Edge.modDir_congr {x : Edge} {d : Nat} {f g : Dir → Dir} (h : f (x.dir d) = g (x.dir d)) : x.modDir d f = x.modDir d g := by
  unfold Edge.modDir
  unfold Edge.dir at h
  by_cases hd : d = 0
  · simp only [hd, if_true] at h ⊢
    rw [h]
  · simp only [hd, if_false] at h ⊢
    rw [h]

theorem Edge.modDir_dir (x : Edge) (d : Nat) (f : Dir → Dir) : (x.modDir d f).dir d = f (x.dir d) := by
  unfold Edge.modDir Edge.dir
  by_cases hd : d = 0
  · simp only [hd, if_true]
  · simp only [hd, if_false]

theorem Dir.receive_expected {z : Dir} {q : BitVec 8} (hq : q = z.rxNext) : z.receive q true =
    { z with rxNext := q + 1, acked := q + 1, skipping := false, nak := none, buffer := z.buffer.filter (fun f => f.seq != q.toNat) } := by
  subst hq
  unfold Dir.receive
  rw [if_neg (fun h => h.2 rfl), if_neg (by decide), if_pos rfl]

theorem Dir.receive_failed {z : Dir} {q : BitVec 8} (hq : q = z.rxNext) : (z.receive q false).nak = some q := by
  subst hq
  unfold Dir.receive
  rw [if_neg (fun h => h.2 rfl), if_pos (by decide)]

/-- A flit that is sent again is received by its direction; a module that it has worn out retrains. -/
theorem State.d2dFlitReceive_again {s : State} {e d : Nat} {q : BitVec 8} {ok : Bool} (he : e < 4) (hd : d < 2) (hdead : (s.edge e).dead = false)
    (htx : q ≠ ((s.edge e).dir d).txNext) (hnak : ((s.edge e).dir d).nak ≠ some q) {y : Edge} (hy : (s.edge e).modDir d (fun z => z.receive q ok) = y) :
    ((y.dir d).worn = none → s.d2dFlitReceive e d q ok = some (s.modEdge e (fun _ => y))) ∧
    ∃ t, s.d2dFlitReceive e d q ok = some t ∧ t.edge e = y := by
  unfold State.d2dFlitReceive
  dsimp only
  have hin : ¬ (4 ≤ e ∨ 2 ≤ d ∨ (s.edge e).dead = true ∨ ((s.edge e).dir d).nak = some q) := by
    rw [hdead]
    rintro (h | h | h | h)
    · exact Nat.not_lt.2 h he
    · exact Nat.not_lt.2 h hd
    · exact Bool.false_ne_true h
    · exact hnak h
  rw [if_neg hin]
  simp only [htx, decide_false, Bool.false_eq_true, if_false, Bool.false_and, hy]
  cases hw : (y.dir d).worn with
  | none => exact ⟨fun _ => rfl, _, rfl, State.modEdge_same s e _⟩
  | some f => exact ⟨nofun, _, rfl, State.modEdge_same s e _⟩

theorem State.d2dNak_eq {s : State} {e d : Nat} {n : BitVec 8} (hn : ((s.edge e).dir d).nak = some n) (he : e < 4) (hd : d < 2)
    (hdead : (s.edge e).dead = false) {y : Edge} (hy : (match ((s.edge e).dir d).worn with | some f => (s.edge e).retrain f.module | none => s.edge e) = y)
    {t : State} (ht : s.modEdge e (fun _ => y.modDir d (fun z => { z with
      nak := none
      rpl := satAdd z.rpl 1
      buffer := z.buffer.map (fun w => { w with module := y.again w.module }) })) = t) :
    s.d2dNak e d = some (if y.dead then t.pend [.edgeDown e] else t) := by
  subst hy ht
  unfold State.d2dNak
  dsimp only
  rw [hn]
  exact if_neg (by rw [hdead]; exact fun h => h.elim (fun h => Nat.not_lt.2 h he) fun h => h.elim (fun h => Nat.not_lt.2 h hd) Bool.false_ne_true)

theorem State.moduleRetrain_eq {s : State} {e m : Nat} (hc : (s.edge e).carries m = true)
    (hf : ∃ f ∈ (s.edge e).dir0.buffer ++ (s.edge e).dir1.buffer, f.module = m ∧ 9 ≤ f.fails) :
    s.moduleRetrain e m = some (if ((s.edge e).retrain m).dead then (s.modEdge e (fun _ => (s.edge e).retrain m)).pend [.edgeDown e]
      else s.modEdge e (fun _ => (s.edge e).retrain m)) := by
  obtain ⟨f, hmem, hm, hfails⟩ := hf
  have hworn : ((s.edge e).dir0.buffer.any (fun y => y.module == m && decide (9 ≤ y.fails)) ||
      (s.edge e).dir1.buffer.any (fun y => y.module == m && decide (9 ≤ y.fails))) = true := by
    rw [← List.any_append, List.any_eq_true]
    exact ⟨f, hmem, by simp [hm, hfails]⟩
  exact if_neg (by rw [hc, hworn]; simp)

/-- The module that a training has set. -/
theorem Edge.train_module (x : Edge) (m : Nat) (l0 l1 : List Nat) : (x.train m l0 l1).module m = (x.module m).trained l0 l1 := by
  unfold Edge.train Edge.module
  dsimp only
  split <;> exact tget_tput_self ..

theorem State.moduleRetrainDone_module {s : State} {e m : Nat} {l0 l1 : List Nat} (he : e < 4) (hm : m < 8) (hstate : ((s.edge e).module m).mstate = 3)
    (hl : ∀ l ∈ l0 ++ l1, l < 64) :
    ∃ t : State, s.moduleRetrainDone e m l0 l1 = some t ∧ (t.edge e).module m = ((s.edge e).module m).trained l0 l1 := by
  have hbound : (l0 ++ l1).any (fun l => decide (64 ≤ l)) = false := List.any_eq_false.2 (fun l h => by simpa using hl l h)
  refine ⟨_, if_neg (by rw [hbound]; simp [hstate]; omega), ?_⟩
  rw [← Edge.train_module]
  split
  · rw [State.pend_get_edge, State.modEdge_same, State.modEdge_same]
    rfl
  · rw [State.modEdge_same]
    rfl

theorem State.passAll_domains {s t : State} {l : List (Nat × Nat)} (h : s.passAll l = some t) : t.domains = s.domains := by
  induction l generalizing s with
  | nil => exact congrArg State.domains (Option.some.inj h).symm
  | cons a r ih =>
    unfold State.passAll at h
    rw [List.foldlM_cons] at h
    obtain ⟨u, hu, hr⟩ := Option.bind_eq_some_iff.1 h
    obtain ⟨x, -, rfl⟩ := Option.map_eq_some_iff.1 hu
    exact (ih hr).trans rfl

theorem State.resend_domains (s : State) (a b : Nat) : (s.resend a b).domains = s.domains := by
  unfold State.resend
  cases h : (s.route a b).bind s.passAll with
  | none => rfl
  | some t =>
    obtain ⟨l, -, hl⟩ := Option.bind_eq_some_iff.1 h
    exact State.passAll_domains hl

theorem State.detour_domains (s : State) (e : Nat) (x : Edge) : (s.detour e x).domains = s.domains :=
  (foldl_leaves (p := State.domains) (fun s _ => s.resend_domains _ _) _ _).trans
    (foldl_leaves (p := State.domains) (fun s _ => s.resend_domains _ _) _ _)

/-! ### Ports -/

theorem State.modPort_keeps_state (s : State) (k n : Nat) {f : Port → Port} (hf : ∀ p, (f p).state = p.state) :
    ((s.modPort n f).port k).state = (s.port k).state := by
  by_cases h : k = n
  · subst h
    rw [State.modPort_same, hf]
  · rw [State.modPort_other _ _ h]

theorem State.transmit_domains (s : State) (k : Nat) (f : OutFlit) : (s.transmit k f).domains = s.domains := rfl

theorem State.transmit_port_state (s : State) (n : Nat) (f : OutFlit) (k : Nat) : ((s.transmit n f).port k).state = (s.port k).state := by
  unfold State.transmit
  refine s.modPort_keeps_state k n (f := fun p => { p with txNext := p.txNext + 1, buffer := p.buffer ++ [?_] }) (fun _ => rfl)

theorem State.sendOut_port_state (s : State) (f : OutFlit) (k : Nat) : ((s.sendOut f).port k).state = (s.port k).state := by
  unfold State.sendOut
  dsimp only
  split
  · rfl
  · split
    · rfl
    · split
      · rfl
      · exact s.transmit_port_state _ _ k

theorem State.flushOut_port_state (s : State) (k : Nat) : (s.flushOut.port k).state = (s.port k).state :=
  foldl_leaves (p := fun t : State => (t.port k).state) (fun s f => s.sendOut_port_state f k) _ _

/-! ### Failed devices -/

theorem State.sendOut_domains (s : State) (f : OutFlit) : (s.sendOut f).domains = s.domains :=
  State.sendOut_keeps (P := fun t => t.domains = s.domains) (fun _ _ h => h) s f rfl

theorem State.tellAgain_domains (s : State) (d : Nat) (l : List Nat) : (s.tellAgain d l).domains = s.domains := by
  unfold State.tellAgain
  dsimp only
  split
  · exact foldl_leaves (p := State.domains) (fun s _ => s.sendOut_domains _) _ _
  · split
    · exact foldl_leaves (p := State.domains) (fun s _ => s.sendOut_domains _) _ _
    · exact foldl_leaves (p := State.domains) (fun s _ => s.sendOut_domains _) _ _

/-- Settles O59: each step of edges, ports, heartbeats and devices has the effect that its rule gives (log entries 21, 43, 44). -/
theorem linkStepsRun : Obligations.LinkStepsRun := by
  unfold Obligations.LinkStepsRun
  refine ⟨?_, ?_, ?_, ?_, ?_, ?_, ?_, ?_, ?_, ?_⟩
  · intro e d q s x y he hd hdead hq htx hnak
    have hy : (s.edge e).modDir d (fun z => z.receive q true) = y := Edge.modDir_congr (Dir.receive_expected hq)
    refine ⟨fun hworn => event_occurs ((State.d2dFlitReceive_again he hd hdead htx hnak hy).1 hworn), ?_⟩
    obtain ⟨t, ht, hedge⟩ := (State.d2dFlitReceive_again (ok := false) he hd hdead htx hnak rfl).2
    exact ⟨t, event_occurs ht, by rw [hedge, Edge.modDir_dir]; exact Dir.receive_failed hq⟩
  · intro e d n s x y t hn he hd hdead
    exact event_occurs (State.d2dNak_eq hn he hd hdead rfl rfl)
  · intro e m s x y hc hf
    exact event_occurs (State.moduleRetrain_eq hc hf)
  · intro e m l0 l1 s he hm hstate hl
    obtain ⟨t, ht, hmodule⟩ := State.moduleRetrainDone_module he hm hstate hl
    exact ⟨t, event_occurs ht, hmodule⟩
  · intro e s he hdown hdead
    refine ⟨_, event_occurs (if_neg (by rw [hdown, hdead]; simp; omega)), fun hnone => ?_⟩
    dsimp only
    rw [State.detour_domains, State.modEdge_domains, hnone]
    rfl
  · intro k h l s p u t hk hstate hseq
    refine event_occurs ?_
    unfold State.llynnalFlitReceive
    dsimp only
    rw [if_neg (by rw [show (s.port k).state = 2 from hstate]; omega), if_neg (fun hne => hne.2 hseq), if_neg (not_not_intro rfl), if_neg (not_not_intro hseq)]
    rw [apply_ite some (flitBad h l = true), apply_ite some (bf h 12 12 ≠ t.plat.devNo.toNat)]
  · intro k s hstate hfails
    exact event_occurs (if_neg (by omega))
  · intro k s t hk hstate
    have htrains (ok : Bool) : s.portRetrainDone k ok = if ok then some (({ t with fresh := s.fresh + 1 }.modPlat (fun x =>
        { x with sent := x.sent ++ (s.port k).buffer.map (fun f => (k, f)) })).flushOut)
      else if (s.port k).failedRetrains = 2 then some ((s.modPort k (fun p => { p with state := 0, failedRetrains := 3, buffer := [] })).modPlat (fun x =>
        { x with unsent := (s.port k).buffer.map sentFlit ++ x.unsent })).flushOut
      else some (s.modPort k (fun p => { p with failedRetrains := p.failedRetrains + 1, retrains := satAdd p.retrains 1 })) :=
      if_neg (by rw [hstate]; omega)
    refine ⟨event_occurs (htrains true), fun hthree => ?_, fun hless => ?_⟩
    · refine ⟨_, event_occurs ((htrains false).trans ((if_neg Bool.false_ne_true).trans (if_pos hthree))), ?_⟩
      rw [State.flushOut_port_state]
      change ((s.modPort k (fun p => { p with state := 0, failedRetrains := 3, buffer := [] })).port k).state = 0
      rw [State.modPort_same]
    · refine ⟨_, event_occurs ((htrains false).trans ((if_neg Bool.false_ne_true).trans (if_neg (by omega)))), ?_⟩
      rw [State.modPort_same]
      exact hstate
  · intro k n s hk hstate
    by_cases hn : n ≤ 40
    · exact ⟨_, event_occurs ((if_neg (by rw [hstate]; omega)).trans (if_pos hn)), fun _ => rfl, fun h => absurd hn (by omega)⟩
    · have hbeat : ∃ t, s.heartbeatFlit k n = some t ∧
          (s.plat.syncSince = none → s.domains = [] → t.plat.sync = true ∧ t.plat.syncSince = some s.hbt) := by
        unfold State.heartbeatFlit
        dsimp only
        rw [if_neg (by rw [hstate]; omega), if_neg hn]
        split
        next => exact ⟨_, rfl, fun _ hnone => by
          unfold State.spanEvents
          rw [State.modPlat_domains, State.modPlat_domains, State.transmit_domains, hnone]
          exact ⟨rfl, rfl⟩⟩
        next hsince =>
          have hsome : s.plat.syncSince ≠ none := fun hnone => Option.some_ne_none _ (hsince.symm.trans hnone)
          split
          · exact ⟨_, rfl, fun hnone => absurd hnone hsome⟩
          · exact ⟨_, rfl, fun hnone => absurd hnone hsome⟩
      obtain ⟨t, ht, hsync⟩ := hbeat
      exact ⟨t, event_occurs ht, fun h => absurd h hn, fun _ => hsync⟩
  · intro d v s m t v' u hl hm hdev hnew
    have hsome : (s.domain d).members.isEmpty = false := by simpa [m] using hm
    have hfails : s.deviceFailed d v = if m.away then some t else match v'.parentDev d with
        | some up => some (if m.held then u.sendDone d up else if m.decision.isSome then u.pend [.donePennant d] else u)
        | none =>
          if m.shrinking then some (u.memberChange d)
          else if m.decision.isSome || m.held then some (v'.pend [.donePennant d])
          else some (u.memberChange d) := by
      unfold State.deviceFailed
      dsimp only
      rw [hsome, show (s.domain d).absent.contains v = false from hnew, if_neg (by rw [show (s.domain d).live = true from hl, hdev]; simp)]
      rfl
    have hdomain : u.domain d = { t.domain d with shrinks := [] } := by
      have hv' : v'.domain d = t.domain d := congrArg (fun l => tget l d ({ live := false } : Domain)) (t.tellAgain_domains d _)
      exact (State.modDomain_same v' d _).trans (by rw [hv'])
    have ht : t.domain d = { m with absent := v :: m.absent, shrinks := v :: m.shrinks } :=
      State.modDomain_same s d (fun m => { m with absent := v :: m.absent, shrinks := v :: m.shrinks })
    have hchange : u.memberChange d = if m.shrinking then u.fallsAgain d (m.decision.getD m.last.decision)
        else u.decideAbortOf d 9 0 (m.strag.getD (0, 0)) (u.unreduced d {}) false := by
      unfold State.memberChange
      rw [hdomain, ht]
      rfl
    refine ⟨fun haway => event_occurs (hfails.trans (if_pos haway)), fun haway => event_occurs (hfails.trans ?_)⟩
    rw [if_neg (by rw [haway]; exact Bool.false_ne_true)]
    cases v'.parentDev d with
    | some up => rfl
    | none =>
      dsimp only
      rw [hchange]
      split
      · rfl
      · split <;> rfl

end Sys2Proof.Machine

namespace Sys2Proof.Machine
/-!
SUPPORT. Firmware, SPDM sessions and TDISP (26 R421-R427).
-/

open Sys2Proof

theorem State.stage_starts {s : State} {n : Nat} {image : List Nat} {b : FwBank} (hn : bf (s.pf 0x18) 0 24 = n)
    (himage : (List.range n).map (fun i => (s.hostByte (alignTo 4096 (s.pf 0x10).toNat + i)).toNat) = image)
    (hb : ({ svn := Config.imageSvn image, length := Config.imageLength image, image := image, valid := true } : FwBank) = b)
    (hwarm : s.plat.warm = false) (hfree : s.plat.writing = none) (h0 : 0 < n) (hmax : n ≤ 2 ^ 23) :
    s.stage = if 2 ^ 23 < b.length then s.fwDone 1
      else if Config.signatureOk image = false then s.fwDone 2
      else if b.svn < s.plat.svnFloor then s.fwDone 3
      else s.startWrite b := by
  subst hb
  unfold State.stage
  simp only [hn, himage, Bool.not_eq_eq_eq_not, Bool.not_true]
  rw [if_neg (by simp [hwarm, hfree])]
  by_cases hlong : 2 ^ 23 < Config.imageLength image
  · rw [if_pos (show n = 0 ∨ 2 ^ 23 < n ∨ 8 * 2 ^ 20 < Config.imageLength image by omega), if_pos hlong]
  · rw [if_neg (show ¬(n = 0 ∨ 2 ^ 23 < n ∨ 8 * 2 ^ 20 < Config.imageLength image) by omega), if_neg hlong]

/-- A flash that is being written takes no firmware command, and says so. -/
theorem State.firmware_busy {s : State} (h : s.plat.writing.isSome = true) :
    s.stage = s ∧ s.commitSvn = s ∧ bit (s.plat.readFirmware 0x20 s.pf) 0 = true := by
  refine ⟨if_pos (.inr h), if_pos (.inr h), ?_⟩
  unfold Platform.readFirmware
  rw [if_neg (by decide), if_neg (by decide), if_pos rfl, h]
  change (BitVec.ofNat 64 (1 + (s.plat.fwResult % 16 * 16 + 0))).getLsbD 0 = true
  rw [BitVec.getLsbD_ofNat, Nat.testBit_zero]
  simp only [Nat.zero_lt_succ, decide_true, Bool.true_and, decide_eq_true_eq]
  omega

theorem State.negotiated_eq {s : State} {f : Nat} {g : Spdm → State} (hf : f ≤ Config.vfs) (h : (s.spdm f).negotiated = true) :
    s.negotiated f g = some (g (s.spdm f)) := by
  unfold State.negotiated
  dsimp only
  rw [if_neg (by simp [isFunction, hf]), if_pos h]

theorem isVf_of {v : Nat} (h0 : 0 < v) (hmax : v ≤ Config.vfs) : ¬(!isVf v) = true := by
  simp [isVf, hmax]
  omega

/-- Settles O60: each firmware command, SPDM request and TDISP message has the effect that its rule gives (log entries 48 and 49). -/
theorem firmwareAndSessionStepsRun : Obligations.FirmwareAndSessionStepsRun := by
  unfold Obligations.FirmwareAndSessionStepsRun
  refine ⟨?_, ?_, ?_, ?_, ?_, ?_, ?_, ?_, ?_⟩
  · intro s n image b
    refine ⟨fun hwarm hfree h0 hmax => next_of_eq (State.stage_starts rfl rfl rfl hwarm hfree h0 hmax), fun hbusy => ?_⟩
    obtain ⟨hstage, hcommit, hbit⟩ := State.firmware_busy hbusy
    exact ⟨next_of_eq hstage, next_of_eq hcommit, hbit⟩
  · intro b s hb
    refine (congrArg (Option.map _) hb).trans ?_
    rfl
  · intro s hwarm hfree
    exact next_of_eq (if_neg (by simp [hwarm, hfree]))
  · intro f s hf
    exact event_occurs (if_pos (by simp [isFunction, hf]))
  · intro f s hf hv
    refine event_occurs ((if_neg (by simp [isFunction, hf])).trans ?_)
    rw [if_pos hv]
  · intro f k g s hf hc
    refine event_occurs ((if_neg (by simp [isFunction, hf])).trans ?_)
    rw [if_neg (by simp [hc]), if_neg (by decide)]
  · intro f s x hf hn
    refine ⟨event_occurs (State.negotiated_eq hf hn), fun n => event_occurs (State.negotiated_eq hf hn), ?_, ?_, ?_⟩
    · intro i l hl digest
      refine event_occurs ((State.negotiated_eq hf hn).trans ?_)
      rw [hl]
      rfl
    · intro k hk share
      refine event_occurs ((State.negotiated_eq hf hn).trans ?_)
      rw [if_pos hk]
      rfl
    · intro k hk
      have hfinish (mac : Nat) : s.finish f mac = some (if mac = Config.finishMac f k then s.reply f { x with pendingKeys := none, session := some k } []
          else (s.modPlat (fun p => { p with spdm := tput p.spdm f { x with pendingKeys := none } })).spdmError f decryptError) := by
        refine (State.negotiated_eq hf hn).trans ?_
        rw [hk]
      refine ⟨event_occurs ((hfinish _).trans (congrArg some (if_pos rfl))), fun mac hmac =>
        ⟨_, event_occurs ((hfinish mac).trans (congrArg some (if_neg hmac))), ?_⟩⟩
      unfold State.spdmError State.spdm State.modPlat
      simp only [tget_tmod_self, tget_tput_self]
      exact ⟨trivial, trivial, trivial, trivial⟩
  · intro v k s h0 hmax hsession hnode hlocked hrec
    refine event_occurs ((if_neg (isVf_of h0 hmax)).trans (congrArg some (if_neg ?_)))
    simp [Option.isSome_iff_ne_none.1 hsession, hnode, hlocked, hrec]
  · intro v s h0 hmax
    refine ⟨fun hu => ⟨event_occurs ?_, event_occurs ?_⟩, fun hl => event_occurs ?_, fun hu => event_occurs ?_⟩
    · exact (if_neg (isVf_of h0 hmax)).trans (congrArg some (if_pos hu))
    · exact (if_neg (isVf_of h0 hmax)).trans (if_pos hu)
    · exact (if_neg (isVf_of h0 hmax)).trans (congrArg some (if_pos hl))
    · exact (if_neg (isVf_of h0 hmax)).trans (if_neg hu)

end Sys2Proof.Machine

namespace Sys2Proof.Machine

/-! SUPPORT. A step of the machine, and the obligation about what it runs. -/

open Sys2Proof

/-- A step whose schedule begins with a turn carries that turn out. -/
theorem step_of_turn {s : State} {u : Turn} {r : List Turn} (h : s.beat.sched.turns = u :: r) :
    step s = ({ s.beat with sched := { s.beat.sched with turns := r } } : State).perform (.turn u) := by
  have hwork : s.beat.nextWork = (.turn u, { s.beat with sched := { s.beat.sched with turns := r } }) := by
    unfold State.nextWork
    rw [h]
  unfold step
  dsimp only
  rw [hwork]

theorem instrOf_of_decode {w : BitVec 32} {i : Instr} (h : decode w = .ok i) : instrOf w = i := by
  have hbytes := decodeBytes_bytesOfWord w []
  rw [List.append_nil, h] at hbytes
  unfold instrOf
  rw [hbytes]
  rfl

theorem instrOf_of_decode_error {w : BitVec 32} {e : DecodeError} (h : decode w = .error e) :
    instrOf w = .illegalInstruction w := by
  have hbytes := decodeBytes_bytesOfWord w []
  rw [List.append_nil, h] at hbytes
  unfold instrOf
  rw [hbytes]
  rfl

/-- A context's turn, once its context takes part: one of the ways it could go on. -/
theorem perform_context {s : State} {c k : Nat} {i : Instr} {t : State} (hc : c < Config.cores) (hk : k < 5)
    (h : s.contextTurn c k = .go i t) : s.perform (.turn (.context c k)) = exec i t := by
  have hhas : hasContext c k = true := by simp [hasContext, hc, hk]
  unfold State.perform
  dsimp only
  rw [if_pos hhas, h]

theorem Ctx.ways_of_empty {x : Ctx} (hah : x.ah = []) (heh : x.eh = []) (hedge : x.edge = none) (hsc : x.sc = none)
    (hrow : x.rowEnded = false) : x.ways = [.deliver] := by
  simp [Ctx.ways, Ctx.mayDeliver, hah, heh, hedge, hsc, hrow]

theorem Ctx.ways_of_ah {x : Ctx} {sl : Slot} {rest : List Slot} (hah : x.ah = sl :: rest) (heh : x.eh = [])
    (hmay : x.mayDeliver = false) (hsc : x.scLets sl = true) : x.ways = [.half .ah] := by
  simp [Ctx.ways, headReady, hah, heh, hmay, hsc]

theorem Ctx.ways_of_eh {x : Ctx} {sl : Slot} {rest : List Slot} (heh : x.eh = sl :: rest) (hah : x.ah = [])
    (hmay : x.mayDeliver = false) (hsc : x.scLets sl = true) : x.ways = [.half .eh] := by
  simp [Ctx.ways, headReady, hah, heh, hmay, hsc]

theorem Ctx.spentRow_of_row {x : Ctx} (h : x.rowEnded = false) : x.spentRow = false := by simp [Ctx.spentRow, h]

theorem Ctx.spentRow_of_ah {x : Ctx} {sl : Slot} {rest : List Slot} (h : x.ah = sl :: rest) : x.spentRow = false := by
  simp [Ctx.spentRow, h]

theorem Ctx.spentRow_of_eh {x : Ctx} {sl : Slot} {rest : List Slot} (h : x.eh = sl :: rest) : x.spentRow = false := by
  simp [Ctx.spentRow, h]

/-- Of one way to go on, that one is taken. -/
theorem Ctx.way_of_ways {x : Ctx} {y : Way} (h : x.ways = [y]) : x.ways[x.skip % x.ways.length]? = some y := by
  rw [h]
  simp [Nat.mod_one]

section
variable {s : State} {c k : Nat} (hturns : (s.core c).turns k = true) (hgated : s.gated (clusterOf c) = false)
  (hrow : (s.ctx c k).spentRow = false)
include hturns hgated hrow

theorem contextTurn_deliver (hways : (s.ctx c k).ways = [.deliver]) :
    s.contextTurn c k = (s.modCtx c k (fun y => { y with skip := (y.skip + 1) % 6 })).deliver c k true := by
  unfold State.contextTurn
  dsimp only
  rw [if_neg (by simp [hturns, hgated]), if_neg (by simp [hrow]), Ctx.way_of_ways hways]

theorem contextTurn_ah {sl : Slot} {rest : List Slot} (hways : (s.ctx c k).ways = [.half .ah])
    (hah : (s.ctx c k).ah = sl :: rest) :
    s.contextTurn c k = .go sl.instr { ((s.modCtx c k (fun y => { y with skip := (y.skip + 1) % 6 })).modCtx c k
      (fun y => { y with ah := rest })) with issue := sl.iss } := by
  unfold State.contextTurn
  dsimp only
  rw [if_neg (by simp [hturns, hgated]), if_neg (by simp [hrow]), Ctx.way_of_ways hways]
  dsimp only
  rw [hah]

theorem contextTurn_eh {sl : Slot} {rest : List Slot} (hways : (s.ctx c k).ways = [.half .eh])
    (heh : (s.ctx c k).eh = sl :: rest) :
    s.contextTurn c k = .go sl.instr { ((s.modCtx c k (fun y => { y with skip := (y.skip + 1) % 6 })).modCtx c k
      (fun y => { y with eh := rest })) with issue := sl.iss } := by
  unfold State.contextTurn
  dsimp only
  rw [if_neg (by simp [hturns, hgated]), if_neg (by simp [hrow]), Ctx.way_of_ways hways]
  dsimp only
  rw [heh]

end

section
variable {s t : State} {c k : Nat} {w : BitVec 32} {i : Instr} (hedge : (s.ctx c k).edge = none)
  (hfetch : s.fetch c (s.ctx c k).pc = .word w t) (hinstr : instrOf w = i)
include hedge hfetch hinstr

/-- A hint that is delivered issues at once. -/
theorem deliver_hint (hhint : isHint i = true) :
    s.deliver c k true = .go i { (t.modCtx c k (fun y => { y.follow (s.ctx c k).pc y.eh.isEmpty with
      hfirst := some (y.hfirst.getD (s.ctx c k).pc) })) with issue := { core := c, ctx := k, addr := (s.ctx c k).pc } } := by
  unfold State.deliver
  dsimp only
  rw [hedge]
  dsimp only
  rw [hfetch]
  dsimp only
  rw [hinstr, if_pos hhint]

/-- Into empty buffers, a word issues as it is delivered. -/
theorem deliver_straight (hhint : isHint i = false) (hah : (s.ctx c k).ah = []) (heh : (s.ctx c k).eh = []) :
    s.deliver c k true = .go i { (t.delivered c k (s.ctx c k).pc i).2 with
      issue := (t.delivered c k (s.ctx c k).pc i).1.iss } := by
  unfold State.deliver
  dsimp only
  rw [hedge]
  dsimp only
  rw [hfetch]
  dsimp only
  rw [hinstr, if_neg (by simp [hhint]), if_pos (by simp [hah, heh])]

end

/-- A fetch that is translated, of a line that is sound, gives the word there. -/
theorem fetch_word {s : State} {c : Nat} {pc : W64} {phys cls : Nat} {e : W64}
    (hx : s.xlate (s.tenantOf c) pc .fetch = .ok phys cls e)
    (hsound : ((s.lookup c (s.tenantOf c) pc false).scrubLine phys).poisonAt phys = false) :
    s.fetch c pc = .word (BitVec.ofNat 32 (((s.lookup c (s.tenantOf c) pc false).scrubLine phys).hread phys 4))
      ((s.lookup c (s.tenantOf c) pc false).scrubLine phys) := by
  unfold State.fetch
  dsimp only
  rw [hx]
  dsimp only
  rw [if_neg (by simp [hsound])]

/-- A context with empty buffers and nothing that holds it back fetches, and the word runs as it is delivered. -/
theorem perform_fetched {u t : State} {c k : Nat} {w : BitVec 32} {i : Instr} (hc : c < Config.cores) (hk : k < 5)
    (hturns : (u.core c).turns k = true) (hgated : u.gated (clusterOf c) = false) (hah : (u.ctx c k).ah = [])
    (heh : (u.ctx c k).eh = []) (hedge : (u.ctx c k).edge = none) (hsc : (u.ctx c k).sc = none)
    (hrow : (u.ctx c k).rowEnded = false) (hinstr : instrOf w = i)
    (hfetch : (u.modCtx c k (fun y => { y with skip := (y.skip + 1) % 6 })).fetch c (u.ctx c k).pc = .word w t) :
    (isHint i = false → u.perform (.turn (.context c k)) = exec i { (t.delivered c k (u.ctx c k).pc i).2 with
      issue := (t.delivered c k (u.ctx c k).pc i).1.iss }) ∧
    (isHint i = true → u.perform (.turn (.context c k)) = exec i
      { (t.modCtx c k (fun y => { y.follow (u.ctx c k).pc y.eh.isEmpty with
        hfirst := some (y.hfirst.getD (u.ctx c k).pc) })) with issue := { core := c, ctx := k, addr := (u.ctx c k).pc } }) := by
  have hturn := contextTurn_deliver hturns hgated (Ctx.spentRow_of_row hrow) (Ctx.ways_of_empty hah heh hedge hsc hrow)
  obtain ⟨y, hy⟩ : ∃ y, u.modCtx c k (fun y => { y with skip := (y.skip + 1) % 6 }) = y := ⟨_, rfl⟩
  have hctx : y.ctx c k = { u.ctx c k with skip := ((u.ctx c k).skip + 1) % 6 } := by rw [← hy, State.modCtx_same]
  have hpc : (u.ctx c k).pc = (y.ctx c k).pc := by rw [hctx]
  rw [hy] at hturn hfetch
  rw [hpc] at hfetch ⊢
  have hedge' : (y.ctx c k).edge = none := by rw [hctx]; exact hedge
  refine ⟨fun hhint => ?_, fun hhint => ?_⟩
  · exact perform_context hc hk (hturn.trans (deliver_straight hedge' hfetch hinstr hhint (by rw [hctx]; exact hah)
      (by rw [hctx]; exact heh)))
  · exact perform_context hc hk (hturn.trans (deliver_hint hedge' hfetch hinstr hhint))

/-- Settles O4, by what a step does of its schedule's turn, and a context of the one way it can go on. -/
theorem stepRunsTheDecodedInstruction : Obligations.StepRunsTheDecodedInstruction := by
  intro s r
  refine ⟨?_, ?_, fun c pc phys cls e => fetch_word⟩
  · intro c k hturn hc hk hturns hgated
    rw [step_of_turn hturn]
    refine ⟨?_, ?_, ?_⟩
    · intro hah heh hedge hsc hrow w t hfetch
      have hrun := fun {i} (hinstr : instrOf w = i) =>
        perform_fetched hc hk hturns hgated hah heh hedge hsc hrow hinstr hfetch
      exact ⟨fun i hi => (hrun (instrOf_of_decode hi)).1, fun i hi => (hrun (instrOf_of_decode hi)).2,
        fun e he => (hrun (instrOf_of_decode_error he)).1 rfl⟩
    · intro sl rest hah heh hmay hsc
      exact perform_context hc hk (contextTurn_ah hturns hgated (Ctx.spentRow_of_ah hah)
        (Ctx.ways_of_ah hah heh hmay hsc) hah)
    · intro sl rest heh hah hmay hsc
      exact perform_context hc hk (contextTurn_eh hturns hgated (Ctx.spentRow_of_eh heh)
        (Ctx.ways_of_eh heh hah hmay hsc) heh)
  · intro i hturn hstep hwf
    rw [step_of_turn hturn]
    unfold State.perform
    dsimp only
    rw [if_pos (by simp [hstep, hwf])]

end Sys2Proof.Machine

namespace Sys2Proof.Machine

/-! SUPPORT. What the machine holds after reset, and the obligation about it. -/

open Sys2Proof

theorem reset_core (c : Nat) : State.reset.core c = {} := rfl

theorem reset_ctx (c k : Nat) : State.reset.ctx c k = {} := rfl

/-- The module right after reset, as one context sees it. -/
def resetFor (c k : Nat) : State := { State.reset with issue := { core := c, ctx := k } }

/-- The cycle counter stands at 0, whatever the clock: no tick has passed. -/
theorem reset_csr_cycles (c k : Nat) (view : W64) (loops : Loops) : (resetFor c k).csr view loops 0x81 = 0 := by
  have hread : (resetFor c k).csr view loops 0x81 = (0#64 - 0#64) * w64 ((resetFor c k).clock c) / 100 := rfl
  rw [hread, BitVec.sub_self, BitVec.zero_mul]
  rfl

/-- The CSRs of a context, its loops and its core that reset leaves at 0, the counters aside. -/
theorem reset_csr_zero (c k n : Nat) (view : W64)
    (h : n ∈ [0x01, 0x04, 0x05, 0x06, 0x07, 0x0C, 0x0D, 0x0E, 0x20, 0x21, 0x22, 0x23, 0x24, 0x25, 0x42, 0x43, 0x44,
      0xC0, 0xC4, 0xC8]) :
    (resetFor c k).csr view {} n = 0 := by
  repeat
    obtain _ | ⟨_, h⟩ := h
    · rfl
  cases h

/-- Neither the core nor its team has replayed. -/
theorem reset_csr_replays (c k : Nat) (view : W64) (loops : Loops) : (resetFor c k).csr view loops 0xC2 = 0 := by
  have hread : (resetFor c k).csr view loops 0xC2
      = w64 ((({} : Core).replays).toNat + (({} : Team).replays).toNat * 2 ^ 32) := rfl
  rw [hread]
  decide

/-- No data-cache register is set after reset. -/
theorem reset_csr_dc (c k j : Nat) (view : W64) (loops : Loops) (h : j < 16) : (resetFor c k).csr view loops (0x50 + j) = 0 := by
  have hmem : 0x50 + j ∈ [0x50, 0x51, 0x52, 0x53, 0x54, 0x55, 0x56, 0x57, 0x58, 0x59, 0x5A, 0x5B, 0x5C, 0x5D, 0x5E, 0x5F] := by
    simp only [List.mem_cons, List.not_mem_nil, or_false]
    omega
  generalize 0x50 + j = n at hmem ⊢
  repeat
    obtain _ | ⟨_, hmem⟩ := hmem
    · rfl
  cases hmem

/-- CPOL's thread column: one field of two bits a cause group. -/
theorem reset_csr_cpol (c k g : Nat) (view : W64) (loops : Loops) :
    bf ((resetFor c k).csr view loops 0x30) (2 * g) 2 = [3, 3, 1, 3, 1, 1, 3, 3].getD g 0 := by
  have hread : (resetFor c k).csr view loops 0x30 = (({} : Ctx)).cpol := rfl
  rw [hread]
  by_cases hg : g < 8
  · obtain rfl | rfl | rfl | rfl | rfl | rfl | rfl | rfl : g = 0 ∨ g = 1 ∨ g = 2 ∨ g = 3 ∨ g = 4 ∨ g = 5 ∨ g = 6 ∨ g = 7 := by omega
    all_goals rfl
  · have hzero : 0xF5DF / 2 ^ (2 * g) = 0 := Nat.div_eq_of_lt (by
      calc 0xF5DF < 2 ^ 16 := by decide
        _ ≤ 2 ^ (2 * g) := Nat.pow_le_pow_right (by omega) (by omega))
    rw [List.getD_eq_getElem?_getD, List.getElem?_eq_none (by simpa using hg)]
    show 0xF5DF >>> (2 * g) % 4 = 0
    rw [Nat.shiftRight_eq_div_pow, hzero]

/-- VIEW reads as its reset value: its two bases. -/
theorem reset_csr_view (c k : Nat) (loops : Loops) : let view := (State.reset.ctx c k).view
    bf ((resetFor c k).csr view loops 2) 0 7 = 0x18 ∧ bf ((resetFor c k).csr view loops 2) 8 7 = 0x60 := by
  have hread : (resetFor c k).csr ({} : Ctx).view loops 2 = ({} : Ctx).view := rfl
  rw [reset_ctx]
  dsimp only
  rw [hread]
  decide

/-- BSTAT reads as its reset value: no cause, and no attempt. -/
theorem reset_csr_bstat (c k : Nat) (view : W64) (loops : Loops) :
    bf ((resetFor c k).csr view loops 0x47) 8 4 = 0xF ∧ bf ((resetFor c k).csr view loops 0x47) 0 8 = 0 := by
  have hread : (resetFor c k).csr view loops 0x47 = ({} : Ctx).bstat := rfl
  rw [hread]
  decide

theorem reset_hbyte (a : Nat) : State.reset.hbyte a = 0 := rfl

theorem reset_node_other {n : Nat} (h : n ≠ 1) : (State.reset.node n).state = .covered := by
  exact congrArg Node.state (tget_tput_ne [] _ _ h)

/-- Settles O7, by reading each value off the record that reset gives. -/
theorem resetLeavesTheStatedValues : Obligations.ResetLeavesTheStatedValues := by
  refine ⟨fun c k => ?_, fun c k => ?_, rfl, fun n h => reset_node_other h, rfl, reset_hbyte, State.reset_wf, rfl⟩
  · rw [reset_ctx]
    decide
  · refine ⟨fun n hn => ?_, fun j hj => reset_csr_dc c k j _ _ hj, (reset_csr_view c k _).1, (reset_csr_view c k _).2, rfl, (reset_csr_bstat c k _ _).1, (reset_csr_bstat c k _ _).2,
      rfl, rfl, fun g => reset_csr_cpol c k g _ _⟩
    rw [reset_ctx]
    by_cases hcycles : n = 0x81
    · rw [hcycles]
      exact reset_csr_cycles c k _ _
    by_cases hreplays : n = 0xC2
    · rw [hreplays]
      exact reset_csr_replays c k _ _
    · exact reset_csr_zero c k n _ (by simp only [List.mem_cons, List.not_mem_nil, or_false] at hn ⊢; omega)

end Sys2Proof.Machine

namespace Sys2Proof.Machine

/-! SUPPORT. What leaves the memory of HBM as it is: every operation of the machine that writes no byte of it. -/

open Sys2Proof

/-- Each step of a fold leaves the memory of HBM as it is. -/
def LeavesHbm {α : Type} (f : State → α → State) : Prop := ∀ s x, (f s x).hbm = s.hbm

@[simp] theorem leavesHbm_iff {α : Type} (f : State → α → State) : LeavesHbm f ↔ ∀ s x, (f s x).hbm = s.hbm := by
  unfold LeavesHbm
  exact Iff.rfl

@[simp] theorem foldl_hbm {α : Type} {f : State → α → State} (hf : LeavesHbm f) (l : List α) (s : State) :
    (l.foldl f s).hbm = s.hbm := by
  induction l generalizing s with
  | nil => rfl
  | cons x l ih => exact (ih (f s x)).trans (hf s x)

@[simp] theorem ite_hbm {p : Prop} [Decidable p] (a b : State) : (if p then a else b).hbm = if p then a.hbm else b.hbm :=
  apply_ite State.hbm p a b

@[simp] theorem State.mgDone_hbm (s : State) (k : Nat) : (s.mgDone k).hbm = s.hbm := rfl

@[simp] theorem State.abandon_hbm (s : State) : (s.abandon).hbm = s.hbm := by
  unfold State.abandon
  dsimp only
  split <;> simp

@[simp] theorem State.modTeams_hbm (s : State) (k : Nat) (f : Team → Team) : (s.modTeams k f).hbm = s.hbm := by
  unfold State.modTeams
  simp

@[simp] theorem State.abortCluster_hbm (s : State) (k : Nat) : (s.abortCluster k).hbm = s.hbm := by simp [State.abortCluster]

@[simp] theorem State.modPte_hbm (s : State) (v : Nat) (va : W64) (f : W64 → W64) : (s.modPte v va f).hbm = s.hbm := rfl

@[simp] theorem State.install_hbm (s : State) (c : Nat) (e : Cached) : (s.install c e).hbm = s.hbm := rfl

@[simp] theorem State.walk_hbm (s : State) (c v : Nat) (va : W64) (write : Bool) : (s.walk c v va write).hbm = s.hbm := rfl

@[simp] theorem State.lookup_hbm (s : State) (c v : Nat) (va : W64) (write : Bool) : (s.lookup c v va write).hbm = s.hbm := by
  unfold State.lookup
  dsimp only
  split
  · simp
  · split <;> simp

@[simp] theorem State.share_hbm (s : State) (c seq : Nat) : (s.share c seq).hbm = s.hbm := rfl

@[simp] theorem State.emit_hbm (s : State) (c seq bytes : Nat) (kind : DeltaKind) (target : Target) :
    (s.emit c seq bytes kind target).hbm = s.hbm := rfl

@[simp] theorem State.emitLine_hbm (s : State) (c seq : Nat) (target : Target) (off n v : Nat) :
    (s.emitLine c seq target off n v).hbm = s.hbm := by simp [State.emitLine]

@[simp] theorem State.takeFrame_hbm (s : State) (f v page : Nat) : (s.takeFrame f v page).hbm = s.hbm := rfl

theorem State.shadowFor_hbm (s : State) (v page : Nat) (pch : Option Nat) : ∀ s', s.shadowFor v page pch = .ok s' → s'.hbm =
    s.hbm := by
  intro s' h
  unfold State.shadowFor at h
  split at h
  · cases h; rfl
  · split at h
    · split at h
      · cases h; simp
      · cases h
    · cases h

@[simp] theorem State.takeSeq_hbm (s : State) (c : Nat) : (s.takeSeq c).2.hbm = s.hbm := rfl

theorem State.lwriteAt_hbm (s : State) (c : Nat) (l : Loc) (n v : Nat) (eng : Option Nat) :
    ∀ s', s.lwriteAt c l n v eng = .ok s' → s'.hbm = s.hbm := by
  unfold State.lwriteAt
  dsimp only
  split
  · simp
  · simp
  · split
    · simp
    · split <;> simp
  · split
    · simp
    · split
      · simp
      · split
        · split <;> simp
        · split
          · simp
          · split <;> simp

@[simp] theorem State.writeHeld_hbm (s : State) (c : Nat) (h : Held) : (s.writeHeld c h).hbm = s.hbm := by
  unfold State.writeHeld
  split
  · simp
  · split
    · exact State.lwriteAt_hbm _ _ _ _ _ _ _ ‹_›
    · rfl

@[simp] theorem State.nudge_hbm (s : State) (c : Nat) : (s.nudge c).hbm = s.hbm := by simp [State.nudge]

@[simp] theorem State.endBank_hbm (s : State) (c id status flags : Nat) (out : List Nat) : (s.endBank c id status flags
    out).hbm = s.hbm := by
  simp [State.endBank]

@[simp] theorem State.dropFrame_hbm (s : State) (f : Nat) : (s.dropFrame f).hbm = s.hbm := rfl

@[simp] theorem State.abortDie_hbm (s : State) (dom d : Nat) : (s.abortDie dom d).hbm = s.hbm := by simp [State.abortDie]

@[simp] theorem State.noteTicks_hbm (s : State) (d : Nat) : (s.noteTicks d).hbm = s.hbm := rfl

@[simp] theorem State.flipTrend_hbm (s : State) (d : Nat) : (s.flipTrend d).hbm = s.hbm := rfl

@[simp] theorem State.noteTrends_hbm (s : State) (d : Nat) : (s.noteTrends d).hbm = s.hbm := by simp [State.noteTrends]

@[simp] theorem State.hostWrite_hbm (s : State) (a n v : Nat) : (s.hostWrite a n v).hbm = s.hbm := by
  unfold State.hostWrite
  exact State.modPlat_hbm _ _

@[simp] theorem State.writeCompletion_hbm (s : State) (v : Nat) : (s.writeCompletion v).hbm = s.hbm := by
  unfold State.writeCompletion
  dsimp only
  split
  · rfl
  · split
    · exact (State.modVf_hbm _ _ _).trans (State.hostWrite_hbm _ _ _ _)
    · rfl

@[simp] theorem State.flushCompletions_hbm (s : State) (v : Nat) : (s.flushCompletions v).hbm = s.hbm := by
  simp [State.flushCompletions]

@[simp] theorem State.complete_hbm (s : State) (v : Nat) (e : Completion) : (s.complete v e).hbm = s.hbm := by simp
    [State.complete]

@[simp] theorem State.endJob_hbm (s : State) (v job : Nat) : (s.endJob v job).hbm = s.hbm := by
  unfold State.endJob
  split <;> simp

@[simp] theorem State.modRec_hbm (s : State) (v order : Nat) (f : Rec → Rec) : (s.modRec v order f).hbm = s.hbm := rfl

@[simp] theorem State.wakeRecords_hbm (s : State) (v fuel : Nat) : (s.wakeRecords v fuel).hbm = s.hbm := by
  induction fuel generalizing s with
  | zero => rfl
  | succ k ih =>
    unfold State.wakeRecords
    dsimp only
    split
    · rfl
    · rw [ih]
      simp

@[simp] theorem State.endRecord_hbm (s : State) (v order status cause : Nat) (ssn : BitVec 48) (aborts : BitVec 32) :
    (s.endRecord v order status cause ssn aborts).hbm = s.hbm := by
  unfold State.endRecord
  split <;> simp

@[simp] theorem State.dropCaches_hbm (s : State) (p : Cached → Bool) : (s.dropCaches p).hbm = s.hbm := rfl

@[simp] theorem State.recordSet_hbm (s : State) (v : Nat) : (s.recordSet v).hbm = s.hbm := rfl

@[simp] theorem State.endLaunch_hbm (s : State) (d status cause : Nat) : (s.endLaunch d status cause).hbm = s.hbm := by
  unfold State.endLaunch
  dsimp only
  simp

@[simp] theorem State.domainFor_hbm (s : State) (v n : Nat) (r : Rec) (members : List Nat) (dcs : Tab W64) :
    (s.domainFor v n r members dcs).2.hbm = s.hbm := rfl

@[simp] theorem State.indexMembers_hbm (s : State) (d : Nat) : (s.indexMembers d).hbm = s.hbm := rfl

@[simp] theorem State.startCtx_hbm (s : State) (c k : Nat) (x : Ctx) : (s.startCtx c k x).hbm = s.hbm := rfl

@[simp] theorem State.startLaunched_hbm (s : State) (c : Nat) (pc arg : W64) : (s.startLaunched c pc arg).hbm = s.hbm := rfl

@[simp] theorem State.keepFlit_hbm (s : State) (src cls epoch : Nat) (l : List W64) : (s.keepFlit src cls epoch l).hbm = s.hbm
    := rfl

@[simp] theorem State.transmit_hbm (s : State) (k : Nat) (f : OutFlit) : (s.transmit k f).hbm = s.hbm := rfl

@[simp] theorem State.sendOut_hbm (s : State) (f : OutFlit) : (s.sendOut f).hbm = s.hbm := by
  unfold State.sendOut
  split
  · simp
  · split <;> simp

@[simp] theorem State.sendFlit_hbm (s : State) (dst cls epoch : Nat) (words : List W64) : (s.sendFlit dst cls epoch words).hbm
    = s.hbm := by
  simp [State.sendFlit]

@[simp] theorem State.sendPost_hbm (s : State) (dev : Nat) (o : Coll) (data : List W64) : (s.sendPost dev o data).hbm = s.hbm
    := by
  simp [State.sendPost]

@[simp] theorem State.sendPosts_hbm (s : State) (o : Coll) (data : List W64) : (s.sendPosts o data).hbm = s.hbm := by
  simp [State.sendPosts]

@[simp] theorem State.redo_hbm (s : State) (d tag : Nat) : (s.redo d tag).hbm = s.hbm := by
  unfold State.redo
  split <;> simp

@[simp] theorem State.takePost_hbm (s : State) (src epoch : Nat) (l : List W64) : (s.takePost src epoch l).hbm = s.hbm := by
  unfold State.takePost
  split <;> simp

@[simp] theorem State.pennantLost_hbm (s : State) : (s.pennantLost).hbm = s.hbm := rfl

@[simp] theorem State.takeKept_hbm (s : State) (d : Nat) : (s.takeKept d).hbm = s.hbm := by
  refine (foldl_hbm (fun s x => ?_) _ _).trans (State.modPlat_hbm _ _)
  split
  · simp
  · split
    · simp
    · split <;> simp

@[simp] theorem State.begin_hbm (s : State) (v n : Nat) (r : Rec) (members : List Nat) (dcs : Tab W64) : (s.begin v n r
    members dcs).hbm = s.hbm := by
  unfold State.begin
  dsimp only
  split <;> simp

theorem State.advanceInsts_hbm (s : State) (d : Nat) : ∀ s' ∈ s.advanceInsts d, s'.hbm = s.hbm := by
  unfold State.advanceInsts
  dsimp only
  split
  · simp
  · split <;> simp

@[simp] theorem State.clearScrub_hbm (s : State) : (s.clearScrub).hbm = s.hbm := rfl

@[simp] theorem State.afterUnbind_hbm (s : State) (n : Nat) : (s.afterUnbind n).hbm = s.hbm := by simp [State.afterUnbind]

@[simp] theorem State.answer_hbm (s : State) (d : Delta) (word : Option W64) (discarded : Bool) : (s.answer d word
    discarded).hbm = s.hbm := by
  simp [State.answer]

@[simp] theorem State.discardDelta_hbm (s : State) (d : Delta) : (s.discardDelta d).hbm = s.hbm := by simp [State.discardDelta]

@[simp] theorem lineBytes_hbm (data : BitVec 512) (mask : BitVec 64) {put : State → Nat → Byte → State} (hput : ∀ s i b, (put
    s i b).hbm = s.hbm) (s : State) : (lineBytes data mask put s).hbm = s.hbm :=
  foldl_hbm (fun s i => by simp [hput]) _ _

@[simp] theorem State.deliverOld_hbm (s : State) (d : Delta) (n old : Nat) : (s.deliverOld d n old).hbm = s.hbm := by
  simp [State.deliverOld]

@[simp] theorem State.applyTo_hbm (s : State) (d : Delta) (get : State → Nat → Byte) {put : State → Nat → Byte → State} (hput
    : ∀ s i b, (put s i b).hbm = s.hbm) : (s.applyTo d get put).hbm = s.hbm := by
  unfold State.applyTo
  split
  · exact lineBytes_hbm _ _ hput s
  · dsimp only
    split
    · rw [State.deliverOld_hbm]
      split <;> simp [hput]
    · split <;> simp [hput]
  · rfl

@[simp] theorem State.applyLocal_hbm (s : State) (d : Delta) : (s.applyLocal d).hbm = s.hbm := by
  unfold State.applyLocal
  dsimp only
  split
  · split
    · simp
    · rw [State.applyTo_hbm]
      · exact State.modCore_hbm _ _ _
      · exact fun s i b => State.modCore_hbm s _ _
  · split
    · simp
    · rw [State.applyTo_hbm]
      · exact State.modCluster_hbm _ _ _
      · exact fun s i b => State.modCluster_hbm s _ _
  · rfl

@[simp] theorem State.applyPower_hbm (s : State) (n k : Nat) : (s.applyPower n k).hbm = s.hbm := by simp [State.applyPower]

@[simp] theorem State.arrive_hbm (s : State) (c slot d : Nat) : (s.arrive c slot d).hbm = s.hbm := rfl

@[simp] theorem State.askPark_hbm (s : State) (c0 g : Nat) : (s.askPark c0 g).hbm = s.hbm := by simp [State.askPark]

@[simp] theorem State.setPage_hbm (s : State) (v page : Nat) (e : W64) : (s.setPage v page e).hbm = s.hbm := rfl

@[simp] theorem State.scrubbed_hbm (s : State) (f : Nat) (fr : Frame) : (s.scrubbed f fr).hbm = s.hbm := by
  unfold State.scrubbed
  dsimp only
  split <;> simp

@[simp] theorem State.watchDevices_hbm (s : State) : (s.watchDevices).hbm = s.hbm := by simp [State.watchDevices]

@[simp] theorem State.exchange_hbm (s : State) : (s.exchange).hbm = s.hbm := by simp [State.exchange]

@[simp] theorem State.tickDie_hbm (s : State) (d : Nat) : (s.tickDie d).hbm = s.hbm := by simp [State.tickDie]

@[simp] theorem State.tickDomain_hbm (s : State) (d : Nat) : (s.tickDomain d).hbm = s.hbm := by simp [State.tickDomain]

@[simp] theorem State.tickColl_hbm (s : State) (d slot : Nat) : (s.tickColl d slot).hbm = s.hbm := by
  unfold State.tickColl
  split <;> simp

@[simp] theorem State.beat_hbm (s : State) : s.beat.hbm = s.hbm := by
  unfold State.beat
  dsimp only
  refine (foldl_hbm (fun s p => ?_) _ _).trans (by simp)
  split <;> simp

@[simp] theorem State.bind_hbm (s : State) (v n : Nat) : (s.bind v n).hbm = s.hbm := rfl

@[simp] theorem State.setMarks_hbm (s : State) (f : Nat) (l : Tab (BitVec 64)) : (s.setMarks f l).hbm = s.hbm := rfl

@[simp] theorem State.cancelChains_hbm (s : State) (c : Nat) : (s.cancelChains c).hbm = s.hbm := by simp [State.cancelChains]

theorem State.chainForward_hbm (s : State) (k : Nat) : ∀ s' ∈ s.chainForward k, s'.hbm = s.hbm := by
  unfold State.chainForward
  dsimp only
  split
  · simp
  · split
    · simp
    · split <;> simp

@[simp] theorem State.spdmError_hbm (s : State) (fn code : Nat) : (s.spdmError fn code).hbm = s.hbm := rfl

theorem State.negotiated_hbm {s : State} {f : Spdm → State} (hf : ∀ x, (f x).hbm = s.hbm) (fn : Nat) : ∀ s' ∈ s.negotiated fn
    f, s'.hbm = s.hbm := by
  unfold State.negotiated
  dsimp only
  split <;> simp [hf]

@[simp] theorem State.reply_hbm (s : State) (fn : Nat) (x : Spdm) (l : List Nat) : (s.reply fn x l).hbm = s.hbm := rfl

theorem State.challenge_hbm (s : State) (fn nonce : Nat) : ∀ s' ∈ s.challenge fn nonce, s'.hbm = s.hbm := State.negotiated_hbm
    (fun _ => by simp) fn

@[simp] theorem State.checkArrive_hbm (s : State) (c : Nat) : (s.checkArrive c).hbm = s.hbm := by
  unfold State.checkArrive
  dsimp only
  split
  · simp
  · split
    · simp
    · split <;> simp

@[simp] theorem State.clearMargin_hbm (s : State) (c : Nat) : (s.clearMargin c).hbm = s.hbm := rfl

theorem State.collTimeout_hbm (s : State) (d slot : Nat) : ∀ s' ∈ s.collTimeout d slot, s'.hbm = s.hbm := by
  unfold State.collTimeout
  dsimp only
  split
  · simp
  · split <;> simp

@[simp] theorem State.commitCluster_hbm (s : State) (k : Nat) : (s.commitCluster k).hbm = s.hbm := by simp [State.commitCluster]

@[simp] theorem State.commitCore_hbm (s : State) (x : Decision) (c : Nat) : (s.commitCore x c).hbm = s.hbm := rfl

@[simp] theorem State.fwDone_hbm (s : State) (k : Nat) : (s.fwDone k).hbm = s.hbm := rfl

@[simp] theorem State.commitSvn_hbm (s : State) : (s.commitSvn).hbm = s.hbm := by simp [State.commitSvn]

@[simp] theorem State.writeLog_hbm (s : State) (e : LogEntry) : (s.writeLog e).hbm = s.hbm :=
  (State.modPlat_hbm _ _).trans ((State.setPf_hbm _ _ _).trans (State.hostWrite_hbm _ _ _ _))

@[simp] theorem State.loseLog_hbm (s : State) : (s.loseLog).hbm = s.hbm := rfl

@[simp] theorem State.logError_hbm (s : State) (e : LogEntry) : (s.logError e).hbm = s.hbm := by
  unfold State.logError
  dsimp only
  split
  · split
    · exact (State.hostWrite_hbm _ _ _ _).trans (State.modPlat_hbm _ _)
    · rfl
  · split
    · exact State.writeLog_hbm _ _
    · split
      · simp
      · split <;> simp

@[simp] theorem State.modRing_hbm (s : State) (c h : Nat) (f : Ring → Ring) : (s.modRing c h f).hbm = s.hbm := rfl

@[simp] theorem State.noteJob_hbm (s : State) (t : Nat) (j : Job) : (s.noteJob t j).hbm = s.hbm := rfl

@[simp] theorem State.modJob_hbm (s : State) (t key : Nat) (f : Job → Job) : (s.modJob t key f).hbm = s.hbm := by
  unfold State.modJob
  dsimp only
  split <;> simp

@[simp] theorem State.rowPassed_hbm (s : State) (r : Row) : (s.rowPassed r).hbm = s.hbm := by
  unfold State.rowPassed
  split <;> simp

@[simp] theorem State.releaseRow_hbm (s : State) (c : Nat) : (s.releaseRow c).hbm = s.hbm := by
  unfold State.releaseRow
  split <;> simp

@[simp] theorem State.retire_hbm (s : State) (c k : Nat) : (s.retire c k).hbm = s.hbm := by simp [State.retire]

@[simp] theorem State.endsWith_hbm (s : State) (c st : Nat) : (s.endsWith c st).hbm = s.hbm := by
  unfold State.endsWith
  split <;> simp

@[simp] theorem State.triggerReset_hbm (s : State) (cause : Nat) (failed : W64) : (s.triggerReset cause failed).hbm = s.hbm :=
    by
  simp [State.triggerReset]

@[simp] theorem State.contain_hbm (s : State) (level c : Nat) (k : Option Nat) (cpol : W64) (g src kind : Nat) (addr : W64)
    (unit : Nat) : (s.contain level c k cpol g src kind addr unit).1.hbm = s.hbm := by
  unfold State.contain
  dsimp only
  split
  · simp
  · simp
  · split
    · split <;> simp
    all_goals simp
  · simp

/-- The state that taking a trap leaves, whichever way it is taken. -/
def Taken.state : Taken → State
  | .done s => s
  | .ignored s => s

@[simp] theorem Taken.done_state (s : State) : (Taken.done s).state = s := rfl

@[simp] theorem Taken.ignored_state (s : State) : (Taken.ignored s).state = s := rfl

@[simp] theorem ite_state {p : Prop} [Decidable p] (a b : Taken) : (if p then a else b).state = if p then a.state else b.state
    :=
  apply_ite Taken.state p a b

@[simp] theorem State.takeTrap_hbm (s : State) (c k : Nat) (trapped : Option Slot) (half : Half) (first : W64) (cause : Nat)
    (tval : W64) (committed : Bool) : (s.takeTrap c k trapped half first cause tval committed).state.hbm = s.hbm := by
  unfold State.takeTrap
  dsimp only
  simp

theorem State.takeTrap_done_hbm {s t : State} {c k : Nat} {trapped : Option Slot} {half : Half} {first : W64} {cause : Nat}
    {tval : W64} {committed : Bool} (h : s.takeTrap c k trapped half first cause tval committed = .done t) : t.hbm = s.hbm := by
  rw [← State.takeTrap_hbm s c k trapped half first cause tval committed, h, Taken.done_state]

theorem State.takeTrap_ignored_hbm {s t : State} {c k : Nat} {trapped : Option Slot} {half : Half} {first : W64} {cause : Nat}
    {tval : W64} {committed : Bool} (h : s.takeTrap c k trapped half first cause tval committed = .ignored t) : t.hbm = s.hbm :=
    by
  rw [← State.takeTrap_hbm s c k trapped half first cause tval committed, h, Taken.ignored_state]

@[simp] theorem State.fetchTrap_hbm (s : State) (c k : Nat) (pc : W64) (cause : Nat) (tval : W64) : (s.fetchTrap c k pc cause
    tval).hbm = s.hbm := by
  unfold State.fetchTrap
  dsimp only
  split
  · exact State.takeTrap_done_hbm ‹_›
  · simp [State.takeTrap_ignored_hbm ‹_›]

@[simp] theorem State.tookTurn_hbm (s : State) (c : Nat) (d : Copy) : (s.tookTurn c d).hbm = s.hbm := by simp [State.tookTurn]

@[simp] theorem State.raiseReusable_hbm (s : State) (c : Nat) (d : Copy) : (s.raiseReusable c d).hbm = s.hbm := by
  unfold State.raiseReusable
  split <;> simp

@[simp] theorem State.modLaunch_hbm (s : State) (d : Nat) (f : Rec → Rec) : (s.modLaunch d f).hbm = s.hbm := rfl

@[simp] theorem State.saveArea_hbm (s : State) (d : Nat) : (s.saveArea d).hbm = s.hbm := by
  unfold State.saveArea
  dsimp only
  split <;> simp

theorem State.copySaveDone_hbm (s : State) (d : Nat) : ∀ s' ∈ s.copySaveDone d, s'.hbm = s.hbm := by simp [State.copySaveDone]

@[simp] theorem State.raiseVisible_hbm (s : State) (c : Nat) (d : Copy) : (s.raiseVisible c d).hbm = s.hbm := by
  unfold State.raiseVisible
  split <;> simp

theorem State.copyVisible_hbm (s : State) (c id : Nat) : ∀ s' ∈ s.copyVisible c id, s'.hbm = s.hbm := by
  unfold State.copyVisible
  split <;> simp

@[simp] theorem State.lateResidue_hbm (s : State) (c : Nat) : (s.lateResidue c).hbm = s.hbm := by
  unfold State.lateResidue
  dsimp only
  split <;> simp

@[simp] theorem State.residueTrap_hbm (s : State) (c : Nat) : (s.residueTrap c).state.hbm = s.hbm := by
  unfold State.residueTrap
  dsimp only
  split
  · split
    · simp [State.takeTrap_done_hbm ‹_›]
    · simp [State.takeTrap_ignored_hbm ‹_›]
  · simp

theorem State.coreArrive_hbm (s : State) (c slot : Nat) : ∀ s' ∈ s.coreArrive c slot, s'.hbm = s.hbm := by
  have htrap := State.residueTrap_hbm s c
  unfold State.coreArrive
  dsimp only
  split
  · split
    · simp
    · split
      · simp
      · split
        · split <;> simp_all
        · simp
  · simp

theorem State.corePark_hbm (s : State) (c : Nat) : ∀ s' ∈ s.corePark c, s'.hbm = s.hbm := by
  unfold State.corePark
  dsimp only
  split
  · split
    · simp
    · split <;> simp
  · simp

theorem State.passAll_hbm (s : State) (l : List (Nat × Nat)) : ∀ s' ∈ s.passAll l, s'.hbm = s.hbm := by
  induction l generalizing s with
  | nil =>
    rintro s' ⟨⟩
    rfl
  | cons a l ih =>
    intro s' h
    obtain ⟨t, ht, hrest⟩ := Option.bind_eq_some_iff.mp h
    obtain ⟨x, -, rfl⟩ := Option.map_eq_some_iff.mp ht
    exact (ih _ s' hrest).trans (State.modEdge_hbm _ _ _)

theorem State.cross_hbm (s : State) (a b : Nat) : ∀ s' ∈ s.cross a b, s'.hbm = s.hbm := by
  intro s' h
  unfold State.cross at h
  split at h
  · exact State.passAll_hbm s _ s' h
  · obtain ⟨l, -, hl⟩ := Option.bind_eq_some_iff.mp h
    exact State.passAll_hbm s l s' hl

theorem State.crossDelta_hbm (s : State) (d : Delta) : ∀ s' ∈ s.crossDelta d, s'.hbm = s.hbm := State.cross_hbm s _ _

theorem State.currentFallsBack_hbm (s : State) (d : Nat) : ∀ s' ∈ s.currentFallsBack d, s'.hbm = s.hbm := by
  simp [State.currentFallsBack]

@[simp] theorem State.logEvent_hbm (s : State) (src unit : Nat) : (s.logEvent src unit).hbm = s.hbm := by simp [State.logEvent]

theorem State.currentLimit_hbm (s : State) (d : Nat) : ∀ s' ∈ s.currentLimit d, s'.hbm = s.hbm := by simp [State.currentLimit]

theorem State.d2dFlitReceive_hbm (s : State) (e d : Nat) (seq : BitVec 8) (crcOk : Bool) :
    ∀ s' ∈ s.d2dFlitReceive e d seq crcOk, s'.hbm = s.hbm := by
  unfold State.d2dFlitReceive
  dsimp only
  split
  · simp
  · split
    · simp
    · split <;> simp

theorem State.d2dNak_hbm (s : State) (e d : Nat) : ∀ s' ∈ s.d2dNak e d, s'.hbm = s.hbm := by
  unfold State.d2dNak
  dsimp only
  split
  · simp
  · split <;> simp

theorem State.debuggerAttach_hbm (s : State) (c k : Nat) (on : Bool) : ∀ s' ∈ s.debuggerAttach c k on, s'.hbm = s.hbm := by
  unfold State.debuggerAttach
  split
  · simp
  · split <;> simp

theorem State.debuggerResume_hbm (s : State) (c k : Nat) : ∀ s' ∈ s.debuggerResume c k, s'.hbm = s.hbm := by
  simp [State.debuggerResume]

@[simp] theorem State.reportDone_hbm (s : State) (d : Nat) (who : Party) : (s.reportDone d who).hbm = s.hbm := by
  simp [State.reportDone]

@[simp] theorem State.sendDown_hbm (s : State) (d type : Nat) (x : Decision) : (s.sendDown d type x).hbm = s.hbm := by
  simp [State.sendDown]

@[simp] theorem State.nextEpoch_hbm (s : State) (d : Nat) : (s.nextEpoch d).hbm = s.hbm := by simp [State.nextEpoch]

@[simp] theorem State.falls_hbm (s : State) (d : Nat) (x : Decision) : (s.falls d x).hbm = s.hbm := by simp [State.falls]

@[simp] theorem State.decideAbortOf_hbm (s : State) (d acause budget : Nat) (strag : Nat × BitVec 32) (root : Pennant)
    (watchdog : Bool) :
    (s.decideAbortOf d acause budget strag root watchdog).hbm = s.hbm := by simp [State.decideAbortOf]

theorem State.decideProceed_hbm (s : State) (c slot : Nat) : ∀ s' ∈ s.decideProceed c slot, s'.hbm = s.hbm := by
  unfold State.decideProceed
  split
  · split <;> simp
  · simp

@[simp] theorem State.store_hbm (s : State) (d : Delta) : (s.store d).hbm = s.hbm := by
  unfold State.store
  split
  · simp
  · split
    · simp
    · split <;> simp
  · split <;> simp
  · split <;> simp

@[simp] theorem State.landDelta_hbm (s : State) (d : Delta) : (s.landDelta d).hbm = s.hbm := by
  unfold State.landDelta
  dsimp only
  split
  · simp
  · split <;> simp

/-- A fold of steps that may fail keeps the memory when each of its steps does. -/
theorem foldlM_hbm {α : Type} {f : State → α → Option State} (hf : ∀ s x, ∀ t ∈ f s x, t.hbm = s.hbm) (l : List α) (s : State)
    : ∀ t ∈ l.foldlM f s, t.hbm = s.hbm := by
  induction l generalizing s with
  | nil =>
    rintro t ⟨⟩
    rfl
  | cons x l ih =>
    intro t h
    obtain ⟨u, hu, hrest⟩ := Option.bind_eq_some_iff.mp h
    exact (ih u t hrest).trans (hf s x u hu)

theorem State.deltaArrive_hbm (s : State) (c seq : Nat) : ∀ s' ∈ s.deltaArrive c seq, s'.hbm = s.hbm := by
  intro s' h
  unfold State.deltaArrive at h
  dsimp only at h
  split at h
  · cases h
  · obtain ⟨t, ht, rfl⟩ := Option.map_eq_some_iff.mp h
    simpa using foldlM_hbm State.crossDelta_hbm _ _ t ht

theorem State.derate_hbm (s : State) (engine : Bool) (u : Nat) : ∀ s' ∈ s.derate engine u, s'.hbm = s.hbm := by
  unfold State.derate
  dsimp only
  split
  · split
    · simp
    · split <;> simp
  · split
    · simp
    · split <;> simp

@[simp] theorem State.resend_hbm (s : State) (a b : Nat) : (s.resend a b).hbm = s.hbm := by
  unfold State.resend
  cases h : (s.route a b).bind s.passAll with
  | none => rfl
  | some t =>
    obtain ⟨l, -, hl⟩ := Option.bind_eq_some_iff.mp h
    exact State.passAll_hbm s l t hl

@[simp] theorem State.detour_hbm (s : State) (e : Nat) (x : Edge) : (s.detour e x).hbm = s.hbm := by simp [State.detour]

@[simp] theorem State.tellAgain_hbm (s : State) (d : Nat) (before : List Nat) : (s.tellAgain d before).hbm = s.hbm := by
  unfold State.tellAgain
  dsimp only
  split <;> simp

@[simp] theorem State.sendDone_hbm (s : State) (d up : Nat) : (s.sendDone d up).hbm = s.hbm := by simp [State.sendDone]

@[simp] theorem State.shrink_hbm (s : State) (d : Nat) : (s.shrink d).hbm = s.hbm := by
  unfold State.shrink
  dsimp only
  simp

@[simp] theorem State.fallsAgain_hbm (s : State) (d : Nat) (x : Decision) : (s.fallsAgain d x).hbm = s.hbm := by
  unfold State.fallsAgain
  dsimp only
  split
  · simp
  · split <;> simp

@[simp] theorem State.memberChange_hbm (s : State) (d : Nat) : (s.memberChange d).hbm = s.hbm := by simp [State.memberChange]

theorem State.deviceFailed_hbm (s : State) (d dev : Nat) : ∀ s' ∈ s.deviceFailed d dev, s'.hbm = s.hbm := by
  unfold State.deviceFailed
  extract_lets m new before marked quit told ended
  have hmarked : marked.hbm = s.hbm := by
    unfold marked
    split <;> rfl
  have htold : told.hbm = s.hbm := by
    unfold told
    split <;> simp [hmarked]
  have hquit : ∀ s, (quit s).hbm = s.hbm := fun s => rfl
  have hended : ended.hbm = s.hbm := (hquit told).trans htold
  clear_value marked told quit ended
  split
  · simp
  · split
    · simp [hmarked]
    · split
      · split
        · simp [hended]
        · split <;> simp [hended]
      · split
        · simp [htold, hquit]
        · split
          · simp [htold]
          · split <;> simp [htold, hquit]

@[simp] theorem State.endLaunches_hbm (s : State) (n cause : Nat) : (s.endLaunches n cause).hbm = s.hbm := by
  simp [State.endLaunches]

@[simp] theorem State.holdNode_hbm (s : State) (n cause : Nat) : (s.holdNode n cause).hbm = s.hbm := by simp [State.holdNode]

@[simp] theorem State.endAs_hbm (s : State) (d status acause : Nat) : (s.endAs d status acause).hbm = s.hbm := by simp
    [State.endAs]

@[simp] theorem State.goOn_hbm (s : State) (d : Nat) (x : Decision) : (s.goOn d x).hbm = s.hbm := by
  unfold State.goOn
  dsimp only
  split <;> simp

@[simp] theorem State.resumes_hbm (s : State) (d : Nat) (x : Decision) : (s.resumes d x).hbm = s.hbm := by simp [State.resumes]

@[simp] theorem State.finishAbort_hbm (s : State) (d : Nat) (x : Decision) : (s.finishAbort d x).hbm = s.hbm := by
  unfold State.finishAbort
  dsimp only
  split
  · simp
  · split
    · split <;> simp
    · simp

@[simp] theorem State.startGang_hbm (s : State) (l : List (GangGroup × List Nat)) : (s.startGang l).hbm = s.hbm := by
  simp [State.startGang]

@[simp] theorem State.placeGangs_hbm (s : State) (d : Nat) : (s.placeGangs d).hbm = s.hbm := by
  refine (foldl_hbm (fun s x => ?_) _ _).trans (State.modDomain_hbm _ _ _)
  split <;> simp

@[simp] theorem State.storeRecord_hbm (s : State) (v : Nat) (r : Rec) : (s.storeRecord v r).hbm = s.hbm := by
  simp [State.storeRecord]

@[simp] theorem State.postPushed_hbm (s : State) (v : Nat) (words : List W64) : (s.postPushed v words).hbm = s.hbm := by
  simp [State.postPushed]

@[simp] theorem State.winState_hbm (s : State) (k win v : Nat) : (s.winState k win v).hbm = s.hbm := rfl

@[simp] theorem State.markStale_hbm (s : State) (d k : Nat) : (s.markStale d k).hbm = s.hbm := by
  unfold State.markStale
  dsimp only
  simp

@[simp] theorem State.finishCommit_hbm (s : State) (d : Nat) (x : Decision) : (s.finishCommit d x).hbm = s.hbm := by
  unfold State.finishCommit
  dsimp only
  simp

theorem State.donePennant_hbm (s : State) (d : Nat) : ∀ s' ∈ s.donePennant d, s'.hbm = s.hbm := by
  unfold State.donePennant
  dsimp only
  split
  · split <;> simp
  · split
    · simp
    · split <;> simp

@[simp] theorem State.rowOut_hbm (s : State) (t : Nat) (j : Job) (m : Nat) : (s.rowOut t j m).hbm = s.hbm := by simp
    [State.rowOut]

@[simp] theorem State.fillPos_hbm (s : State) (j : Job) (pos : Nat) : (s.fillPos j pos).hbm = s.hbm := by simp [State.fillPos]

@[simp] theorem State.failJob_hbm (s : State) (t : Nat) (j : Job) : (s.failJob t j).hbm = s.hbm := by simp [State.failJob]

@[simp] theorem State.dropBig_hbm (s : State) (v big : Nat) : (s.dropBig v big).hbm = s.hbm := rfl

@[simp] theorem State.dropCached_hbm (s : State) (v page : Nat) : (s.dropCached v page).hbm = s.hbm := rfl

@[simp] theorem State.dropBuffer_hbm (s : State) (v : Nat) (r : Rec) : (s.dropBuffer v r).hbm = s.hbm := by
  refine (State.modRec_hbm _ _ _ _).trans (foldl_hbm (fun s p => ?_) _ _)
  split <;> simp

@[simp] theorem State.dropTable_hbm (s : State) (v va : Nat) : (s.dropTable v va).hbm = s.hbm := by
  unfold State.dropTable
  split <;> simp

@[simp] theorem State.dropTableOf_hbm (s : State) (level v va : Nat) : (s.dropTableOf level v va).hbm = s.hbm := by
  simp [State.dropTableOf]

@[simp] theorem State.dropUntil_hbm (s : State) (n fuel : Nat) : (s.dropUntil n fuel).hbm = s.hbm := by
  induction fuel generalizing s with
  | zero => rfl
  | succ k ih =>
    unfold State.dropUntil
    split
    · rfl
    · split
      · rfl
      · exact (ih _).trans (State.dropBuffer_hbm _ _ _)

@[simp] theorem State.linkEvent_hbm (s : State) (c src unit : Nat) : (s.linkEvent c src unit).hbm = s.hbm := by
  simp [State.linkEvent]

theorem State.edgeDown_hbm (s : State) (e : Nat) : ∀ s' ∈ s.edgeDown e, s'.hbm = s.hbm := by
  unfold State.edgeDown
  dsimp only
  split
  · simp
  · rintro s' ⟨⟩
    refine (foldl_hbm (fun s p => ?_) _ _).trans (by simp)
    split <;> simp

@[simp] theorem State.lookups_hbm (s : State) (c v : Nat) (l : List Nat) : (s.lookups c v l).hbm = s.hbm := by
  induction l generalizing s with
  | nil => rfl
  | cons a r ih =>
    unfold State.lookups
    split <;> simp [ih]

@[simp] theorem State.flushLog_hbm (s : State) : s.flushLog.hbm = s.hbm := by
  refine foldl_hbm (fun s p => ?_) _ _
  split
  · split
    · exact (State.modPlat_hbm _ _).trans (State.writeLog_hbm _ _)
    · rfl
  · rfl

@[simp] theorem State.elhead_hbm (s : State) (v : W64) : (s.elhead v).hbm = s.hbm := by simp [State.elhead]

@[simp] theorem State.endRow_hbm (s : State) (c : Nat) : (s.endRow c).hbm = s.hbm := by
  unfold State.endRow
  split <;> simp

@[simp] theorem State.endStream_hbm (s : State) (k sid : Nat) : (s.endStream k sid).hbm = s.hbm := by
  unfold State.endStream
  split <;> simp

@[simp] theorem State.endTenant_hbm (s : State) (v : Nat) : (s.endTenant v).hbm = s.hbm := by simp [State.endTenant]

@[simp] theorem State.putBacked_hbm (s : State) (v page : Nat) (b : Backed) : (s.putBacked v page b).hbm = s.hbm := by
  unfold State.putBacked
  dsimp only
  split
  · rfl
  · exact (foldl_hbm (fun _ _ => State.hostWrite_hbm _ _ _ _) _ _).trans (State.modVf_hbm _ _ _)

@[simp] theorem State.exportTenant_hbm (s : State) : s.exportTenant.hbm = s.hbm := by
  unfold State.exportTenant
  dsimp only
  simp

theorem State.finish_hbm (s : State) (fn mac : Nat) : ∀ s' ∈ s.finish fn mac, s'.hbm = s.hbm :=
  State.negotiated_hbm (fun x => by split <;> simp) fn

theorem State.flashWrite_hbm (s : State) : ∀ s' ∈ s.flashWrite, s'.hbm = s.hbm := by simp [State.flashWrite]

@[simp] theorem State.flitLost_hbm (s : State) : (s.flitLost).hbm = s.hbm := rfl

@[simp] theorem State.flushOut_hbm (s : State) : (s.flushOut).hbm = s.hbm := by simp [State.flushOut]

@[simp] theorem State.forwardNodes_hbm (s : State) (d parent : Nat) : (s.forwardNodes d parent).hbm = s.hbm := by
  simp [State.forwardNodes]

@[simp] theorem State.startWrite_hbm (s : State) (b : FwBank) : (s.startWrite b).hbm = s.hbm := rfl

@[simp] theorem State.stage_hbm (s : State) : (s.stage).hbm = s.hbm := by simp [State.stage]

@[simp] theorem State.fwcmd_hbm (s : State) (v : W64) : (s.fwcmd v).hbm = s.hbm := by
  unfold State.fwcmd
  split
  · rfl
  · split
    · simp
    · split <;> simp

theorem State.getCapabilities_hbm (s : State) (fn : Nat) : ∀ s' ∈ s.getCapabilities fn, s'.hbm = s.hbm := by
  simp [State.getCapabilities]

theorem State.getCertificate_hbm (s : State) (fn : Nat) : ∀ s' ∈ s.getCertificate fn, s'.hbm = s.hbm := State.negotiated_hbm
    (fun _ => by simp) fn

theorem State.getMeasurements_hbm (s : State) (fn i : Nat) : ∀ s' ∈ s.getMeasurements fn i, s'.hbm = s.hbm :=
  State.negotiated_hbm (fun x => by split <;> simp) fn

theorem State.getVersion_hbm (s : State) (fn : Nat) : ∀ s' ∈ s.getVersion fn, s'.hbm = s.hbm := by simp [State.getVersion]

@[simp] theorem State.loadPart_hbm (s : State) (c k seq part value : Nat) (mark : Option Mark) :
    (s.loadPart c k seq part value mark).hbm = s.hbm := by simp [State.loadPart]

theorem State.gprepare_hbm (s : State) (c v : Nat) (va : W64) : ∀ s', s.gprepare c v va = .ok s' → s'.2.hbm = s.hbm := by
  intro s' h
  unfold State.gprepare at h
  split at h
  · cases h
  · cases h
  · dsimp only at h
    split at h
    · cases h; simp
    · split at h
      · split at h
        · cases h; simp
        · cases h
      · split at h
        · cases h
          exact (State.shadowFor_hbm _ _ _ _ _ (by assumption)).trans (State.lookup_hbm _ _ _ _ _)
        · cases h

@[simp] theorem State.handOver_hbm (s : State) (c : Nat) (elems : List Elem) : (s.handOver c elems).hbm = s.hbm := by
  simp [State.handOver]

@[simp] theorem State.spanEvents_hbm (s : State) (port : Nat) : (s.spanEvents port).hbm = s.hbm := by
  refine foldl_hbm (fun s p => ?_) _ _
  split <;> simp

theorem State.heartbeatFlit_hbm (s : State) (port errNs : Nat) : ∀ s' ∈ s.heartbeatFlit port errNs, s'.hbm = s.hbm := by
  unfold State.heartbeatFlit
  dsimp only
  split
  · simp
  · split
    · simp
    · split
      · simp
      · split <;> simp

@[simp] theorem State.unmapBig_hbm (s : State) (v i : Nat) : (s.unmapBig v i).hbm = s.hbm := by
  unfold State.unmapBig
  split
  · rfl
  · exact (State.dropBig_hbm _ _ _).trans ((State.modVf_hbm _ _ _).trans (foldl_hbm (fun s k => by simp) _ _))

@[simp] theorem State.unmap_hbm (s : State) (v page : Nat) : (s.unmap v page).hbm = s.hbm := by
  unfold State.unmap
  split <;> simp

theorem State.importConfirm_hbm (s : State) (v : Nat) : ∀ s' ∈ s.importConfirm v, s'.hbm = s.hbm := by
  unfold State.importConfirm
  dsimp only
  split <;> simp

@[simp] theorem State.moveMembership_hbm (s : State) (m : Membership) (src : Nat) : (s.moveMembership m src).hbm = s.hbm := by
  simp [State.moveMembership]

@[simp] theorem State.landJob_hbm (s : State) (v src : Nat) (m : Domain) : (s.landJob v src m).hbm = s.hbm := rfl

@[simp] theorem State.landColl_hbm (s : State) (v d c : Nat) (o : Coll) : (s.landColl v d c o).hbm = s.hbm := rfl

@[simp] theorem State.landLaunch_hbm (s : State) (v base : Nat) (x : Emigrant) (a : Area) (m : Domain) :
    (s.landLaunch v base x a m).hbm = s.hbm := by simp [State.landLaunch]

@[simp] theorem State.pullRecords_hbm (s : State) (v : Nat) (x : Emigrant) : (s.pullRecords v x).hbm = s.hbm := by
  simp [State.pullRecords]

theorem State.keyExchange_hbm (s : State) (fn share : Nat) : ∀ s' ∈ s.keyExchange fn share, s'.hbm = s.hbm :=
  State.negotiated_hbm (fun x => by split <;> simp) fn

@[simp] theorem State.killChain_hbm (s : State) (t : Nat) (ch : Chain) (e : Elem) : (s.killChain t ch e).hbm = s.hbm := by
  simp [State.killChain]

@[simp] theorem State.landElem_hbm (s : State) (t : Nat) (ch : Chain) (e : Elem) : (s.landElem t ch e).hbm = s.hbm := by
  simp [State.landElem]

@[simp] theorem State.linkChain_hbm (s : State) (k : Nat) : (s.linkChain k).hbm = s.hbm := by
  unfold State.linkChain
  split <;> simp

@[simp] theorem State.launchJob_hbm (s : State) (t : Nat) (j : Job) (status flags : Nat) : (s.launchJob t j status flags).hbm
    = s.hbm := by
  simp [State.launchJob]

@[simp] theorem State.sendControl_hbm (s : State) (port : Nat) (nak : Bool) : (s.sendControl port nak).hbm = s.hbm := rfl

@[simp] theorem State.takeReply_hbm (s : State) (l : List W64) : (s.takeReply l).hbm = s.hbm := by
  unfold State.takeReply
  dsimp only
  split <;> simp

@[simp] theorem State.takeRemote_hbm (s : State) (d : Delta) : (s.takeRemote d).hbm = s.hbm := by
  unfold State.takeRemote
  split <;> simp

@[simp] theorem State.takeDone_hbm (s : State) (d : Nat) (p : Pennant) : (s.takeDone d p).hbm = s.hbm := by
  unfold State.takeDone
  split <;> simp

@[simp] theorem State.takeFalling_hbm (s : State) (d ty ssn att : Nat) (x : Decision) : (s.takeFalling d ty ssn att x).hbm =
    s.hbm := by
  simp [State.takeFalling]

@[simp] theorem State.takeFabricPennant_hbm (s : State) (src epoch : Nat) (l : List W64) : (s.takeFabricPennant src epoch
    l).hbm = s.hbm := by
  unfold State.takeFabricPennant
  split
  · simp
  · simp
  · split
    · simp
    · split
      · split <;> simp
      · simp
      · rfl

@[simp] theorem State.takeControl_hbm (s : State) (port : Nat) (x : W64) : (s.takeControl port x).hbm = s.hbm := by
  simp [State.takeControl]

@[simp] theorem State.takeFlit_hbm (s : State) (port : Nat) (h : W64) (l : List W64) : (s.takeFlit port h l).hbm = s.hbm := by
  unfold State.takeFlit
  dsimp only
  split
  · simp
  · split <;> simp
  · simp
  · simp
  · simp
  · simp
  · simp

theorem State.llynnalFlitReceive_hbm (s : State) (port : Nat) (h : W64) (l : List W64) (crc : W64) : ∀ s' ∈
    s.llynnalFlitReceive port h l crc, s'.hbm = s.hbm := by
  unfold State.llynnalFlitReceive
  extract_lets p seq lost passed answered
  have hlost : lost.hbm = s.hbm := by simp [lost]
  have hanswered : answered.hbm = s.hbm := by
    unfold answered
    split <;> simp [passed]
  clear_value lost passed answered
  split
  · simp
  · split
    · simp
    · split
      · split <;> simp [hlost]
      · split
        · simp
        · split
          · split <;> simp [hanswered]
          · split <;> simp [hanswered]

@[simp] theorem State.loadSend_hbm (s : State) (c k seq : Nat) (a : W64) (n : Nat) : (s.loadSend c k seq a n).hbm = s.hbm := by
  simp [State.loadSend]

@[simp] theorem State.lwcancel_hbm (s : State) (v : Nat) (x : W64) : (s.lwcancel v x).hbm = s.hbm := by
  unfold State.lwcancel
  dsimp only
  split
  · simp
  · split
    · simp
    · split <;> simp

@[simp] theorem State.lwcqhead_hbm (s : State) (v : Nat) (x : W64) : (s.lwcqhead v x).hbm = s.hbm := by simp [State.lwcqhead]

@[simp] theorem State.posted_hbm (s : State) (v result : Nat) : (s.posted v result).hbm = s.hbm := rfl

@[simp] theorem State.lwpost_hbm (s : State) (v : Nat) (x : W64) : (s.lwpost v x).hbm = s.hbm := by simp [State.lwpost]

@[simp] theorem State.marginExcess_hbm (s : State) (c : Nat) (unit : optParam Nat (s.gcid c)) : (s.marginExcess c unit).hbm =
    s.hbm := by
  simp [State.marginExcess]

theorem State.matrixJobComplete_hbm (s : State) (t : Nat) : ∀ s' ∈ s.matrixJobComplete t, s'.hbm = s.hbm := by
  unfold State.matrixJobComplete
  split <;> simp

@[simp] theorem State.membershipLoad_hbm (s : State) : (s.membershipLoad).hbm = s.hbm := by simp [State.membershipLoad]

@[simp] theorem State.memoryError_hbm (s : State) (src user addr : Nat) (corrected : Bool) :
    (s.memoryError src user addr corrected).hbm = s.hbm := by simp [State.memoryError]

@[simp] theorem State.nodeResult_hbm (s : State) (n k : Nat) : (s.nodeResult n k).hbm = s.hbm := rfl

@[simp] theorem State.merge_hbm (s : State) (n : Nat) : (s.merge n).hbm = s.hbm := by simp [State.merge]

theorem State.moduleRetrain_hbm (s : State) (e m : Nat) : ∀ s' ∈ s.moduleRetrain e m, s'.hbm = s.hbm := by simp
    [State.moduleRetrain]

theorem State.moduleRetrainDone_hbm (s : State) (e m : Nat) (l0 l1 : List Nat) : ∀ s' ∈ s.moduleRetrainDone e m l0 l1, s'.hbm
    = s.hbm := by
  unfold State.moduleRetrainDone
  dsimp only
  split <;> simp

@[simp] theorem State.moveLog_hbm (s : State) : (s.moveLog).hbm = s.hbm := rfl

theorem State.negotiateAlgorithms_hbm (s : State) (fn : Nat) (dsa sha kem gcm : Bool) :
    ∀ s' ∈ s.negotiateAlgorithms fn dsa sha kem gcm, s'.hbm = s.hbm := by simp [State.negotiateAlgorithms]

theorem State.popChore_hbm (s : State) : ∀ s' ∈ s.popChore, s'.2.hbm = s.hbm := by
  unfold State.popChore
  split <;> simp

theorem State.popContext_hbm (s : State) : ∀ s' ∈ s.popContext, s'.2.hbm = s.hbm := by
  unfold State.popContext
  split <;> simp

@[simp] theorem State.nextWork_hbm (s : State) : s.nextWork.2.hbm = s.hbm := by
  unfold State.nextWork
  split
  · rfl
  · dsimp only
    split
    case h_1 h =>
      split at h
      · cases h
      · exact State.popChore_hbm s _ h
    case h_2 h => exact State.popContext_hbm s _ h
    case h_3 h => exact State.popChore_hbm s _ h
    case h_4 => rfl

@[simp] theorem State.paddockConfigWrite_hbm (s : State) (n off : Nat) (x : W64) : (s.paddockConfigWrite n off x).hbm = s.hbm
    := by
  simp [State.paddockConfigWrite]

theorem State.takeEntry_hbm (s : State) (c : Nat) (l : Loc) : ∀ s', s.takeEntry c l = .ok s' → s'.2.hbm = s.hbm := by
  unfold State.takeEntry
  dsimp only
  split
  · simp
  · simp
  · split
    · simp
    · split <;> simp
  · split
    · simp
    · split
      · simp
      · split
        · split <;> simp
        · simp

@[simp] theorem State.sendAway_hbm (s : State) (c dev bytes : Nat) (words : List W64) : (s.sendAway c dev bytes words).hbm =
    s.hbm := by
  simp [State.sendAway]

theorem reserveEach_hbm {α : Type} {one : State → α → Except EStop State} (hone : ∀ s a s', one s a = .ok s' → s'.hbm = s.hbm)
    (s : State) (lines : List α) : ∀ s', reserveEach one s lines = .ok s' → s'.hbm = s.hbm := by
  induction lines generalizing s with
  | nil =>
    rintro s' ⟨⟩
    rfl
  | cons a r ih =>
    intro s' h
    unfold reserveEach at h
    split at h
    · exact (ih _ s' h).trans (hone s a _ ‹_›)
    · split at h <;> cases h

theorem State.reserve1_hbm (s : State) (c : Nat) (g : Bool) (a : W64) : ∀ s', s.reserve1 c g a = .ok s' → s'.hbm = s.hbm := by
  intro s' h
  unfold State.reserve1 at h
  split at h
  · cases h; rfl
  · cases h
  · dsimp only at h
    split at h
    · cases h; rfl
    · cases h
  · split at h
    · cases h; rfl
    · cases h
  · split at h
    · cases h; rfl
    · cases h
  · split at h
    · cases h
      exact State.shadowFor_hbm _ _ _ _ _ ‹_›
    · cases h

theorem State.reserveAll_hbm (s : State) (c : Nat) (g : Bool) (lines : List W64) : ∀ s', s.reserveAll c g lines = .ok s' →
    s'.hbm = s.hbm :=
  reserveEach_hbm (fun s a => State.reserve1_hbm s c g a) s lines

@[simp] theorem State.winsetNow_hbm (s : State) (c win : Nat) (e : Win) : (s.winsetNow c win e).hbm = s.hbm := by
  unfold State.winsetNow
  dsimp only
  split <;> simp

@[simp] theorem State.winsetLater_hbm (s : State) (c win : Nat) (e : Win) : (s.winsetLater c win e).hbm = s.hbm := rfl

theorem State.reserveAs_hbm (s : State) (c k : Nat) (g : Bool) (a : Nat) : ∀ s', s.reserveAs c k g a = .ok s' → s'.hbm = s.hbm
    := by
  intro s' h
  unfold State.reserveAs at h
  split at h
  · exact State.reserve1_hbm _ _ _ _ _ h
  · split at h
    · split at h
      · cases h; rfl
      · split at h
        · cases h; rfl
        · cases h
    · cases h; rfl

theorem State.walkerFetch_hbm (s : State) (c k w : Nat) : ∀ s' ∈ s.walkerFetch c k w, s'.hbm = s.hbm := by
  unfold State.walkerFetch
  dsimp only
  split
  · split <;> simp
  · simp

theorem State.walkerWrite_hbm (s : State) (c k w : Nat) : ∀ s' ∈ s.walkerWrite c k w, s'.hbm = s.hbm := by
  unfold State.walkerWrite
  split <;> simp

theorem State.translationWalk_hbm (s : State) (c page : Nat) (write : Bool) : ∀ s' ∈ s.translationWalk c page write, s'.hbm =
    s.hbm := by
  unfold State.translationWalk
  dsimp only
  split <;> simp

theorem State.startMessage_hbm (s : State) (c : Nat) (pc arg : W64) : ∀ s' ∈ s.startMessage c pc arg, s'.hbm = s.hbm := by
  unfold State.startMessage
  split
  · simp
  · split
    · simp
    · split <;> simp

@[simp] theorem State.rootDecide_hbm (s : State) (d : Nat) (root : Pennant) : (s.rootDecide d root).hbm = s.hbm := by
  simp [State.rootDecide]

@[simp] theorem State.takePennant_hbm (s : State) (d : Nat) (p : Pennant) : (s.takePennant d p).hbm = s.hbm := by
  unfold State.takePennant
  dsimp only
  split
  · simp
  · split
    · simp
    · split
      · simp
      · split <;> simp

theorem State.risingPennant_hbm (s : State) (d : Nat) : ∀ s' ∈ s.risingPennant d, s'.hbm = s.hbm := by
  intro s' h
  unfold State.risingPennant at h
  dsimp only at h
  split at h
  · cases h
  · obtain ⟨t, ht, rfl⟩ := Option.map_eq_some_iff.mp h
    have hbefore : t.hbm = s.hbm := by
      split at ht
      · cases ht; simp
      · exact State.advanceInsts_hbm s d t ht
    split <;> simp [hbefore]

theorem State.pollTimer_hbm (s : State) (d : Nat) : ∀ s' ∈ s.pollTimer d, s'.hbm = s.hbm := by
  unfold State.pollTimer
  dsimp only
  split <;> simp

theorem State.poll_hbm (s : State) (d : Nat) (who : Party) : ∀ s' ∈ s.poll d who, s'.hbm = s.hbm := by
  unfold State.poll
  dsimp only
  split
  · simp
  · split
    · split <;> simp
    · simp

theorem State.resume_hbm (s : State) (c : Nat) : ∀ s' ∈ s.resume c, s'.hbm = s.hbm := by
  unfold State.resume
  dsimp only
  split
  · split
    · simp
    · split
      · simp
      · split <;> simp
  · simp

theorem State.watchdogExpiry_hbm (s : State) (d : Nat) : ∀ s' ∈ s.watchdogExpiry d, s'.hbm = s.hbm := by
  unfold State.watchdogExpiry
  dsimp only
  split <;> simp

theorem State.timingReplay_hbm (s : State) (engine : Bool) (u : Nat) : ∀ s' ∈ s.timingReplay engine u, s'.hbm = s.hbm := by
  unfold State.timingReplay
  dsimp only
  split
  · split
    · simp
    · split <;> simp
  · simp

theorem State.thermalTrip_hbm (s : State) (hbm : Bool) (u t : Nat) : ∀ s' ∈ s.thermalTrip hbm u t, s'.hbm = s.hbm := by
  simp [State.thermalTrip]

@[simp] theorem State.writeRw_hbm (s : State) (off : Nat) (v reserved : W64) : (s.writeRw off v reserved).hbm = s.hbm := by
  simp [State.writeRw]

@[simp] theorem State.split_hbm (s : State) (n : Nat) : (s.split n).hbm = s.hbm := by simp [State.split]

@[simp] theorem State.unbind_hbm (s : State) (v : Nat) : (s.unbind v).hbm = s.hbm := by simp [State.unbind]

@[simp] theorem State.release_hbm (s : State) (n : Nat) : (s.release n).hbm = s.hbm := by simp [State.release]

@[simp] theorem State.writeNode_hbm (s : State) (n off : Nat) (v : W64) : (s.writeNode n off v).hbm = s.hbm := by
  unfold State.writeNode
  split
  · split
    · simp
    · split <;> simp
  · simp

@[simp] theorem State.vfBind_hbm (s : State) (v : Nat) (x : W64) : (s.vfBind v x).hbm = s.hbm := by simp [State.vfBind]

@[simp] theorem State.writeTenant_hbm (s : State) (v off : Nat) (x : W64) : (s.writeTenant v off x).hbm = s.hbm := by
  simp [State.writeTenant]

@[simp] theorem State.teDone_hbm (s : State) (result : Nat) : (s.teDone result).hbm = s.hbm := rfl

@[simp] theorem State.shresCmd_hbm (s : State) : (s.shresCmd).1.hbm = s.hbm := by
  unfold State.shresCmd
  dsimp only
  split
  · simp
  · split <;> simp

theorem State.wrcmdResume_hbm (s : State) (v : W64) : ∀ s' ∈ s.wrcmdResume v, s'.hbm = s.hbm := by
  unfold State.wrcmdResume
  dsimp only
  split
  · simp
  · split
    · simp
    · split <;> simp

@[simp] theorem State.wrcmd_hbm (s : State) (v : W64) : (s.wrcmd v).hbm = s.hbm := by
  unfold State.wrcmd
  split
  · simp
  · split
    · simp
    · cases h : s.wrcmdResume v with
      | none => rfl
      | some t => exact State.wrcmdResume_hbm s v t h
    · rfl

@[simp] theorem State.wdbudget_hbm (s : State) (v : W64) : (s.wdbudget v).hbm = s.hbm := by
  unfold State.wdbudget
  split
  · rfl
  · split
    · rfl
    · split <;> simp

@[simp] theorem State.writeEdge_hbm (s : State) (e off : Nat) (v : W64) : (s.writeEdge e off v).hbm = s.hbm := by
  simp [State.writeEdge]

@[simp] theorem State.writeLink_hbm (s : State) (off : Nat) (v : W64) : (s.writeLink off v).hbm = s.hbm := by simp
    [State.writeLink]

@[simp] theorem State.pwDone_hbm (s : State) (k : Nat) : (s.pwDone k).hbm = s.hbm := rfl

@[simp] theorem State.pwcmd_hbm (s : State) (v : W64) : (s.pwcmd v).hbm = s.hbm := by simp [State.pwcmd]

@[simp] theorem State.pwgate_hbm (s : State) (v : W64) : (s.pwgate v).hbm = s.hbm := by simp [State.pwgate]

@[simp] theorem State.pwhbm_hbm (s : State) (v : W64) : (s.pwhbm v).hbm = s.hbm := rfl

@[simp] theorem State.writePower_hbm (s : State) (off : Nat) (v : W64) : (s.writePower off v).hbm = s.hbm := by
  simp [State.writePower]

@[simp] theorem State.writeVf_hbm (s : State) (v off : Nat) (x : W64) : (s.writeVf v off x).hbm = s.hbm := by simp
    [State.writeVf]

theorem State.recomputeDrop_hbm (s : State) (n : Nat) : ∀ s' ∈ s.recomputeDrop n, s'.hbm = s.hbm := by
  unfold State.recomputeDrop
  split <;> simp

theorem State.saveSignal_hbm (s : State) (c : Nat) : ∀ s' ∈ s.saveSignal c, s'.hbm = s.hbm := by
  unfold State.saveSignal
  dsimp only
  split
  · simp
  · split
    · simp
    · split <;> simp

@[simp] theorem State.restoreArea_hbm (s : State) (d : Nat) (a : Area) (r : Rec) : (s.restoreArea d a r).hbm = s.hbm := by
  unfold State.restoreArea
  dsimp only
  simp

theorem State.restoreDone_hbm (s : State) (d : Nat) : ∀ s' ∈ s.restoreDone d, s'.hbm = s.hbm := by
  unfold State.restoreDone
  dsimp only
  split <;> simp

theorem State.portRetrain_hbm (s : State) (port : Nat) : ∀ s' ∈ s.portRetrain port, s'.hbm = s.hbm := by simp
    [State.portRetrain]

theorem State.powerStateApply_hbm (s : State) (n : Nat) : ∀ s' ∈ s.powerStateApply n, s'.hbm = s.hbm := by
  simp [State.powerStateApply]

theorem State.setkey_hbm (s : State) (v : Nat) (key : BitVec 512) : ∀ s' ∈ s.setkey v key, s'.hbm = s.hbm := by simp
    [State.setkey]

theorem State.tdispLock_hbm (s : State) (v : Nat) : ∀ s' ∈ s.tdispLock v, s'.hbm = s.hbm := by simp [State.tdispLock]

theorem State.tdispStart_hbm (s : State) (v : Nat) : ∀ s' ∈ s.tdispStart v, s'.hbm = s.hbm := by simp [State.tdispStart]

theorem State.stopInterface_hbm (s : State) (v : Nat) : ∀ s' ∈ s.stopInterface v, s'.hbm = s.hbm := by
  unfold State.stopInterface
  split
  · simp
  · split <;> simp

theorem State.portRetrainDone_hbm (s : State) (port : Nat) (ok : Bool) : ∀ s' ∈ s.portRetrainDone port ok, s'.hbm = s.hbm := by
  unfold State.portRetrainDone
  dsimp only
  split
  · simp
  · split
    · simp
    · split <;> simp

theorem State.recoverySelfTest_hbm (s : State) (engine : Bool) (u : Nat) : ∀ s' ∈ s.recoverySelfTest engine u, s'.hbm = s.hbm
    := by
  simp [State.recoverySelfTest]

@[simp] theorem State.rovasCommand_hbm (s : State) : (s.rovasCommand).hbm = s.hbm := rfl

@[simp] theorem State.poisonLine_hbm (s : State) (c addr : Nat) : (s.poisonLine c addr).hbm = s.hbm := by
  unfold State.poisonLine
  split <;> simp

@[simp] theorem State.temperature_hbm (s : State) (d t : Nat) : (s.temperature d t).hbm = s.hbm := by
  unfold State.temperature
  split
  · exact State.thermalTrip_hbm s _ _ _ _ ‹_›
  · split <;> simp

@[simp] theorem State.spdmUnlisted_hbm (s : State) (fn version : Nat) : (s.spdmUnlisted fn version).hbm = s.hbm := rfl

@[simp] theorem State.pfePromote_hbm (s : State) (t id : Nat) : (s.pfePromote t id).hbm = s.hbm := by simp [State.pfePromote]

theorem State.storeWrite_hbm (s : State) (c k : Nat) : ∀ s' ∈ s.storeWrite c k, s'.hbm = s.hbm := by
  unfold State.storeWrite
  dsimp only
  split <;> simp

@[simp] theorem State.scStart_hbm (s : State) (c k scope seq : Nat) : (s.scStart c k scope seq).hbm = s.hbm := by
  simp [State.scStart]

theorem State.scFence_hbm (s : State) (c k : Nat) : ∀ s' ∈ s.scFence c k, s'.hbm = s.hbm := by
  unfold State.scFence
  split
  · simp
  · split
    · split <;> simp
    · split <;> simp

end Sys2Proof.Machine

namespace Sys2Proof.Machine

/-! SUPPORT. What writes the memory of HBM keeps it in its canonical form. -/

open Sys2Proof

/-- A memory in its canonical form. -/
def Canonical (m : List Host.Cell) : Prop := Memory.wf m

theorem Canonical.of_eq {s t : State} (h : Canonical s.hbm) (e : t.hbm = s.hbm) : Canonical t.hbm := e ▸ h

/-- What runs in a unit keeps the memory canonical, when it goes on. -/
def Keeps {ε α : Type} (m : StateT State (Except ε) α) : Prop :=
  ∀ s x t, m.run s = .ok (x, t) → Canonical s.hbm → Canonical t.hbm

/-! ### Combinators -/

section
variable {ε α β : Type} {m : StateT State (Except ε) α} {f : α → StateT State (Except ε) β}

@[simp] theorem Keeps.pure (x : α) : Keeps (Pure.pure x : StateT State (Except ε) α) := by
  rintro s y t ⟨⟩ h
  exact h

@[simp] theorem Keeps.throw (e : ε) : Keeps (throw e : StateT State (Except ε) α) := by
  rintro s y t h
  cases h

@[simp] theorem Keeps.get : Keeps (MonadStateOf.get : StateT State (Except ε) State) := by
  rintro s y t ⟨⟩ h
  exact h

theorem Keeps.set {u : State} (hu : Canonical u.hbm) : Keeps (MonadStateOf.set u : StateT State (Except ε) PUnit) := by
  rintro s y t ⟨⟩ -
  exact hu

theorem Keeps.modify {g : State → State} (hg : ∀ s, (g s).hbm = s.hbm) :
    Keeps (modify g : StateT State (Except ε) PUnit) := by
  rintro s y t ⟨⟩ h
  exact h.of_eq (hg s)

theorem Keeps.bind (hm : Keeps m) (hf : ∀ x, Keeps (f x)) : Keeps (m >>= f) := by
  intro s y t hrun hs
  change (m.run s).bind (fun p => (f p.1).run p.2) = .ok (y, t) at hrun
  cases hr : m.run s with
  | error e =>
    rw [hr] at hrun
    cases hrun
  | ok p =>
    rw [hr] at hrun
    exact hf p.1 p.2 y t hrun (hm s p.1 p.2 hr hs)

/-- What reads the state first may take its memory to be canonical. -/
theorem Keeps.getBind {f : State → StateT State (Except ε) β} (hf : ∀ s, Canonical s.hbm → Keeps (f s)) :
    Keeps (MonadStateOf.get >>= f) := fun s y t hrun hs => hf s hs s y t hrun hs

theorem Keeps.ite {p : Prop} [Decidable p] {a b : StateT State (Except ε) α} (ha : Keeps a) (hb : Keeps b) :
    Keeps (if p then a else b) := by
  split
  · exact ha
  · exact hb

theorem Keeps.mapM {g : α → StateT State (Except ε) β} (hg : ∀ x, Keeps (g x)) (l : List α) : Keeps (l.mapM g) := by
  induction l with
  | nil =>
    rw [List.mapM_nil]
    exact .pure _
  | cons x l ih =>
    rw [List.mapM_cons]
    exact .bind (hg x) fun _ => .bind ih fun _ => .pure _

end

/-- A fold of steps that may stop keeps what each of its steps keeps. -/
theorem foldlM_ok_keeps {σ ε α : Type} {P : σ → Prop} {f : σ → α → Except ε σ} (hf : ∀ s a t, f s a = .ok t → P s → P t)
    (l : List α) {s t : σ} (h : l.foldlM f s = .ok t) (hs : P s) : P t := by
  induction l generalizing s with
  | nil =>
    cases h
    exact hs
  | cons a l ih =>
    rw [List.foldlM_cons] at h
    cases hr : f s a with
    | error e =>
      rw [hr] at h
      cases h
    | ok u =>
      rw [hr] at h
      exact ih h (hf s a u hr hs)

theorem foldlM_some_keeps {σ α : Type} {P : σ → Prop} {f : σ → α → Option σ} (hf : ∀ s a t, f s a = some t → P s → P t)
    (l : List α) {s t : σ} (h : l.foldlM f s = some t) (hs : P s) : P t := by
  induction l generalizing s with
  | nil =>
    cases h
    exact hs
  | cons a l ih =>
    obtain ⟨u, hu, hrest⟩ := Option.bind_eq_some_iff.mp h
    exact ih hrest (hf s a u hu hs)

/-- A fold keeps the memory canonical when each of its steps does. -/
theorem foldl_canonical {α : Type} {f : State → α → State} (hf : ∀ s x, Canonical s.hbm → Canonical (f s x).hbm)
    (l : List α) {s : State} (h : Canonical s.hbm) : Canonical (l.foldl f s).hbm :=
  foldl_keeps (P := fun t : State => Canonical t.hbm) hf l h

/-! ### Bytes and lines -/

section
variable {s : State} (h : Canonical s.hbm)
include h

@[simp] theorem State.hputb_canonical (a : Nat) (b : Byte) : Canonical (s.hputb a b).hbm := State.hputb_wf s a b h

@[simp] theorem State.hwrite_canonical (a n v : Nat) : Canonical (s.hwrite a n v).hbm := State.hwrite_wf s a n v h

@[simp] theorem State.scrubLine_canonical (phys : Nat) : Canonical (s.scrubLine phys).hbm := State.scrubLine_wf s phys h

@[simp] theorem State.performGlobal_canonical (v : Nat) (va : W64) (n x m : Nat) :
    Canonical (s.performGlobal v va n x m).hbm := State.performGlobal_wf s v va n x m h

theorem State.copyLine_canonical (src dst : Nat) : Canonical (s.copyLine src dst).hbm := by
  unfold State.copyLine
  rw [State.copyPoison_hbm]
  simp [h]

theorem State.scrubFrame_canonical (f : Nat) : Canonical (s.scrubFrame f).hbm := by
  unfold State.scrubFrame
  exact foldl_canonical (fun _ _ ht => State.scrubLine_canonical ht _) (List.range 1024) h

theorem State.fillFrame_canonical (f : Nat) (l : Bytes) : Canonical (s.fillFrame f l).hbm := by
  unfold State.fillFrame
  exact foldl_canonical (fun _ _ ht => State.hputb_canonical ht _ _) l (State.scrubFrame_canonical h f)

theorem State.performAs_canonical (c v : Nat) (va : W64) (n x m : Nat) : Canonical (s.performAs c v va n x m).hbm := by
  unfold State.performAs
  split
  · exact State.performGlobal_canonical (h.of_eq (State.lookup_hbm _ _ _ _ _)) _ _ _ _ _
  · exact h

/-! ### What an engine reads and writes -/

theorem State.ewrite_canonical {c : Nat} {g : Bool} {a : W64} {n x seq : Nat} {t : State}
    (ht : s.ewrite c g a n x seq = .ok t) : Canonical t.hbm := by
  unfold State.ewrite at ht
  dsimp only at ht
  split at ht
  · split at ht
    · cases ht
    · cases ht
    · split at ht
      · cases ht
        simpa using h
      · split at ht
        · cases ht
          simp [h]
        · split at ht
          · cases ht
            exact State.performGlobal_canonical (h.of_eq ((State.shadowFor_hbm _ _ _ _ _ (by assumption)).trans
              (State.lookup_hbm _ _ _ _ _))) _ _ _ _ _
          · cases ht
  · split at ht
    · cases ht
    · cases ht
      simpa using h
    · split at ht
      · cases ht
        exact h.of_eq ((State.share_hbm _ _ _).trans (State.lwriteAt_hbm _ _ _ _ _ _ _ (by assumption)))
      · cases ht

theorem State.writeAs_canonical {w : Actor} {g : Bool} {a : W64} {n x seq : Nat} {t : State}
    (ht : s.writeAs w g a n x seq = .ok t) : Canonical t.hbm := by
  unfold State.writeAs at ht
  split at ht
  · exact State.ewrite_canonical h ht
  · split at ht
    · cases ht
    · split at ht
      · cases ht
        simpa using h
      · split at ht <;> cases ht <;> simpa using h
    · cases ht
      simpa using h

theorem State.writeResults_canonical {w : Actor} {b : Bank} {words : List (Nat × Nat)} {t : State}
    (ht : s.writeResults w b words = .ok t) : Canonical t.hbm :=
  foldlM_ok_keeps (P := fun t => Canonical t.hbm) (fun _ _ _ hu hs => State.writeAs_canonical hs hu) _ ht h

theorem State.eread_canonical {c : Nat} {g : Bool} {a : W64} {n : Nat} {r : Nat × State} (hr : s.eread c g a n = .ok r) :
    Canonical r.2.hbm := by
  unfold State.eread at hr
  dsimp only at hr
  split at hr
  · split at hr
    · cases hr
    · cases hr
    · split at hr
      · cases hr
      · cases hr
        simp [h]
  · split at hr
    · cases hr
    · cases hr
      simpa using h
    · split at hr
      · cases hr
      · split at hr
        · cases hr
        · cases hr
          exact h

theorem State.readAs_canonical {w : Actor} {g : Bool} {a : W64} {n : Nat} {r : Nat × State} (hr : s.readAs w g a n = .ok r) :
    Canonical r.2.hbm := by
  unfold State.readAs at hr
  split at hr
  · exact State.eread_canonical h hr
  · split at hr
    · cases hr
    · cases hr
      simpa using h
    · split at hr
      · cases hr
      · cases hr
        exact h

theorem State.writeElems_canonical {w : Actor} {g : Bool} {seq : Nat} {l : List (W64 × Nat × Nat)} {t : State}
    (ht : s.writeElems w g seq l = .ok t) : Canonical t.hbm :=
  foldlM_ok_keeps (P := fun t => Canonical t.hbm) (fun _ _ _ hu hs => State.writeAs_canonical hs hu) _ ht (by simpa using h)

theorem State.writeWords_canonical {c : Nat} {g : Bool} {seq : Nat} {lines : List Nat} {l : List (W64 × Nat)} {t : State}
    (ht : s.writeWords c g seq lines l = .ok t) : Canonical t.hbm := by
  induction l generalizing s with
  | nil =>
    cases ht
    exact h
  | cons p l ih =>
    unfold State.writeWords at ht
    split at ht
    · cases ht
    · exact ih (State.ewrite_canonical h (by assumption)) ht

theorem State.readWords_canonical {c : Nat} {g : Bool} {addrs : List W64} {r : List Nat × State}
    (hr : s.readWords c g addrs = .ok r) : Canonical r.2.hbm := by
  induction addrs generalizing s r with
  | nil =>
    cases hr
    exact h
  | cons a l ih =>
    unfold State.readWords at hr
    split at hr
    · cases hr
    · split at hr
      · cases hr
      · cases hr
        have hread := State.eread_canonical h ‹s.eread c g a 8 = _›
        have hrest := ih hread ‹State.readWords _ c g l = _›
        exact hrest

end

theorem readWord_keeps (w : Actor) (g : Bool) (a : W64) : Keeps (readWord w g a) :=
  fun _ _ _ hrun hs => State.readAs_canonical hs hrun

/-! ### What the units read while they run -/

theorem readSpan_keeps (w : Actor) (g : Bool) (base off n : Nat) : Keeps (readSpan w g base off n) :=
  .bind (.mapM (fun _ => .bind .get fun _ => readWord_keeps _ _ _) _) fun _ => .pure _

theorem readBankRow_keeps (w : Actor) (b : Bank) (r : Nat) : Keeps (readBankRow w b r) :=
  .bind (readSpan_keeps _ _ _ _ _) fun _ => .bind (readSpan_keeps _ _ _ _ _) fun _ => .bind (readSpan_keeps _ _ _ _ _) fun _ =>
    .pure _

theorem regionRule_keeps (v : Nat) (b : Bank) : Keeps (regionRule v b) := by
  refine .bind .get fun s => .bind (.mapM (fun x => ?_) _) fun _ => .pure _
  split
  · exact .throw _
  · exact .ite (.pure _) (.throw _)

theorem readCodes_keeps (w : Actor) (v : View) (r n : Nat) : Keeps (readCodes w v r n) :=
  .ite (.pure _) (.bind .get fun _ => .bind (.mapM (fun _ => readWord_keeps _ _ _) _) fun _ => .pure _)

theorem readSmall_keeps (w : Actor) (g : Bool) (a : W64) (n : Nat) : Keeps (readSmall w g a n) :=
  .bind (readWord_keeps _ _ _) fun _ => .pure _

theorem readScale_keeps (w : Actor) (v : View) (r c : Nat) : Keeps (readScale w v r c) :=
  .bind .get fun _ => readSmall_keeps _ _ _ _

theorem readBand_keeps (w : Actor) (v : View) (i : Nat) : Keeps (readBand w v i) :=
  .bind .get fun _ => readSmall_keeps _ _ _ _

theorem readBands_keeps (w : Actor) (v : View) (n : Nat) : Keeps (readBands w v n) :=
  .ite (.pure _) (.mapM (fun _ => .bind (readBand_keeps _ _ _) fun _ => .pure _) _)

theorem readRow_keeps (w : Actor) (v src : View) (r n : Nat) : Keeps (readRow w v src r n) := by
  have hscale : ∀ b, Keeps (do return (b, ← readScale w v r (8 * b))) := fun b => .bind (readScale_keeps _ _ _ _) fun _ => .pure
    _
  refine .bind (readCodes_keeps _ _ _ _) fun codes => .ite (.bind (.pure _) fun scales => ?_) (.bind (.mapM hscale _) fun scales
    => ?_)
  · exact .bind (readBands_keeps _ _ _) fun _ => .pure _
  · exact .bind (readBands_keeps _ _ _) fun _ => .pure _

theorem readTile_keeps (w : Actor) (v : View) (west : Bool) : Keeps (readTile w v west) := by
  refine .bind (.mapM (fun _ => readCodes_keeps _ _ _ _) _) fun _ => .ite (.bind (.pure _) fun scales => ?_)
    (.bind (.mapM (fun b => .mapM (fun n => .ite ?_ ?_) _) _) fun scales => ?_)
  · exact .bind (readBands_keeps _ _ _) fun _ => .pure _
  · exact .bind (readScale_keeps _ _ _ _) fun _ => .pure _
  · exact .bind (readScale_keeps _ _ _ _) fun _ => .pure _
  · exact .bind (readBands_keeps _ _ _) fun _ => .pure _

theorem readTaken_keeps (w : Actor) (atv : View) (m n : Nat) (r : StreamRow) : Keeps (readTaken w atv m n r) := by
  have hbands : ∀ (k : Nat) (g : Tab Nat → StreamRow) (p : Prop) [Decidable p],
      Keeps (if p then (do let bands ← pure r.bands; pure (g bands)) else (do let bands ← readBands w atv k; pure (g bands))) :=
    fun k g p _ => .ite (.bind (.pure _) fun _ => .pure _) (.bind (readBands_keeps _ _ _) fun _ => .pure _)
  have hscale : ∀ b, Keeps (do return (b, ← readScale w atv m (8 * b))) := fun b => .bind (readScale_keeps _ _ _ _) fun _ =>
    .pure _
  unfold readTaken
  dsimp only
  refine .ite (.bind (.pure _) fun _ => ?_) (.ite (.bind (.pure _) fun _ => ?_) (.bind (.mapM hscale _) fun _ => ?_))
  · exact hbands _ _ _
  · exact hbands _ _ _
  · exact hbands _ _ _

theorem setTile_keeps (t : Nat) (tile : Tile) (src : TileSource) : Keeps (setTile t tile src) := .modify fun _ => rfl

theorem jobTile_keeps (t : Nat) (j : Job) : Keeps (jobTile t j) := by
  refine .bind .get fun s => .ite (.ite (.pure _) ?_) ?_
  · exact .bind (readTile_keeps _ _ _) fun _ => .bind (setTile_keeps _ _ _) fun _ => .pure _
  · split
    · exact .pure _
    · exact .pure _
    · exact .bind (readTile_keeps _ _ _) fun _ => .bind (setTile_keeps _ _ _) fun _ => .pure _

theorem jobRows_keeps (t : Nat) (j : Job) : Keeps (jobRows t j) := by
  refine .getBind fun s hs => ?_
  dsimp only
  have htake : ∀ l : List StreamRow, Keeps ((List.range j.m).mapM fun m =>
      readTaken (j.actor t) j.atv m (if s.leads t then 512 else j.kcnt) (l.getD m {})) :=
    fun l => .mapM (fun _ => readTaken_keeps _ _ _ _ _) _
  have hfetch : ∀ src : View, Keeps ((List.range j.m).mapM fun m =>
      if j.row m || s.leads t then readRow (j.actor t) j.atv src m (if s.leads t then 512 else j.kcnt)
      else pure { fmt := View.fmt j.atv }) :=
    fun src => .mapM (fun _ => .ite (readRow_keeps _ _ _ _ _) (.pure _)) _
  split
  · exact .bind (hfetch _) fun _ => .pure _
  · split
    · exact .bind (.set (hs.of_eq (by simp))) fun _ => .bind (htake _) fun _ => .pure _
    · exact .pure _
  · split
    · exact .pure _
    · split
      · exact .pure _
      · exact .bind (hfetch _) fun _ => .bind (.modify fun _ => State.modRing_hbm _ _ _ _) fun _ => .pure _
  · refine .ite ?_ (.pure _)
    exact .bind (.modify fun _ => rfl) fun _ => .bind (htake _) fun _ => .pure _

theorem runJob_keeps (t : Nat) (j : Job) : Keeps (runJob t j) := by
  refine .bind .get fun s => .ite (.pure _) (.ite (.bind (jobTile_keeps t j) fun r => ?_) (.bind (jobTile_keeps t j) fun r =>
    ?_))
  · split <;> exact .pure _
  · split
    · exact .pure _
    · refine .bind .get fun s => .ite (.pure _) (.bind (jobRows_keeps t j) fun r => ?_)
      split
      · exact .pure _
      · exact .getBind fun s hs => .bind (.set (hs.of_eq (State.modTeam_hbm _ _ _))) fun _ => .pure _

theorem runBank_keeps (c : Nat) (b : Bank) : Keeps (runBank c b) := by
  have htail : ∀ (rows : List (Nat × Nat × Nat) → List (Nat × Nat)) (r : List (Nat × Nat × Nat) → Nat × Nat × List Nat),
      Keeps (do
        let l ← (List.range b.m).mapM (readBankRow { core := c, cluster := clusterOf c } b)
        match (← get).writeResults { core := c, cluster := clusterOf c } b (rows l) with
        | .ok _ => pure ()
        | .error e => throw e
        return r l) := by
    intro rows r
    refine .bind (.mapM (fun _ => readBankRow_keeps _ _ _) _) fun l => .bind .get fun s => ?_
    split
    · exact .bind (.pure _) fun _ => .pure _
    · exact .bind (.throw _) fun _ => .pure _
  refine .bind .get fun s => .bind (regionRule_keeps _ _) fun ok => .ite (.pure _) ?_
  refine .bind (.mapM (fun _ => readSpan_keeps _ _ _ _ _) _) fun acts => .ite (.bind (readSpan_keeps _ _ _ _ _) fun old => ?_)
    (.bind (.pure _) fun old => ?_)
  · exact htail _ _
  · exact htail _ _

end Sys2Proof.Machine

namespace Sys2Proof.Machine

/-! SUPPORT. The units of a core, a die and the platform keep the memory of HBM in its canonical form. -/

open Sys2Proof

section
variable {s : State} (h : Canonical s.hbm)
include h

/-! ### Copies, bank commands and what an abort settles -/

theorem State.moveRow_canonical {c : Nat} {d : Copy} {lines : List Nat} {j : Nat} {t : State}
    (ht : s.moveRow c d lines j = .ok t) : Canonical t.hbm := by
  unfold State.moveRow at ht
  split at ht
  · cases ht
  · have hread := State.readWords_canonical h ‹s.readWords _ _ _ = _›
    split at ht
    · dsimp only at ht
      split at ht
      · exact State.writeWords_canonical hread ht
      · cases ht
        exact hread
    · exact State.writeWords_canonical hread ht

theorem State.moveRows_canonical {c : Nat} {d : Copy} {lines : List Nat} {j fuel : Nat} {t : State}
    (ht : s.moveRows c d lines j fuel = .done t) : Canonical t.hbm := by
  induction fuel generalizing s j with
  | zero =>
    cases ht
    exact h
  | succ n ih =>
    unfold State.moveRows at ht
    split at ht
    · exact ih (State.moveRow_canonical h (by assumption)) ht
    · cases ht
    · cases ht

theorem State.runCopy_canonical {c id : Nat} {d : Copy} {t : State} (ht : s.runCopy c id = some (d, .done t)) :
    Canonical t.hbm := by
  unfold State.runCopy at ht
  split at ht
  · cases ht
  · dsimp only at ht
    split at ht
    · cases ht
    · split at ht
      · split at ht <;> cases ht
      · obtain ⟨rfl, hmoved⟩ := Prod.mk.inj (Option.some.inj ht)
        exact State.moveRows_canonical h hmoved

theorem State.zeroRow_canonical {c : Nat} {d : Copy} {lines : List Nat} {j : Nat} {t : State}
    (ht : s.zeroRow c d lines j = .ok t) : Canonical t.hbm := by
  unfold State.zeroRow at ht
  split at ht
  · cases ht
    exact h
  · refine foldlM_ok_keeps (P := fun t : State => Canonical t.hbm) (fun u a t hu hs => ?_) _ ht h
    split at hu
    · cases hu
      exact State.writeWords_canonical hs (by assumption)
    · cases hu
    · cases hu
      exact hs

theorem State.faultRows_canonical (c : Nat) (d : Copy) (lines : List Nat) (zeroing : Bool) (j fuel : Nat) :
    Canonical (s.faultRows c d lines zeroing j fuel).1.hbm := by
  induction fuel generalizing s zeroing j with
  | zero => exact h
  | succ n ih =>
    have hzero : ∀ u : State, Canonical u.hbm → Canonical (match u.zeroRow c d lines j with
        | .ok t => t.faultRows c d lines false (j + 1) n
        | .error l => (u.pend l, some (j, true))).1.hbm := by
      intro u hu
      split
      · exact ih (State.zeroRow_canonical hu (by assumption)) _ _
      · exact hu
    unfold State.faultRows
    dsimp only
    split
    · exact hzero s h
    · split
      · exact ih (State.moveRow_canonical h (by assumption)) _ _
      · exact h
      · split
        · exact hzero _ (h.of_eq (State.contain_hbm _ _ _ _ _ _ _ _ _ _))
        · exact h.of_eq (State.contain_hbm _ _ _ _ _ _ _ _ _ _)

theorem State.settleResults_canonical (c : Nat) : Canonical (s.settleResults c).hbm := by
  refine foldl_canonical (fun s b hs => foldl_canonical (fun s p hs => ?_) _ hs) _ h
  split
  · exact State.writeResults_canonical hs (by assumption)
  · exact hs

theorem State.settleStores_canonical (c : Nat) : Canonical (s.settleStores c).hbm := by
  refine foldl_canonical (fun s g hs => ?_) _ (h.of_eq (by simp))
  split
  · exact hs
  · exact State.performGlobal_canonical hs _ _ _ _ _

theorem State.bankRun_canonical {c id : Nat} {t : State} (ht : s.bankRun c id = .ok t) : Canonical t.hbm := by
  unfold State.bankRun at ht
  split at ht
  · cases ht
  · split at ht
    · cases ht
      have hrun := runBank_keeps _ _ _ _ _ ‹(runBank _ _).run s = _› h
      simpa using hrun
    · cases ht
    · cases ht

theorem State.settleCommands_canonical (c : Nat) : Canonical (s.settleCommands c).hbm := by
  unfold State.settleCommands
  dsimp only
  refine foldl_canonical (fun s b hs => ?_) _ (foldl_canonical (fun s x hs => ?_) _ (State.settleResults_canonical
    ((State.settleStores_canonical h c).of_eq (State.modCore_hbm _ _ _)) c))
  · split
    · exact hs
    · split
      · split
        · exact State.settleResults_canonical (State.bankRun_canonical hs (by assumption)) c
        · exact hs
      · exact hs
  · split
    · split
      · have hrun := State.runCopy_canonical hs ‹s.runCopy c x.id = _›
        exact hrun
      · exact hs
    · exact hs

theorem State.abortCore_canonical (x : Option Decision) (c : Nat) : Canonical (s.abortCore x c).hbm := by
  unfold State.abortCore
  dsimp only
  exact (State.settleCommands_canonical h c).of_eq (State.modCore_hbm _ _ _)

theorem State.copyReusable_canonical {c id : Nat} {t : State} (ht : s.copyReusable c id = some t) : Canonical t.hbm := by
  unfold State.copyReusable at ht
  split at ht
  · have hrun := State.runCopy_canonical h ‹s.runCopy c id = _›
    split at ht
    · cases ht
    · split at ht
      · cases ht
        simpa using hrun
      · cases ht
  · cases ht

theorem State.sweepComplete_canonical {c id : Nat} {t : State} (ht : s.sweepComplete c id = some t) : Canonical t.hbm := by
  unfold State.sweepComplete at ht
  split at ht
  · have hrun := State.runCopy_canonical h ‹s.runCopy c id = _›
    split at ht
    · split at ht
      · cases ht
      · split at ht
        · cases ht
          simpa using hrun
        · split at ht
          · cases ht
            simpa using hrun
          · cases ht
    · cases ht
  · cases ht

theorem State.copyFault_canonical {c id : Nat} {t : State} (ht : s.copyFault c id = some t) : Canonical t.hbm := by
  unfold State.copyFault at ht
  split at ht
  · split at ht
    · cases ht
    · cases ht
      have hrows := fun (lines : List Nat) (z : Bool) (d : Copy) (j n : Nat) => State.faultRows_canonical h c d lines z j n
      split
      · simpa using hrows _ _ _ _ _
      · split
        · simpa using hrows _ _ _ _ _
        · split <;> simpa using hrows _ _ _ _ _
  · cases ht

theorem State.bankOut_canonical {c id : Nat} {t : State} (ht : s.bankOut c id = .ok t) : Canonical t.hbm := by
  unfold State.bankOut at ht
  split at ht
  · cases ht
  · dsimp only at ht
    split at ht
    · cases ht
      have hwrite := State.writeResults_canonical (h.of_eq (State.modCore_hbm s c _)) ‹State.writeResults _ _ _ _ = _›
      simpa using hwrite
    · cases ht
    · cases ht
      simpa using h

theorem State.nbuFault_canonical {c id : Nat} {t : State} (ht : s.nbuFault c id = some t) : Canonical t.hbm := by
  unfold State.nbuFault at ht
  split at ht
  · cases ht
  · split at ht
    · cases ht
      exact h.of_eq ((State.endBank_hbm _ _ _ _ _ _).trans (State.contain_hbm _ _ _ _ _ _ _ _ _ _))
    · cases ht

end

end Sys2Proof.Machine

namespace Sys2Proof.Machine

/-! SUPPORT. Pages, frames, the tier engine, commits and launches keep the memory of HBM in its canonical form. -/

open Sys2Proof

section
variable {s : State} (h : Canonical s.hbm)
include h

/-! ### Frames and pages -/

theorem State.addTable_canonical {v key : Nat} {t : State} (ht : s.addTable v key = some t) : Canonical t.hbm := by
  unfold State.addTable at ht
  split at ht
  · cases ht
    exact h
  · split at ht
    · cases ht
    · rw [← Option.some.inj ht, State.modVf_hbm]
      exact State.scrubFrame_canonical (h.of_eq (State.takeFrame_hbm _ _ _ _)) _

theorem State.addTables_canonical {v level va : Nat} {t : State} (ht : s.addTables v level va = some t) : Canonical t.hbm := by
  unfold State.addTables at ht
  obtain ⟨u, hu, hrest⟩ := Option.bind_eq_some_iff.mp ht
  obtain ⟨w, hw, hlast⟩ := Option.bind_eq_some_iff.mp hrest
  have hcanon := State.addTable_canonical (State.addTable_canonical h hu) hw
  split at hlast
  · exact State.addTable_canonical hcanon hlast
  · cases hlast
    exact hcanon

theorem State.evictPage_canonical {v page : Nat} {target : Option Nat} {t : State} (ht : s.evictPage v page target = some t) :
    Canonical t.hbm := by
  unfold State.evictPage at ht
  dsimp only at ht
  split at ht
  · cases ht
  · split at ht
    · cases ht
    · split at ht
      · cases ht
        simpa using h
      · split at ht
        · cases ht
        · rw [← Option.some.inj ht, State.putBacked_hbm, State.dropFrame_hbm, State.dropCached_hbm, State.setPage_hbm]
          exact State.scrubFrame_canonical (h.of_eq (State.modVf_hbm _ _ _)) _

theorem State.evictFirst_canonical {l : List (Nat × Nat)} {t : State} (ht : s.evictFirst l = some t) : Canonical t.hbm := by
  induction l with
  | nil => cases ht
  | cons p l ih =>
    unfold State.evictFirst at ht
    split at ht
    · cases ht
      exact State.evictPage_canonical h (by assumption)
    · exact ih ht

theorem State.frameIn_canonical {n : Nat} {pch : Option Nat} {fuel : Nat} {r : Nat × State}
    (hr : s.frameIn n pch fuel = some r) : Canonical r.2.hbm := by
  induction fuel generalizing s with
  | zero =>
    unfold State.frameIn at hr
    split at hr
    · cases hr
      exact h
    · cases hr
    · rename_i hk
      cases hk
  | succ k ih =>
    unfold State.frameIn at hr
    split at hr
    · cases hr
      exact h
    · cases hr
    · rename_i hk
      cases hk
      obtain ⟨u, hu, hrest⟩ := Option.bind_eq_some_iff.mp hr
      exact ih (State.evictFirst_canonical h hu) hrest

theorem State.bringUp_canonical {v page : Nat} {t : State} (ht : s.bringUp v page = some t) : Canonical t.hbm := by
  unfold State.bringUp at ht
  dsimp only at ht
  split at ht
  · cases ht
  · split at ht
    · cases ht
    · split at ht
      · cases ht
        simpa using h
      · split at ht
        · cases ht
        · have hframe := State.frameIn_canonical h ‹s.frameFor _ _ = _›
          cases ht
          rw [State.setPage_hbm, State.setMarks_hbm]
          split
          · simpa using hframe
          · exact State.fillFrame_canonical (hframe.of_eq (State.takeFrame_hbm _ _ _ _)) _ _

theorem State.pageBringUp_canonical {v page : Nat} {t : State} (ht : s.pageBringUp v page = some t) : Canonical t.hbm := by
  obtain ⟨u, hu, rfl⟩ := Option.map_eq_some_iff.mp ht
  have hup := State.bringUp_canonical h hu
  exact hup

theorem State.backgroundScrub_canonical {f : Nat} {t : State} (ht : s.backgroundScrub f = some t) : Canonical t.hbm := by
  unfold State.backgroundScrub at ht
  split at ht
  · cases ht
  · cases ht
    have hscrub := fun l : List Nat => foldl_canonical (f := fun s i => s.scrubLine (f * 65536 + 64 * i))
      (fun _ _ hs => State.scrubLine_canonical hs _) l h
    simpa using hscrub _

theorem State.makeRoom_canonical (n need fuel : Nat) : Canonical (s.makeRoom n need fuel).hbm := by
  induction fuel generalizing s with
  | zero => exact h
  | succ k ih =>
    unfold State.makeRoom
    split
    · exact h
    · split
      · exact ih (State.evictFirst_canonical h (by assumption))
      · exact h

/-! ### Collectives -/

theorem State.vread_canonical {c v : Nat} {a : W64} {n : Nat} {r : Nat × State} (hr : s.vread c v a n = .ok r) :
    Canonical r.2.hbm := by
  unfold State.vread at hr
  split at hr
  · cases hr
  · cases hr
    exact h
  · cases hr
    exact State.scrubLine_canonical (h.of_eq (State.lookup_hbm _ _ _ _ _)) _

theorem State.readBucket_canonical {o : Coll} {r : List W64 × State} (hr : s.readBucket o = .ok r) : Canonical r.2.hbm := by
  refine foldlM_ok_keeps (P := fun p : List W64 × State => Canonical p.2.hbm) (fun x i t hx hs => ?_) _ hr h
  split at hx
  · have hread := State.vread_canonical hs ‹State.vread _ _ _ _ _ = _›
    cases hx
    exact hread
  · cases hx

theorem State.collBegin_canonical {d slot : Nat} {t : State} (ht : s.collBegin d slot = .ok t) : Canonical t.hbm := by
  unfold State.collBegin at ht
  split at ht
  · cases ht
  · split at ht
    · cases ht
    · split at ht
      · cases ht
      · have hread := State.vread_canonical h ‹s.vread _ _ _ _ = _›
        split at ht
        · cases ht
        · split at ht
          · cases ht
          · have hbucket := State.readBucket_canonical hread ‹State.readBucket _ _ = _›
            cases ht
            simpa using hbucket

theorem State.collEnd_canonical (d slot : Nat) (o : Coll) (status n : Nat) : Canonical (s.collEnd d slot o status n).hbm := by
  unfold State.collEnd
  dsimp only
  split
  · simpa using h
  · have hpost := State.performAs_canonical h o.core o.vf (o.w 5) 8 (o.w 6).toNat (2 ^ 8 - 1)
    simpa using hpost

theorem State.collFinish_canonical (d slot : Nat) : ∀ t, s.collFinish d slot = .ok t → Canonical t.hbm := by
  unfold State.collFinish
  split
  · rintro t ⟨⟩
  · split
    · rintro t ⟨⟩
    · extract_lets devs posts l bad res waits t
      have hposted : Canonical t.hbm := foldl_canonical (fun _ _ hs => State.performAs_canonical hs _ _ _ _ _ _) _ h
      clear_value posts waits t
      split
      · rintro t ⟨⟩
      · split
        · rintro t ⟨⟩
        · rintro u ⟨⟩
          exact State.collEnd_canonical hposted _ _ _ _ _

/-! ### Commits -/

theorem State.applyPage_canonical (dom : Nat) (d : Delta) : Canonical (s.applyPage dom d).hbm :=
  State.applyPage_keeps (P := fun t : State => Canonical t.hbm) (fun _ _ _ hs => State.hputb_canonical hs _ _)
    (fun _ _ hs => hs) (fun _ _ _ hs => hs) (fun _ _ _ hs => hs) s dom d h

theorem State.mergeShadow_canonical (dom : Nat) (sh : ShadowPage) : Canonical (s.mergeShadow dom sh).hbm := by
  have hmarked := fun f : Domain → Domain => h.of_eq (State.modDomain_hbm s dom f)
  unfold State.mergeShadow
  dsimp only
  split
  · rw [State.dropCaches_hbm, State.dropFrame_hbm, State.modPlat_hbm, State.modVf_hbm]
    refine foldl_canonical (fun s i hs => ?_) (List.range 1024) (hmarked _)
    split
    · exact hs
    · exact State.copyLine_canonical hs _ _
  · rw [State.dropFrame_hbm]
    exact foldl_canonical (fun s i hs => State.copyLine_canonical (State.scrubLine_canonical hs _) _ _) _ (hmarked _)

theorem State.commitDie_canonical (dom d : Nat) : Canonical (s.commitDie dom d).hbm := by
  unfold State.commitDie
  dsimp only
  refine foldl_canonical (fun _ _ hs => State.applyPage_canonical hs _ _) _ ?_
  rw [State.modDie_hbm, State.modPlat_hbm]
  exact foldl_canonical (fun _ _ hs => State.mergeShadow_canonical hs _ _) _ h

theorem State.commitDieNow_canonical (d k : Nat) : Canonical (s.commitDieNow d k).hbm := by
  refine State.commitDie_canonical (foldl_canonical (fun s c hs => ?_) _ h) d k
  split
  · cases hup : s.bringUp _ _ with
    | none => exact hs
    | some t => exact State.bringUp_canonical hs hup
  · exact hs

theorem State.decideCommit_canonical {d : Nat} {who : Party} {t : State} (ht : s.decideCommit d who = some t) :
    Canonical t.hbm := by
  unfold State.decideCommit at ht
  dsimp only at ht
  split at ht
  · cases ht
  · split at ht
    · cases ht
    · split at ht
      · split at ht
        · cases ht
        · cases ht
          simpa using h
      · cases ht
        simpa using h
      · split at ht
        · cases ht
          exact (State.commitDie_canonical h _ _).of_eq (State.reportDone_hbm _ _ _)
        · cases ht

theorem State.decideAbort_canonical {d : Nat} {who : Party} {t : State} (ht : s.decideAbort d who = some t) :
    Canonical t.hbm := by
  unfold State.decideAbort at ht
  dsimp only at ht
  split at ht
  · cases ht
  · split at ht
    · cases ht
    · split at ht
      · split at ht
        · rw [← Option.some.inj ht, State.reportDone_hbm]
          exact State.abortCore_canonical h _ _
        · cases ht
      · split at ht
        · rw [← Option.some.inj ht, State.reportDone_hbm, State.abortCluster_hbm]
          exact h
        · cases ht
      · split at ht
        · rw [← Option.some.inj ht, State.reportDone_hbm, State.abortDie_hbm]
          exact h
        · cases ht

end

end Sys2Proof.Machine

namespace Sys2Proof.Machine

/-! SUPPORT. The matrix engine, the page-fetch engine, global requests, the gate and the tier engine keep the memory of HBM in
  its
canonical form. -/

open Sys2Proof

section
variable {s : State} (h : Canonical s.hbm)
include h

/-! ### The matrix engine -/

theorem State.writeRow_canonical {w : Actor} {j : Job} {m pos : Nat} {mask : Nat → Bool} {vals : Nat → Nat} {r : State × Nat}
    (hr : s.writeRow w j m pos mask vals = .ok r) : Canonical r.1.hbm := by
  have hseq : Canonical (s.takeSeq w.core).2.hbm := h.of_eq (State.takeSeq_hbm _ _)
  unfold State.writeRow at hr
  dsimp only at hr
  split at hr
  · split at hr
    · cases hr
      exact h
    · split at hr
      · cases hr
        exact h
      · split at hr
        · have hwrite := State.writeElems_canonical hseq ‹State.writeElems _ _ _ _ _ = _›
          cases hr
          exact hwrite
        · cases hr
  · split at hr
    · have hwrite := State.writeElems_canonical hseq ‹State.writeElems _ _ _ _ _ = _›
      cases hr
      exact hwrite
    · cases hr

theorem State.finishRow_canonical {w : Actor} {t : Nat} {j : Job} {m pos : Nat} {mask : Nat → Bool} {vals : Nat → Nat} {u :
  State}
    (hu : s.finishRow w t j m pos mask vals = .ok u) : Canonical u.hbm := by
  unfold State.finishRow at hu
  split at hu
  · cases hu
    exact h
  · split at hu
    · have hwrite := State.writeRow_canonical h ‹s.writeRow _ _ _ _ _ _ = _›
      cases hu
      simpa using hwrite
    · cases hu
    · rw [← Except.ok.inj hu, State.failJob_hbm, State.fillPos_hbm, State.contain_hbm]
      exact h

theorem State.drainNext_canonical (t : Nat) : ∀ u, s.drainNext t = .ok u → Canonical u.hbm := by
  unfold State.drainNext
  split
  · rintro u ⟨⟩
  · extract_lets vals slot
    clear_value slot
    split
    · rintro u ⟨⟩
    · extract_lets s1
      have hring : Canonical s1.hbm := h.of_eq (by
        unfold s1
        split <;> simp)
      clear_value s1
      split
      · intro u hu
        rw [← Except.ok.inj hu, State.pend_hbm, State.modCtx_hbm, State.modJob_hbm, State.rowOut_hbm]
        exact hring
      · split
        · have hrow := State.finishRow_canonical hring ‹State.finishRow _ _ _ _ _ _ _ _ = _›
          intro u hu
          rw [← Except.ok.inj hu, State.pend_hbm, State.modJob_hbm, State.rowOut_hbm]
          exact hrow
        · rintro u ⟨⟩

theorem State.startJob_canonical (t : Nat) (j : Job) : ∀ u, s.startJob t j = .ok u → Canonical u.hbm := by
  unfold State.startJob
  extract_lets s0 fault
  have hs0 : Canonical s0.hbm := h
  have hfault : ∀ k a, Canonical (fault k a).hbm := fun k a => hs0.of_eq
    ((State.launchJob_hbm _ _ _ _ _).trans (State.contain_hbm _ _ _ _ _ _ _ _ _ _))
  clear_value s0 fault
  split
  · have hrun := runJob_keeps _ _ _ _ _ ‹(runJob t j).run s0 = _› hs0
    split
    · rintro u ⟨⟩
      exact hfault _ _
    · intro u hu
      rw [← Except.ok.inj hu, State.launchJob_hbm]
      exact hrun
  · rintro u ⟨⟩
  · rintro u ⟨⟩
    exact hfault _ _

theorem State.serve_canonical (t cls fuel : Nat) : Canonical (s.serve t cls fuel).1.hbm := by
  induction fuel generalizing s with
  | zero => exact h
  | succ n ih =>
    unfold State.serve
    split
    · exact h
    · split
      · split
        · exact ih ((State.startJob_canonical h _ _ _ (by assumption)).of_eq (State.modTeam_hbm _ _ _))
        · exact h
      · exact h

theorem State.arbitrate_canonical (t fuel : Nat) : ∀ u ∈ s.arbitrate t fuel, Canonical u.hbm := by
  induction fuel generalizing s with
  | zero => rintro u ⟨⟩
  | succ n ih =>
    unfold State.arbitrate
    extract_lets tm order
    split
    · rintro u ⟨⟩
    · extract_lets w r
      have hr : Canonical r.1.hbm := State.serve_canonical (h.of_eq (State.modTeam_hbm _ _ _)) _ _ _
      clear_value w r
      split
      · rintro u ⟨⟩
        exact hr
      · exact ih hr

/-! ### Streams and page-fetch elements -/

theorem State.publishRead_canonical (k sid : Nat) : ∀ t, s.publishRead k sid = .ok t → Canonical t.hbm := by
  unfold State.publishRead
  split
  · rintro t ⟨⟩
  · split
    · rintro t ⟨⟩
    · extract_lets v put
      have hput : ∀ (u : State) rows, Canonical u.hbm → Canonical (put u rows).hbm := fun u rows hu => hu
      clear_value put
      split
      case h_1 rows u hread =>
        have hrun := Keeps.mapM (fun r => readRow_keeps _ v v r v.cols) _ _ _ _ hread h
        rintro t ⟨⟩
        exact hput _ _ hrun
      case h_2 => rintro t ⟨⟩
      case h_3 =>
        rintro t ⟨⟩
        exact hput _ _ (h.of_eq (State.contain_hbm _ _ _ _ _ _ _ _ _ _))

theorem State.fillRows_canonical (ch : Chain) (e : Elem) (zero : Bool) : Canonical (s.fillRows ch e zero).hbm := by
  unfold State.fillRows
  dsimp only
  split
  · exact h
  · refine foldl_canonical (fun s j hs => foldl_canonical (fun s i hs => ?_) _ hs) _ h
    rw [State.modCluster_hbm]
    split
    · exact hs
    · split
      · exact State.scrubLine_canonical (hs.of_eq (State.lookup_hbm _ _ _ _ _)) _
      · exact hs

theorem State.pfeFault_canonical (t : Nat) (ch : Chain) (e : Elem) (cause : Nat) (addr : W64) :
    Canonical (s.pfeFault t ch e cause addr).hbm := by
  unfold State.pfeFault
  extract_lets r u
  have hu : Canonical u.hbm := h.of_eq ((State.modTeam_hbm _ _ _).trans (State.contain_hbm _ _ _ _ _ _ _ _ _ _))
  clear_value r u
  split
  · rw [State.pend_hbm, State.landElem_hbm]
    exact State.fillRows_canonical hu _ _ _
  · exact hu.of_eq (State.killChain_hbm _ _ _ _)

omit h in
theorem State.elemLooks_hbm (s : State) (ch : Chain) (e : Elem) (cause : Nat) : (s.elemLooks ch e cause).hbm = s.hbm := by
  unfold State.elemLooks
  split
  · rfl
  · exact State.lookups_hbm _ _ _ _

theorem State.pfeRun_canonical {t : Nat} {u : State} (hu : s.pfeRun t = some u) : Canonical u.hbm := by
  unfold State.pfeRun at hu
  split at hu
  · cases hu
  · split at hu
    · cases hu
    · split at hu
      · cases hu
      · rw [← Option.some.inj hu]
        exact State.pfeFault_canonical (h.of_eq ((State.modTeam_hbm _ _ _).trans (State.elemLooks_hbm _ _ _ _))) _ _ _ _ _
      · dsimp only at hu
        rw [← Option.some.inj hu, State.pend_hbm, State.winState_hbm, State.modTeam_hbm, State.elemLooks_hbm]
        exact h

theorem State.pfeLand_canonical (t : Nat) : ∀ u ∈ s.pfeLand t, Canonical u.hbm := by
  unfold State.pfeLand
  split
  · rintro u ⟨⟩
  · split
    · rintro u ⟨⟩
    · rintro u ⟨⟩
      exact State.pfeFault_canonical (h.of_eq (State.elemLooks_hbm _ _ _ _)) _ _ _ _ _
    · extract_lets looked filled landed contained ended
      have hfilled : Canonical filled.hbm := by
        unfold filled
        split
        · exact h.of_eq (State.elemLooks_hbm _ _ _ _)
        · exact State.fillRows_canonical (h.of_eq (State.elemLooks_hbm _ _ _ _)) _ _ _
      have hlanded : Canonical landed.hbm := hfilled.of_eq (State.landElem_hbm _ _ _ _)
      have hended : Canonical ended.hbm := hlanded.of_eq (by
        unfold ended contained
        split
        · split <;> simp
        · rfl)
      rintro u ⟨⟩
      exact hended

/-! ### Requests of the cores -/

theorem State.performReq_canonical {c : Nat} {g : GReq} {t : State} (ht : s.performReq c g = some t) : Canonical t.hbm := by
  unfold State.performReq at ht
  dsimp only at ht
  split at ht
  · cases ht
  · cases ht
    exact h
  · obtain ⟨u, hu, rfl⟩ := Option.map_eq_some_iff.mp ht
    have hcross : Canonical u.hbm := h.of_eq (State.cross_hbm s _ _ u hu)
    split
    · rw [State.loadPart_hbm]
      exact State.scrubLine_canonical (hcross.of_eq ((State.lookup_hbm _ _ _ _ _).trans (State.modCore_hbm _ _ _))) _
    · exact State.performGlobal_canonical (hcross.of_eq (State.modCore_hbm _ _ _)) _ _ _ _ _

theorem State.globalAccessPerformed_canonical {c : Nat} {t : State} (ht : s.globalAccessPerformed c = some t) :
    Canonical t.hbm := by
  unfold State.globalAccessPerformed at ht
  dsimp only at ht
  split at ht
  · cases ht
  · split at ht
    · cases ht
    · have hreq := State.performReq_canonical (s := { s with fresh := s.fresh + 1 }) h (by assumption)
      rw [← Option.some.inj ht, State.pend_hbm, State.nudge_hbm]
      exact hreq

theorem State.performPart_canonical (c id : Nat) : Canonical (s.performPart c id).hbm := by
  unfold State.performPart
  split
  · cases hreq : s.performReq c _ with
    | none => exact h
    | some t => exact State.performReq_canonical h hreq
  · exact h

theorem State.performIssued_canonical (v : Nat) : Canonical (s.performIssued v).hbm := by
  refine foldl_canonical (fun s p hs => ?_) _ h
  split
  · exact hs
  · exact foldl_canonical (fun s g hs => State.performPart_canonical (State.performPart_canonical hs _ _) _ _) _ hs

/-! ### The gate and the selection of launches -/

theorem State.readDcp_canonical {c v : Nat} {a : W64} {r : Option (Tab W64) × State} (hr : s.readDcp c v a = .ok r) :
    Canonical r.2.hbm := by
  unfold State.readDcp at hr
  split at hr
  · cases hr
    exact h
  · refine foldlM_ok_keeps (P := fun p : Option (Tab W64) × State => Canonical p.2.hbm) (fun p i u hu hp => ?_) _ hr h
    dsimp only at hu
    split at hu
    · cases hu
    · cases hu
      exact State.scrubLine_canonical (hp.of_eq (State.lookup_hbm _ _ _ _ _)) _
    · cases hu
      exact hp

theorem State.admission_canonical {n v : Nat} {r : Rec} {t : State} (ht : s.admission n v r = .ok t) : Canonical t.hbm := by
  unfold State.admission at ht
  split at ht
  · split at ht
    · cases ht
      simpa using h
    · cases ht
      simpa using h
  · split at ht
    · cases ht
      simpa using h
    · split at ht
      · cases ht
      · have hread := State.readDcp_canonical h ‹s.readDcp _ _ _ = _›
        cases ht
        simpa using hread
      · have hread := State.readDcp_canonical h ‹s.readDcp _ _ _ = _›
        revert ht
        extract_lets spans
        clear_value spans
        intro ht
        split at ht
        · rw [← Except.ok.inj ht, State.endRecord_hbm]
          exact hread
        · rw [← Except.ok.inj ht, State.begin_hbm]
          exact hread

theorem State.passGate_canonical {n : Nat} {t : State} (ht : s.passGate n = .ok t) : Canonical t.hbm := by
  unfold State.passGate at ht
  split at ht
  · cases ht
  · split at ht
    · cases ht
    · split at ht
      · cases ht
      · cases hadm : s.admission n _ _ with
        | error l =>
          rw [hadm] at ht
          cases ht
        | ok u =>
          rw [hadm] at ht
          rw [← Except.ok.inj ht, State.pend_hbm]
          exact State.admission_canonical h hadm

theorem State.launchSelect_canonical {n : Nat} {t : State} (ht : s.launchSelect n = some t) : Canonical t.hbm := by
  unfold State.launchSelect at ht
  split at ht
  · cases ht
  · split at ht
    · cases ht
    · dsimp only at ht
      split at ht
      · rw [← Option.some.inj ht, State.endLaunch_hbm]
        exact h
      · rw [← Option.some.inj ht, State.pend_hbm]
        exact State.makeRoom_canonical (h.of_eq (State.modRec_hbm _ _ _ _)) _ _ _

end

end Sys2Proof.Machine

namespace Sys2Proof.Machine

/-! SUPPORT. The commands of the tier engine, migration, the host's registers, a reset and a start keep the memory of HBM in its
canonical form. -/

open Sys2Proof

section
variable {s : State} (h : Canonical s.hbm)
include h

/-! ### The commands of the tier engine -/

theorem State.evictCmd_canonical : Canonical s.evictCmd.1.hbm := by
  unfold State.evictCmd
  split
  · exact h
  · split
    · exact h
    · refine foldl_canonical (fun u p hu => ?_) _ h
      cases hev : u.evictPage _ p _ with
      | none => exact hu
      | some t => exact State.evictPage_canonical hu hev

theorem State.fetchCmd_canonical : Canonical s.fetchCmd.1.hbm := by
  unfold State.fetchCmd
  split
  · exact h
  · refine foldl_keeps (P := fun a : State × Nat => Canonical a.1.hbm) (fun a p ha => ?_) _ h
    split
    · exact ha
    · split
      · split
        · split
          · exact State.bringUp_canonical ha (by assumption)
          · exact ha
        · exact ha
      · exact ha

theorem State.hostWord_canonical (k : Acc) (v a : Nat) : Canonical (s.hostWord k v a).1.hbm := by
  unfold State.hostWord
  extract_lets r
  have hr : ∀ t, r = some t → Canonical t.hbm := by
    unfold r
    split
    · exact fun t ht => State.bringUp_canonical h ht
    · rintro t ⟨⟩
      exact h
  clear_value r
  split
  · exact h
  · have ht := hr _ rfl
    split
    · split
      · exact ht
      · exact State.scrubLine_canonical ht _
    · exact ht

theorem State.hostCopy_canonical (k : Acc) (classes : Nat → Bool) {move : State → Nat → Nat → State}
    (hmove : ∀ (t : State) p i, Canonical t.hbm → Canonical (move t p i).hbm) : Canonical (s.hostCopy k classes move).1.hbm :=
      by
  unfold State.hostCopy
  dsimp only
  split
  · exact h
  · split
    · exact h
    · split
      · exact h
      · refine foldl_keeps (P := fun a : State × Nat => Canonical a.1.hbm) (fun a i ha => ?_) _ h
        split
        · exact ha
        · split
          · exact State.hostWord_canonical ha _ _ _
          · exact hmove _ _ _ (State.hostWord_canonical ha _ _ _)

theorem State.hreadCmd_canonical : Canonical s.hreadCmd.1.hbm :=
  State.hostCopy_canonical h _ _ fun _ _ _ ht => ht.of_eq (State.hostWrite_hbm _ _ _ _)

theorem State.hwriteCmd_canonical : Canonical s.hwriteCmd.1.hbm := by
  refine State.hostCopy_canonical h _ _ fun t p i ht => ?_
  rw [State.modPte_hbm, State.notePoison_hbm]
  exact State.hwrite_canonical ht _ _ _

theorem State.rehome_canonical {v page : Nat} {e : W64} {r : W64 × State} (hr : s.rehome v page e = some r) :
    Canonical r.2.hbm := by
  unfold State.rehome at hr
  dsimp only at hr
  split at hr
  · cases hr
    exact h
  · split at hr
    · cases hr
    · rw [← Option.some.inj hr, State.dropFrame_hbm, State.setMarks_hbm]
      exact State.fillFrame_canonical ((State.scrubFrame_canonical h _).of_eq (State.takeFrame_hbm _ _ _ _)) _ _

theorem State.rekey_canonical (v page f old new : Nat) : Canonical (s.rekey v page f old new).hbm := by
  unfold State.rekey
  split
  · exact h
  · refine foldl_canonical (fun u i hu => ?_) (List.range 1024) h
    dsimp only
    split
    · exact hu
    · exact State.hwrite_canonical hu _ _ _

/-- Whatever SETPTE's outcome is, its memory is canonical: P holds of the outcome when it holds of all such ones. -/
theorem State.setpteCmd_cases {P : State × Nat → Prop} (hP : ∀ (t : State) k, Canonical t.hbm → P (t, k)) : P s.setpteCmd := by
  unfold State.setpteCmd
  extract_lets v t e level va page big old fresh taken issued
  have hissued : Canonical issued.hbm := State.performIssued_canonical h _
  clear_value v t e level va page big old fresh taken issued
  refine iteInduction (fun _ => hP _ _ h) fun _ => iteInduction (fun _ => hP _ _ h) fun _ => iteInduction (fun _ => hP _ _ h)
    fun _ => iteInduction (fun _ => hP _ _ h) fun _ => iteInduction (fun _ => hP _ _ h) fun _ => iteInduction
    (fun _ => hP _ _ h) fun _ => iteInduction (fun _ => iteInduction (fun _ => ?_) fun _ => ?_) fun _ => ?_
  · exact hP _ _ (hissued.of_eq (State.unmapBig_hbm _ _ _))
  · exact hP _ _ (hissued.of_eq (State.unmap_hbm _ _ _))
  split
  · exact hP _ _ hissued
  case h_2 u hu =>
    have htables : Canonical u.hbm := State.addTables_canonical (hissued.of_eq (State.dropTableOf_hbm _ _ _ _)) hu
    refine iteInduction (fun _ => iteInduction (fun _ => ?_) fun _ => ?_) fun _ => iteInduction (fun _ => ?_) fun _ =>
      iteInduction (fun _ => hP _ _ htables) fun _ => ?_
    · exact hP _ _ (htables.of_eq ((State.dropCached_hbm _ _ _).trans (State.setPage_hbm _ _ _ _)))
    · split
      · exact hP _ _ htables
      · have hhome := State.rehome_canonical htables ‹u.rehome _ _ _ = _›
        refine hP _ _ ?_
        rw [State.dropCached_hbm, State.setPage_hbm]
        split
        · exact State.rekey_canonical hhome _ _ _ _ _
        · exact hhome
    · refine hP _ _ ?_
      rw [State.dropBig_hbm, State.modVf_hbm]
      exact foldl_canonical (fun _ _ hw => State.rekey_canonical hw _ _ _ _ _) (List.range 8192) htables
    · split
      · exact hP _ _ htables
      · refine hP _ _ ?_
        rw [State.dropBig_hbm, State.modVf_hbm]
        exact foldl_canonical (fun _ _ hw => hw.of_eq ((State.setMarks_hbm _ _ _).trans (State.takeFrame_hbm _ _ _ _)))
          (List.range 8192) htables

theorem State.setpteCmd_canonical : Canonical s.setpteCmd.1.hbm :=
  State.setpteCmd_cases (P := fun r => Canonical r.1.hbm) h fun _ _ ht => ht

/-- A command of the tier engine ends with the memory as canonical as its work leaves it. -/
theorem State.teRun_canonical {op : Nat} {f : State → State × Nat} (hf : Canonical (f s).1.hbm) :
    ∀ t ∈ s.teRun op f, Canonical t.hbm := by
  unfold State.teRun
  split
  · rintro t ⟨⟩
  · split
    · rintro t ⟨⟩
      exact h.of_eq (State.teDone_hbm _ _)
    · rintro t ⟨⟩
      exact hf.of_eq (State.teDone_hbm _ _)

theorem State.teGo_canonical : Canonical s.teGo.hbm := by
  unfold State.teGo
  extract_lets r
  have hr : ∀ t ∈ r, Canonical t.hbm := by
    unfold r
    split
    · exact State.teRun_canonical h (State.setpteCmd_canonical h)
    · exact State.teRun_canonical h (State.fetchCmd_canonical h)
    · exact State.teRun_canonical h (State.evictCmd_canonical h)
    · exact State.teRun_canonical h (State.hwriteCmd_canonical h)
    · exact State.teRun_canonical h (State.hreadCmd_canonical h)
    · exact State.teRun_canonical h (h.of_eq (State.shresCmd_hbm _))
    · rintro t ⟨⟩
      exact h.of_eq (State.teDone_hbm _ _)
  clear_value r
  cases r with
  | none => exact h
  | some t => exact hr t rfl

/-! ### Migration -/

theorem State.landBig_canonical {v i : Nat} {e : W64} {x : Emigrant} {t : State} (ht : s.landBig v i e x = some t) :
    Canonical t.hbm := by
  unfold State.landBig at ht
  split at ht
  · cases ht
  · obtain ⟨u, hu, hrest⟩ := Option.bind_eq_some_iff.mp ht
    obtain ⟨f, -, rfl⟩ := Option.map_eq_some_iff.mp hrest
    dsimp only
    rw [State.modVf_hbm]
    refine foldl_canonical (fun w k hw => ?_) (List.range 8192) (State.addTables_canonical h hu)
    rw [State.setMarks_hbm]
    exact State.fillFrame_canonical (hw.of_eq (State.takeFrame_hbm _ _ _ _)) _ _

theorem State.landPage_canonical (v page : Nat) (e : W64) (x : Emigrant) : ∀ t, s.landPage v page e x = some t → Canonical t.hbm
  := by
  unfold State.landPage
  extract_lets key keyed b
  clear_value key keyed b
  split
  · rintro t ⟨⟩
  · have htables := State.addTables_canonical h ‹s.addTables _ _ _ = _›
    split
    · intro t ht
      rw [← Option.some.inj ht, State.setPage_hbm]
      exact htables
    · split
      · intro t ht
        rw [← Option.some.inj ht, State.setPage_hbm, State.setMarks_hbm]
        exact State.fillFrame_canonical (htables.of_eq (State.takeFrame_hbm _ _ _ _)) _ _
      · split
        · rintro t ⟨⟩
        · intro t ht
          rw [← Option.some.inj ht, State.putBacked_hbm, State.setPage_hbm]
          exact htables

theorem State.pullPages_canonical {v : Nat} {x : Emigrant} {t : State} (ht : s.pullPages v x = some t) : Canonical t.hbm := by
  unfold State.pullPages at ht
  dsimp only at ht
  split at ht
  · cases ht
  · obtain ⟨u, hu, hrest⟩ := Option.bind_eq_some_iff.mp ht
    obtain ⟨w, hw, hset⟩ := Option.bind_eq_some_iff.mp hu
    obtain ⟨y, hy, hpages⟩ := Option.bind_eq_some_iff.mp hw
    have hbig : Canonical y.hbm := foldlM_some_keeps (P := fun t : State => Canonical t.hbm)
      (fun _ _ _ hl hs => State.landBig_canonical hs hl) _ hy h
    have hpage : ∀ {l : List (Nat × W64)} {a b : State}, l.foldlM (fun s p => s.landPage v p.1 p.2 x) a = some b →
        Canonical a.hbm → Canonical b.hbm := fun hl ha => foldlM_some_keeps (P := fun t : State => Canonical t.hbm)
      (fun _ _ _ hl hs => State.landPage_canonical hs _ _ _ _ _ hl) _ hl ha
    split at hset
    · cases hset
      exact hpage hrest (hpage hpages hbig)
    · cases hset

theorem State.importCheck_canonical {v : Nat} {r : Emigrant × State} (hr : s.importCheck v = .ok r) : Canonical r.2.hbm := by
  unfold State.importCheck at hr
  dsimp only at hr
  split at hr
  · cases hr
  split at hr
  · cases hr
  split at hr
  · cases hr
  split at hr
  · cases hr
  split at hr
  · cases hr
  split at hr
  · cases hr
  split at hr
  · cases hr
  · cases hr
    have hpull := State.pullPages_canonical h ‹s.pullPages _ _ = _›
    exact hpull

theorem State.importTenant_canonical (fabricOk : Bool) : Canonical (s.importTenant fabricOk).hbm := by
  unfold State.importTenant
  extract_lets v cleared
  have hcleared : Canonical cleared.hbm := h
  clear_value cleared
  split
  · exact hcleared.of_eq (State.mgDone_hbm _ _)
  · split
    · exact hcleared.of_eq (State.mgDone_hbm _ _)
    · split
      · exact hcleared.of_eq (State.mgDone_hbm _ _)
      · have hcheck := State.importCheck_canonical hcleared ‹cleared.importCheck _ = _›
        split
        · exact hcleared.of_eq (State.mgDone_hbm _ _)
        · extract_lets pulled
          have hpulled : Canonical pulled.hbm := hcheck.of_eq ((State.modPlat_hbm _ _).trans (State.pullRecords_hbm _ _ _))
          clear_value pulled
          exact hpulled.of_eq ((State.mgDone_hbm _ _).trans (State.pend_hbm _ _))

/-! ### The host's registers -/

theorem State.mgcmd_canonical (v : W64) : Canonical (s.mgcmd v).hbm := by
  unfold State.mgcmd
  split
  · exact h.of_eq (State.mgDone_hbm _ _)
  · split
    · exact h.of_eq (State.exportTenant_hbm _)
    · exact State.importTenant_canonical (s := { s with fresh := s.fresh + 1 }) h _
    · exact h.of_eq (State.abandon_hbm _)
    · exact h.of_eq (State.mgDone_hbm _ _)

omit h in
/-- What a write to the tier engine's registers can do. -/
theorem State.writeTier_cases {P : State → Prop} {v : W64} (hnone : P s) (htenant : ∀ n off, P (s.writeTenant n off v))
    (hset : ∀ off x, P (s.setPf off x)) (hgo : P s.teGo) (hrw : ∀ off x m, P (s.writeRw off x m)) (off : Nat) :
    P (s.writeTier off v) := by
  unfold State.writeTier
  split
  · extract_lets n
    split
    · exact hnone
    · exact htenant _ _
  split
  · exact hset _ _
  split
  · exact hset _ _
  split
  · exact hset _ _
  split
  · split
    · exact hgo
    · exact hnone
  split
  · exact hrw _ _ _
  · exact hnone

theorem State.writeTier_canonical (off : Nat) (v : W64) : Canonical (s.writeTier off v).hbm :=
  State.writeTier_cases (P := fun t => Canonical t.hbm) h (fun _ _ => h.of_eq (State.writeTenant_hbm _ _ _ _))
    (fun _ _ => h.of_eq (State.setPf_hbm _ _ _)) (State.teGo_canonical h) (fun _ _ _ => h.of_eq (State.writeRw_hbm _ _ _ _)) off

theorem State.writeMigration_canonical (off : Nat) (v : W64) : Canonical (s.writeMigration off v).hbm := by
  unfold State.writeMigration
  split
  · exact State.mgcmd_canonical h v
  split
  · exact h.of_eq (State.writeRw_hbm _ _ _ _)
  split
  · exact h
  split
  · exact h.of_eq (State.wrcmd_hbm _ _)
  split
  · exact h.of_eq (State.writeRw_hbm _ _ _ _)
  split
  · exact h.of_eq (State.wdbudget_hbm _ _)
  · exact h

theorem State.writePf_canonical (off : Nat) (v : W64) : Canonical (s.writePf off v).hbm := by
  unfold State.writePf
  split
  · exact h.of_eq (State.fwcmd_hbm _ _)
  split
  · exact h.of_eq (State.writeRw_hbm _ _ _ _)
  split
  · exact h.of_eq (State.writeRw_hbm _ _ _ _)
  split
  · exact h
  split
  · exact h.of_eq (State.writeNode_hbm _ _ _ _)
  split
  · exact h.of_eq (State.vfBind_hbm _ _ _)
  split
  · exact State.writeTier_canonical h _ _
  split
  · exact State.writeMigration_canonical h _ _
  split
  · exact h.of_eq (State.writeLink_hbm _ _ _)
  split
  · exact h.of_eq (State.writePower_hbm _ _ _)
  · exact h

theorem State.registerWrite_canonical {v off : Nat} {x : W64} {t : State} (ht : s.registerWrite v off x = some t) :
    Canonical t.hbm := by
  unfold State.registerWrite at ht
  split at ht
  · cases ht
    exact State.writePf_canonical h _ _
  · split at ht
    · cases ht
    · rw [← Option.some.inj ht, State.writeVf_hbm]
      exact h

/-! ### Reset and start -/

theorem State.quiesce_canonical (d : Nat) : Canonical (s.quiesce d).hbm := by
  unfold State.quiesce
  dsimp only
  split
  · split
    · rw [State.finishAbort_hbm]
      refine foldl_canonical (fun u p hu => ?_) _ h
      split
      · exact State.abortCore_canonical hu _ _
      · exact hu.of_eq (State.abortCluster_hbm _ _)
      · exact hu.of_eq (State.abortDie_hbm _ _ _)
    · rw [State.finishCommit_hbm]
      refine foldl_canonical (fun u p hu => ?_) _ h
      split
      · exact hu.of_eq (State.commitCore_hbm _ _ _)
      · exact hu.of_eq (State.commitCluster_hbm _ _)
      · exact State.commitDieNow_canonical hu _ _
  · split
    · exact h
    · rw [State.modDomain_hbm]
      refine foldl_canonical (fun _ _ hu => hu.of_eq (State.abortDie_hbm _ _ _)) (List.range Config.dies)
        (foldl_canonical (fun _ _ hu => hu.of_eq (State.abortCluster_hbm _ _)) _ ?_)
      exact foldl_canonical (fun _ _ hu => State.abortCore_canonical hu _ _) _ h

theorem State.resetLaunch_canonical (failed : W64) (n d : Nat) : Canonical (s.resetLaunch failed n d).hbm := by
  unfold State.resetLaunch
  extract_lets m mixed aborted quiet
  split
  · have hmixed : Canonical mixed.hbm := h.of_eq (by
      unfold mixed
      split <;> simp)
    rw [State.endLaunch_hbm]
    exact foldl_canonical (fun _ _ hu => hu.of_eq (State.abortDie_hbm _ _ _)) (List.range Config.dies) hmixed
  · have hquiet : Canonical quiet.hbm := State.quiesce_canonical h d
    clear_value quiet
    split
    · exact hquiet.of_eq (State.endLaunch_hbm _ _ _ _)
    · split
      · exact hquiet.of_eq (State.endLaunch_hbm _ _ _ _)
      · exact hquiet.of_eq ((State.saveArea_hbm _ _).trans (State.modLaunch_hbm _ _ _))

theorem State.runReset_canonical (cause : Nat) (failed : W64) : Canonical (s.runReset cause failed).hbm := by
  unfold State.runReset
  extract_lets began running ended dead overrun
  have hended : Canonical ended.hbm := foldl_canonical (fun _ _ hu => State.resetLaunch_canonical hu _ _ _) _ h
  clear_value ended
  exact hended

theorem State.warmReset_canonical {cause : Nat} {failed : W64} {t : State} (ht : s.warmReset cause failed = some t) :
    Canonical t.hbm := by
  unfold State.warmReset at ht
  split at ht
  · cases ht
  · rw [← Option.some.inj ht, State.pend_hbm]
    exact State.runReset_canonical h _ _

omit h

/-- A start leaves HBM as reset does: all zeros. -/
theorem State.start_canonical {found : StartInput} : ∀ t ∈ s.start found, Canonical t.hbm := by
  unfold State.start
  split
  · rintro t ⟨⟩
  · extract_lets steps bad ok was cnt started
    have hstarted : Canonical started.hbm := State.reset_wf
    clear_value started
    rintro t ⟨⟩
    exact hstarted

theorem State.warmResetOverrun_canonical : ∀ t ∈ s.warmResetOverrun, Canonical t.hbm := by
  unfold State.warmResetOverrun
  split
  · exact State.start_canonical
  · rintro t ⟨⟩

end

end Sys2Proof.Machine

namespace Sys2Proof.Machine

/-! SUPPORT. What a word reads, pops, pushes and asks for keeps the memory of HBM in its canonical form. -/

open Sys2Proof

theorem getCtx_keeps : Keeps getCtx := .bind .get fun _ => .bind .get fun _ => .bind .get fun _ => .pure _

theorem stall_keeps {α : Type} : Keeps (stall : M α) := .throw _

theorem modCtx_keeps (f : Ctx → Ctx) : Keeps (modCtx f) := .modify fun _ => rfl

theorem popQ_keeps (q : Que) : Keeps (popQ q) := by
  refine .bind getCtx_keeps fun _ => ?_
  split
  · exact stall_keeps
  · exact .bind (modCtx_keeps _) fun _ => .pure _

theorem noteMark_keeps (m : Option Mark) : Keeps (noteMark m) := by
  unfold noteMark
  split
  · exact .pure _
  · exact .modify fun _ => rfl

theorem ahPop_keeps (c : BitVec 6) : Keeps (ahPop c) :=
  .ite (.bind (popQ_keeps _) fun _ => .bind (noteMark_keeps _) fun _ => .pure _) (.ite (.bind (popQ_keeps _) fun _ => .bind
    (noteMark_keeps _) fun _ => .pure _) (.bind .get fun _ => .pure _))

theorem pushQ_keeps (q : Que) (e : Entry) : Keeps (pushQ q e) := .bind getCtx_keeps fun _ => .ite (modCtx_keeps _) stall_keeps

theorem xset_keeps (c : BitVec 6) (v : W64) : Keeps (xset c v) := .ite (modCtx_keeps _) (.pure _)

theorem ahPush_keeps (c : BitVec 6) (v : W64) : Keeps (ahPush c v) := .ite (pushQ_keeps _ _) (xset_keeps _ _)

theorem xget_keeps (c : BitVec 6) : Keeps (xget c) := .bind .get fun _ => .pure _

theorem jump_keeps (target : W64) : Keeps (jump target) := modCtx_keeps _

theorem fallThrough_keeps : Keeps fallThrough := .bind .get fun _ => modCtx_keeps _

theorem branch_keeps (taken : Bool) (target : W64) : Keeps (branch taken target) := .ite (jump_keeps _) fallThrough_keeps

theorem modCore_keeps (f : Core → Core) : Keeps (modCore f) := .modify fun _ => rfl

theorem retireSelf_keeps : Keeps retireSelf := .modify fun _ => by simp

theorem stallFor_keeps {α : Type} (l : List Chore) : Keeps (stallFor l : M α) := .throw _

theorem localAccess_keeps (addr n : Nat) : Keeps (localAccess addr n) := by
  refine .bind .get fun _ => ?_
  dsimp only
  split
  · exact stallFor_keeps _
  · refine .ite (stallFor_keeps _) (.ite stall_keeps ?_)
    split
    · exact .bind (modCore_keeps _) fun _ => .pure _
    · exact .pure _

theorem checkMark_keeps (addr : Nat) (l : Loc) (n : Nat) : Keeps (checkMark addr l n) := by
  refine .bind .get fun _ => ?_
  split
  · exact .ite (.pure _) (.throw _)
  · exact .pure _

theorem trapWith_keeps {α : Type} (cause : Nat) (tval : W64) : Keeps (trapWith cause tval : M α) := .throw _

theorem checkParity_keeps (addr : Nat) (l : Loc) (n : Nat) : Keeps (checkParity addr l n) :=
  .bind .get fun _ => .ite (trapWith_keeps _ _) (.pure _)

theorem descRead_keeps (addr n : Nat) : Keeps (descRead addr n) :=
  .bind (localAccess_keeps _ _) fun _ => .bind (checkMark_keeps _ _ _) fun _ => .bind (checkParity_keeps _ _ _) fun _ => .bind
    .get fun _ => .pure _

theorem illegalOperand_keeps : Keeps illegalOperand := trapWith_keeps _ _

theorem fenceFirst_keeps : Keeps fenceFirst := .bind .get fun _ => .ite (stallFor_keeps _) (.pure _)

theorem injectParity_keeps (addr : Nat) (l : Loc) : Keeps (injectParity addr l) :=
  .bind .get fun _ => .ite (trapWith_keeps _ _) (.pure _)

theorem forgetRead_keeps : Keeps forgetRead := modCtx_keeps _

theorem localRead_keeps (l : Loc) (n : Nat) : Keeps (localRead l n) := by
  refine .bind .get fun _ => .ite (.pure _) ?_
  split
  · exact stallFor_keeps _
  · exact .bind forgetRead_keeps fun _ => .pure _

theorem loadResult_keeps (d : BitVec 6) (n v : Nat) (mark : Option Mark) : Keeps (loadResult d n v mark) :=
  .ite (pushQ_keeps _ _) (xset_keeps _ _)

theorem holdStore_keeps (l : Loc) (n v : Nat) (w : After → Nat → After) : Keeps (holdStore l n v w) := by
  refine .getBind fun s hs => ?_
  dsimp only
  split
  · exact .ite (.pure _) (.bind (trapWith_keeps _ _) fun _ => .pure _)
  · next h =>
    exact .bind (.set (hs.of_eq ((State.takeEntry_hbm _ _ _ _ h)))) fun _ => .pure _

theorem localStore_keeps (l : Loc) (n v : Nat) (w : After → Nat → After) : Keeps (localStore l n v w) :=
  .ite (.pure _) (.bind (holdStore_keeps _ _ _ _) fun _ => .bind (modCtx_keeps _) fun _ => .modify fun _ => rfl)

theorem openFence_keeps (scope : Nat) : Keeps (openFence scope) :=
  .bind .get fun _ => .bind (modCtx_keeps _) fun _ => .modify fun _ => rfl

theorem fenceAfter_keeps : Keeps fenceAfter := .bind .get fun _ => .ite (openFence_keeps _) (.pure _)

theorem globalChecks_keeps (a : W64) (n : Nat) : Keeps (globalChecks a n) :=
  .bind .get fun _ => .ite (.ite (.pure _) (.bind (trapWith_keeps _ _) fun _ => .pure _)) (.pure _)

theorem globalStore_keeps (a : W64) (n v : Nat) (w : After → Nat → After) : Keeps (globalStore a n v w) := by
  refine .getBind fun s hs => ?_
  dsimp only
  split
  · exact stallFor_keeps _
  · exact .ite (.pure _) (trapWith_keeps _ _)
  · next h =>
    exact .set (hs.of_eq (State.gprepare_hbm _ _ _ _ _ h))
  · next h =>
    exact .set (hs.of_eq ((State.emitLine_hbm _ _ _ _ _ _ _).trans (State.gprepare_hbm _ _ _ _ _ h)))

theorem localWrite_keeps (l : Loc) (n v : Nat) : Keeps (localWrite l n v) := by
  refine .getBind fun s hs => ?_
  split
  · next h =>
    exact .set (hs.of_eq (State.lwriteAt_hbm _ _ _ _ _ _ _ h))
  · exact .ite (.pure _) (trapWith_keeps _ _)

theorem releaseNow_keeps (scope : Nat) : Keeps (releaseNow scope) := .bind .get fun _ => .ite (.pure _) (stallFor_keeps _)

theorem passPoint_keeps (inCore : Bool) : Keeps (passPoint inCore) := .bind .get fun _ => .ite (.pure _) (stallFor_keeps _)

theorem mailEntry_keeps (c n : Nat) : Keeps (mailEntry c n) :=
  .getBind fun _ hs => .ite (.bind (.set hs) fun _ => .pure _) (.ite (.pure _) (.bind (trapWith_keeps _ _) fun _ => .pure _))

theorem globalTarget_keeps (a : W64) (n : Nat) : Keeps (globalTarget a n) := by
  refine .getBind fun s hs => .ite (.ite (.pure _) (.bind (trapWith_keeps _ _) fun _ => .pure _)) ?_
  split
  · exact .ite (.pure _) (.bind (trapWith_keeps _ _) fun _ => .pure _)
  · exact stallFor_keeps _
  · exact .bind (.set (hs.of_eq (State.lookup_hbm _ _ _ _ _))) fun _ => .pure _

theorem storeEntry_keeps (d : Nat) : Keeps (storeEntry d) :=
  .getBind fun _ hs => .ite (.bind (.set hs) fun _ => .pure _) (.ite (.pure _) (.bind (trapWith_keeps _ _) fun _ => .pure _))

theorem sendDelta_keeps (bytes : Nat) (kind : DeltaKind) (target : Target) : Keeps (sendDelta bytes kind target) :=
  .modify fun _ => rfl

theorem poolEntry_keeps (k : Nat) : Keeps (poolEntry k) :=
  .getBind fun _ hs => .ite (.bind (.set hs) fun _ => .pure _) (.ite (.pure _) (.bind (trapWith_keeps _ _) fun _ => .pure _))

theorem foreignEntry_keeps (x : W64) : Keeps (foreignEntry x) :=
  .getBind fun _ hs => .bind (.set hs) fun _ => .ite (.pure _) (.ite (.pure _) (.bind (trapWith_keeps _ _) fun _ => .pure _))

theorem awaitFor_keeps (p : Bool) (l : List Chore) : Keeps (awaitFor p l) := .ite (.pure _) (stallFor_keeps _)

theorem modWalker_keeps (w : Nat) (f : Walker → Walker) : Keeps (modWalker w f) := modCtx_keeps _

theorem stopWalker_keeps (w : Nat) : Keeps (stopWalker w) :=
  .bind .get fun _ => .bind (awaitFor_keeps _ _) fun _ => modWalker_keeps _ _

theorem require_keeps (p : Bool) (cause : Nat) (tval : W64) : Keeps (require p cause tval) :=
  .ite (.pure _) (trapWith_keeps _ _)

theorem ignoring_keeps (cause : Nat) : Keeps (ignoring cause) := .bind .get fun _ => .pure _

theorem withheld_keeps (p : Bool) (cause : Nat) (tval : W64) : Keeps (withheld p cause tval) :=
  .ite (.pure _) (.bind (ignoring_keeps _) fun _ => .ite (.pure _) (.bind (trapWith_keeps _ _) fun _ => .pure _))

theorem checkCopy_keeps (d : Copy) (reserved : Bool) : Keeps (checkCopy d reserved) :=
  .bind (require_keeps _ _ _) fun _ => .bind (withheld_keeps _ _ _) fun _ => .bind (withheld_keeps _ _ _) fun _ => .bind
    (withheld_keeps _ _ _) fun _ => .bind (withheld_keeps _ _ _) fun _ => .pure _

theorem getCore_keeps : Keeps getCore := .bind .get fun _ => .bind .get fun _ => .pure _

theorem takeCopyId_keeps : Keeps takeCopyId := .bind getCore_keeps fun _ => .bind (modCore_keeps _) fun _ => .pure _

theorem await_keeps (p : Bool) : Keeps (await p) := .ite (.pure _) stall_keeps

theorem settled_keeps (all : Bool) : Keeps (settled all) :=
  .bind .get fun _ => .bind (awaitFor_keeps _ _) fun _ => .bind (awaitFor_keeps _ _) fun _ => await_keeps _

theorem copyOrder_keeps (d : Copy) : Keeps (copyOrder d) := by
  refine .bind .get fun _ => .bind (passPoint_keeps _) fun _ => .ite (.bind (settled_keeps _) fun _ => .bind (awaitFor_keeps _
    _) fun _ => .bind (awaitFor_keeps _ _) fun _ => ?_) (.bind (awaitFor_keeps _ _) fun _ => .bind (awaitFor_keeps _ _) fun _ =>
    ?_)
  · dsimp only
    split
    · exact await_keeps _
    · exact await_keeps _
  · dsimp only
    split
    · exact await_keeps _
    · exact await_keeps _

theorem issueCopy_keeps (d : Copy) (total : Nat) : Keeps (issueCopy d total) := by
  refine .ite takeCopyId_keeps (.getBind fun s hs => .bind (copyOrder_keeps _) fun _ => .bind (await_keeps _) fun _ =>
    .bind (awaitFor_keeps _ _) fun _ => ?_)
  split
  · exact stallFor_keeps _
  · exact .ite takeCopyId_keeps (.bind (trapWith_keeps _ _) fun _ => .pure _)
  · next h =>
    exact .bind (.set (hs.of_eq (State.reserveAll_hbm _ _ _ _ _ h))) fun _ => .bind takeCopyId_keeps fun _ =>
      .bind (modCore_keeps _) fun _ => .bind (.modify fun _ => rfl) fun _ => .pure _

theorem ringFor_keeps (h : BitVec 4) (party : Ring → Nat) : Keeps (ringFor h party) := by
  refine .bind getCore_keeps fun _ => ?_
  split
  · exact .bind illegalOperand_keeps fun _ => .pure _
  · exact .bind (require_keeps _ _ _) fun _ => .pure _

theorem me_keeps : Keeps me := .bind .get fun _ => .pure _

theorem ringChores_keeps : Keeps ringChores := .bind getCore_keeps fun _ => .bind me_keeps fun _ => .pure _

theorem noteRead_keeps (off n : Nat) : Keeps (noteRead off n) := .modify fun _ => rfl

theorem rsRead_keeps (off n : Nat) : Keeps (rsRead off n) :=
  .bind (noteRead_keeps _ _) fun _ => .bind getCtx_keeps fun _ => .pure _

theorem popWalker_keeps(w : Nat) : Keeps (popWalker w) := by
  refine .bind .get fun s => .ite (trapWith_keeps _ _) (.ite (.bind (modWalker_keeps _ _) fun _ => .pure _) ?_)
  split
  · exact stallFor_keeps _
  · refine .ite stall_keeps (.ite (stallFor_keeps _) (.ite (stallFor_keeps _) (.ite (trapWith_keeps _ _)
      (.bind (modWalker_keeps _ _) fun _ => .bind (.modify fun u => ?_) fun _ => .bind (noteMark_keeps _) fun _ => .pure _))))
    split <;> rfl

theorem popChan_keeps (dir : Nat) : Keeps (popChan dir) := by
  refine .bind getCore_keeps fun _ => ?_
  split
  · exact stall_keeps
  · exact .bind (modCore_keeps _) fun _ => .pure _

theorem popMail_keeps : Keeps popMail := by
  refine .bind getCore_keeps fun _ => ?_
  split
  · exact stall_keeps
  · exact .bind (modCore_keeps _) fun _ => .pure _

theorem ehPop_keeps (off n : Nat) (c : BitVec 6) : Keeps (ehPop off n c) := by
  refine .ite (rsRead_keeps _ _) ?_
  split
  · exact popWalker_keeps _
  · exact .ite (.bind (popQ_keeps _) fun _ => .bind (noteMark_keeps _) fun _ => .pure _) (.ite (.bind (popChan_keeps _) fun _ =>
      .bind (noteMark_keeps _) fun _ => .pure _) (.ite (.bind popMail_keeps fun _ => .pure _) (.pure _)))

theorem gPop_keeps (c : BitVec 6) : Keeps (gPop c) := .bind (ehPop_keeps _ _ _) fun _ => .pure _

theorem checkReads_keeps (vec : Bool) : Keeps (checkReads vec) := by
  refine .bind .get fun _ => ?_
  dsimp only
  split
  · refine .ite (.bind (.throw _) fun _ => ?_) ?_
    · split
      · exact .ite (trapWith_keeps _ _) (.pure _)
      · exact .pure _
    · split
      · exact .ite (trapWith_keeps _ _) (.pure _)
      · exact .pure _
  · split
    · exact .ite (trapWith_keeps _ _) (.pure _)
    · exact .pure _

theorem rsWrite_keeps (off n v : Nat) : Keeps (rsWrite off n v) :=
  .bind (ignoring_keeps _) fun _ => .ite (.pure _) (modCtx_keeps _)

theorem pushWalker_keeps(w v : Nat) : Keeps (pushWalker w v) := by
  refine .bind .get fun s => .ite (trapWith_keeps _ _) (.ite (modWalker_keeps _ _) (.ite (stallFor_keeps _) ?_))
  extract_lets a l
  clear_value l
  split
  · exact stallFor_keeps _
  · exact .ite stall_keeps (.ite (stallFor_keeps _) (.bind (holdStore_keeps _ _ _ _) fun _ => .bind (modWalker_keeps _ _) fun _
      =>
      .modify fun u => State.pend_hbm u _))

theorem pushChan_keeps (dir : Nat) (e : Entry) : Keeps (pushChan dir e) :=
  .bind (passPoint_keeps _) fun _ => .bind .get fun _ => .ite (modCore_keeps _) (.ite (.modify fun _ => by simp) (.ite (.modify
    fun _ => by simp) stall_keeps))

theorem ehPush_keeps (off n : Nat) (c : BitVec 6) (v : Nat) : Keeps (ehPush off n c v) := by
  refine .ite (rsWrite_keeps _ _ _) (.bind (ignoring_keeps _) fun _ => ?_)
  dsimp only
  split
  · exact pushWalker_keeps _ _
  · exact .ite (pushQ_keeps _ _) (.ite (pushChan_keeps _ _) (.ite (pushQ_keeps _ _) (.pure _)))

theorem gPush_keeps (c : BitVec 6) (v : W64) : Keeps (gPush c v) := .bind (checkReads_keeps _) fun _ => ehPush_keeps _ _ _ _

theorem setFlags_keeps (fl : Nat) : Keeps (setFlags fl) := modCtx_keeps _

theorem activeLanes_keeps (m : BitVec 3) (k : BitVec 1) (w : Nat) : Keeps (activeLanes m k w) :=
  .ite (.pure _) (.bind .get fun _ => .bind (rsRead_keeps _ _) fun _ => .pure _)

theorem oldLanes_keeps (d : BitVec 6) (m : BitVec 3) (k : BitVec 1) : Keeps (oldLanes d m k) :=
  .ite (.bind .get fun _ => rsRead_keeps _ _) (.pure _)

theorem vPop_keeps (c : BitVec 6) : Keeps (vPop c) := .bind .get fun _ => .bind (ehPop_keeps _ _ _) fun _ => .pure _

theorem vPush_keeps (c : BitVec 6) (v : W128) : Keeps (vPush c v) :=
  .bind (checkReads_keeps _) fun _ => .bind .get fun _ => ehPush_keeps _ _ _ _

theorem gPushV_keeps (c : BitVec 6) (v : W64) : Keeps (gPushV c v) := .bind (checkReads_keeps _) fun _ => ehPush_keeps _ _ _ _

theorem viewsReady_keeps (views : List Nat) : Keeps (viewsReady views) :=
  .bind .get fun _ => .bind getCtx_keeps fun _ => await_keeps _

theorem commandOrder_keeps (flagged : Bool) (scope : Nat) : Keeps (commandOrder flagged scope) :=
  .bind (passPoint_keeps _) fun _ => .bind .get fun _ => .ite (.bind (await_keeps _) fun _ => settled_keeps _) (.pure _)

theorem takeJobId_keeps : Keeps takeJobId := .bind getCore_keeps fun _ => .bind (modCore_keeps _) fun _ => .pure _

theorem submit_keeps (t : Nat) (j : Job) : Keeps (submit t j) :=
  .bind .get fun _ => .bind (await_keeps _) fun _ => .bind takeJobId_keeps fun _ => .bind .get fun _ => .bind (modCore_keeps _)
    fun _ => .bind (.modify fun _ => rfl) fun _ => .pure _

theorem readMask_keeps (code : Nat) : Keeps (readMask code) :=
  .ite (.bind .get fun _ => .bind (rsRead_keeps _ _) fun _ => .pure _) (.pure _)

theorem jobOfRegs_keeps (a : BitVec 6) : Keeps (jobOfRegs a) :=
  .bind .get fun _ => .bind (rsRead_keeps _ _) fun _ => .bind (rsRead_keeps _ _) fun _ => .bind (viewsReady_keeps _) fun _ =>
    .bind (readMask_keeps _) fun _ => .bind (readMask_keeps _) fun _ => .bind (readMask_keeps _) fun _ => .pure _

theorem reserveJob_keeps (j : Job) (t : Nat) : Keeps (reserveJob j t) := by
  refine .getBind fun s hs => ?_
  dsimp only
  split
  · next h =>
    exact .bind (checkReads_keeps _) fun _ =>
      .bind (.set (hs.of_eq (reserveEach_hbm (fun _ _ => State.reserveAs_hbm _ _ _ _ _) _ _ _ h))) fun _ => .pure _
  · exact .bind (stallFor_keeps _) fun _ => .pure _
  · exact .ite (.bind (checkReads_keeps _) fun _ => .pure _) (.ite (.bind (checkReads_keeps _) fun _ => .bind (trapWith_keeps _
      _) fun _ => .pure _) (.bind (trapWith_keeps _ _) fun _ => .pure _))

theorem walkersDone_keeps : Keeps walkersDone := .bind .get fun _ => .bind getCtx_keeps fun _ => awaitFor_keeps _ _

theorem waitWord_keeps (x : W64) : Keeps (waitWord x) := by
  refine .getBind fun s hs => .ite (.bind (globalChecks_keeps _ _) fun _ => .ite (.pure _) ?_) (.bind (localAccess_keeps _ _)
    fun _ => .bind (checkMark_keeps _ _ _) fun _ => .bind (checkParity_keeps _ _ _) fun _ => .ite (.pure _) (.bind .get
    fun _ => .pure _))
  split
  · exact .ite (.pure _) (.bind (trapWith_keeps _ _) fun _ => .pure _)
  · exact stallFor_keeps _
  · exact .bind (.set (State.scrubLine_canonical (hs.of_eq (State.lookup_hbm _ _ _ _ _)) _)) fun _ =>
      .ite (stallFor_keeps _) (.ite (.ite (.pure _) (.throw _)) (.pure _))

theorem readsDone_keeps : Keeps readsDone := .bind (checkReads_keeps _) fun _ => .modify fun _ => rfl

theorem csrWrite_keeps (n : Nat) (v clear : W64) : Keeps (csrWrite n v clear) :=
  .bind .get fun _ => .ite (modCore_keeps _) (.ite (.pure _) (.ite illegalOperand_keeps (.bind (modCtx_keeps _) fun _ => .ite
    (.modify fun _ => rfl) (.pure _))))

theorem hintAt_keeps (addr : W64) : Keeps (hintAt addr) := by
  refine .bind .get fun _ => ?_
  split
  · exact .pure _
  · exact stallFor_keeps _
  · exact .pure _

theorem illegalInstr_keeps : Keeps illegalInstr := trapWith_keeps _ _

theorem openLoop_keeps (len : Nat) (walk : Bool) (walker flag : Nat) (count : W64) : Keeps (openLoop len walk walker flag count)
  :=
  .bind .get fun _ => .bind getCtx_keeps fun _ => .ite (.bind illegalInstr_keeps fun _ => .ite (.ite (.bind illegalInstr_keeps
    fun _ => .bind (hintAt_keeps _) fun _ => .ite (.bind illegalInstr_keeps fun _ => .ite (jump_keeps _) (.bind (modCtx_keeps _)
    fun _ => fallThrough_keeps)) (.ite (jump_keeps _) (.bind (modCtx_keeps _) fun _ => fallThrough_keeps))) (.bind (hintAt_keeps
    _) fun _ => .ite (.bind illegalInstr_keeps fun _ => .ite (jump_keeps _) (.bind (modCtx_keeps _) fun _ => fallThrough_keeps))
    (.ite (jump_keeps _) (.bind (modCtx_keeps _) fun _ => fallThrough_keeps)))) (.bind (hintAt_keeps _) fun _ => .ite (.bind
    illegalInstr_keeps fun _ => .ite (jump_keeps _) (.bind (modCtx_keeps _) fun _ => fallThrough_keeps)) (.ite (jump_keeps _)
    (.bind (modCtx_keeps _) fun _ => fallThrough_keeps)))) (.ite (.ite (.bind illegalInstr_keeps fun _ => .bind (hintAt_keeps _)
    fun _ => .ite (.bind illegalInstr_keeps fun _ => .ite (jump_keeps _) (.bind (modCtx_keeps _) fun _ => fallThrough_keeps))
    (.ite (jump_keeps _) (.bind (modCtx_keeps _) fun _ => fallThrough_keeps))) (.bind (hintAt_keeps _) fun _ => .ite (.bind
    illegalInstr_keeps fun _ => .ite (jump_keeps _) (.bind (modCtx_keeps _) fun _ => fallThrough_keeps)) (.ite (jump_keeps _)
    (.bind (modCtx_keeps _) fun _ => fallThrough_keeps)))) (.bind (hintAt_keeps _) fun _ => .ite (.bind illegalInstr_keeps fun _
    => .ite (jump_keeps _) (.bind (modCtx_keeps _) fun _ => fallThrough_keeps)) (.ite (jump_keeps _) (.bind (modCtx_keeps _) fun
    _ => fallThrough_keeps))))

end Sys2Proof.Machine

namespace Sys2Proof.Machine

/-! SUPPORT. Each unit's next piece of work, and the fetch of a context, keep the memory of HBM in its canonical form. -/

open Sys2Proof

/-- What a piece of work leaves, when it can occur, holds a canonical memory. -/
def EachCanonical (o : Option State) : Prop := ∀ t ∈ o, Canonical t.hbm

section
variable {s : State} (h : Canonical s.hbm)
include h

theorem EachCanonical.of_hbm {o : Option State} (ho : ∀ t ∈ o, t.hbm = s.hbm) : EachCanonical o :=
  fun t ht => h.of_eq (ho t ht)

omit h in
theorem EachCanonical.of_some {t : State} (ht : Canonical t.hbm) : EachCanonical (some t) := by
  rintro u ⟨⟩
  exact ht

omit h in
theorem EachCanonical.of_toOption {ε : Type} {x : Except ε State} (hx : ∀ t, x = .ok t → Canonical t.hbm) :
    EachCanonical x.toOption := by
  rintro t ht
  cases x with
  | error e => cases ht
  | ok u => exact hx t (congrArg _ (Option.some.inj ht))

/-! ### The chores -/

theorem State.tryChore_canonical (c : Chore) : EachCanonical (s.tryChore c) := by
  cases c with
  | walkerFetch => exact .of_hbm h (State.walkerFetch_hbm _ _ _ _)
  | walkerStoreWrite => exact .of_hbm h (State.walkerWrite_hbm _ _ _ _)
  | pageBringUp => exact fun _ => State.pageBringUp_canonical h
  | backgroundScrub => exact fun _ => State.backgroundScrub_canonical h
  | startMessage => exact .of_hbm h (State.startMessage_hbm _ _ _ _)
  | coreArrive => exact .of_hbm h (State.coreArrive_hbm _ _ _)
  | risingPennant => exact .of_hbm h (State.risingPennant_hbm _ _)
  | pollTimer => exact .of_hbm h (State.pollTimer_hbm _ _)
  | poll => exact .of_hbm h (State.poll_hbm _ _ _)
  | corePark => exact .of_hbm h (State.corePark_hbm _ _)
  | decideCommit => exact fun _ => State.decideCommit_canonical h
  | decideAbort => exact fun _ => State.decideAbort_canonical h
  | decideProceed => exact .of_hbm h (State.decideProceed_hbm _ _ _)
  | donePennant => exact .of_hbm h (State.donePennant_hbm _ _)
  | resume => exact .of_hbm h (State.resume_hbm _ _)
  | watchdogExpiry => exact .of_hbm h (State.watchdogExpiry_hbm _ _)
  | deltaArrive => exact .of_hbm h (State.deltaArrive_hbm _ _ _)
  | matrixJobStart => exact State.arbitrate_canonical h _ _
  | drainRow => exact .of_toOption (State.drainNext_canonical h _)
  | matrixJobComplete => exact .of_hbm h (State.matrixJobComplete_hbm _ _)
  | chainForward => exact .of_hbm h (State.chainForward_hbm _ _)
  | streamPublishRead => exact .of_toOption (State.publishRead_canonical h _ _)
  | copyReusable => exact fun _ => State.copyReusable_canonical h
  | copyVisible => exact .of_hbm h (State.copyVisible_hbm _ _ _)
  | copyFault => exact fun _ => State.copyFault_canonical h
  | pfeRun => exact fun _ => State.pfeRun_canonical h
  | pfeLand => exact State.pfeLand_canonical h _
  | pfePromote => exact .of_some (h.of_eq (State.pfePromote_hbm _ _ _))
  | sweepComplete => exact fun _ => State.sweepComplete_canonical h
  | bgemvComplete => exact .of_toOption fun _ => State.bankRun_canonical h
  | nbuFault => exact fun _ => State.nbuFault_canonical h
  | collStart => exact .of_toOption fun _ => State.collBegin_canonical h
  | collComplete => exact .of_toOption (State.collFinish_canonical h _ _)
  | collTimeout => exact .of_hbm h (State.collTimeout_hbm _ _ _)
  | globalAccessPerformed => exact fun _ => State.globalAccessPerformed_canonical h
  | storeWrite => exact .of_hbm h (State.storeWrite_hbm _ _ _)
  | loadPart => exact .of_some (h.of_eq (State.loadPart_hbm _ _ _ _ _ _ _))
  | loadSend => exact .of_some (h.of_eq (State.loadSend_hbm _ _ _ _ _ _))
  | scStart => exact .of_some (h.of_eq (State.scStart_hbm _ _ _ _ _))
  | scFence => exact .of_hbm h (State.scFence_hbm _ _ _)
  | bankWrite => exact .of_toOption fun _ => State.bankOut_canonical h
  | launchSelect => exact fun _ => State.launchSelect_canonical h
  | gatePass => exact .of_toOption fun _ => State.passGate_canonical h
  | recomputeDrop => exact .of_hbm h (State.recomputeDrop_hbm _ _)
  | saveSignal => exact .of_hbm h (State.saveSignal_hbm _ _)
  | copySaveDone => exact .of_hbm h (State.copySaveDone_hbm _ _)
  | restoreDone => exact .of_hbm h (State.restoreDone_hbm _ _)
  | warmReset => exact fun _ => State.warmReset_canonical h
  | warmResetOverrun => exact State.warmResetOverrun_canonical
  | edgeDown => exact .of_hbm h (State.edgeDown_hbm _ _)
  | moduleRetrain => exact .of_hbm h (State.moduleRetrain_hbm _ _ _)
  | portRetrain => exact .of_hbm h (State.portRetrain_hbm _ _)
  | heartbeatFlit => exact .of_hbm h (State.heartbeatFlit_hbm _ _ _)
  | deviceFailed => exact .of_hbm h (State.deviceFailed_hbm _ _ _)
  | powerStateApply => exact .of_hbm h (State.powerStateApply_hbm _ _)
  | derate => exact .of_hbm h (State.derate_hbm _ _ _)
  | flashWrite => exact .of_hbm h (State.flashWrite_hbm _)

theorem State.runChore_canonical (c : Chore) : Canonical (s.runChore c).hbm := by
  unfold State.runChore
  split
  · exact h.of_eq (State.pend_hbm _ _)
  · split
    · next ht => exact State.tryChore_canonical h c _ ht
    · split
      · exact h.of_eq (State.pend_hbm _ _)
      · exact h

/-! ### The turn of a context -/

/-- The state that a context's turn goes on from. -/
def Act.state : Act → State
  | .done t => t
  | .go _ t => t

theorem State.fetch_canonical (c : Nat) (pc : W64) : ∀ w t, s.fetch c pc = .word w t → Canonical t.hbm := by
  intro w t ht
  unfold State.fetch at ht
  dsimp only at ht
  split at ht
  · cases ht
  · cases ht
  · split at ht
    · cases ht
    · cases ht
      exact State.scrubLine_canonical (h.of_eq (State.lookup_hbm _ _ _ _ _)) _

theorem State.deliver_canonical (c k : Nat) (straight : Bool) : Canonical (s.deliver c k straight).state.hbm := by
  unfold State.deliver
  extract_lets u x pc
  have hu : Canonical u.hbm := by
    unfold u
    split
    · exact h
    · exact h
  clear_value u
  split
  · split
    · exact hu.of_eq (State.fetchTrap_hbm _ _ _ _ _ _)
    · exact hu
  · exact hu.of_eq (State.pend_hbm _ _)
  · next ht =>
    have hw := State.fetch_canonical hu c pc _ _ ht
    dsimp only
    split
    · exact hw
    · split
      · exact hw
      · exact hw

theorem State.contextTurn_canonical (c k : Nat) : Canonical (s.contextTurn c k).state.hbm := by
  unfold State.contextTurn
  dsimp only
  split
  · exact h
  · split
    · exact h.of_eq (State.pend_hbm _ _)
    · split
      · exact h
      · exact State.deliver_canonical (h.of_eq (State.modCtx_hbm _ _ _ _)) c k true
      · split
        · split
          · exact h
          · exact h
        · split
          · exact h
          · exact h

end

end Sys2Proof.Machine

namespace Sys2Proof.Machine

/-! SUPPORT. An outcome's memory: a word in its frame, a step of the device, and what its body must keep. -/

open Sys2Proof

/-- An outcome goes on only to states with a canonical memory. -/
def Ends (o : Host.Outcome State Fault Refusal) : Prop := ∀ t, o = .next t → Canonical t.hbm

section
variable {s : State} {a b : Host.Outcome State Fault Refusal} {name : String} {o : Option State}

theorem Ends.next {t : State} (h : Canonical t.hbm) : Ends (.next t.quiet) := by
  rintro t ⟨⟩
  exact h

theorem Ends.event (ho : EachCanonical o) : Ends (event name o) := by
  cases o with
  | none => rintro t ⟨⟩
  | some s => exact .next (ho s rfl)

theorem Ends.ite {p : Prop} [Decidable p] (ha : Ends a) (hb : Ends b) : Ends (if p then a else b) := by
  split
  · exact ha
  · exact hb

/-- A step of the device that does not write the memory. -/
theorem Ends.eventHbm (h : Canonical s.hbm) (ho : ∀ t ∈ o, t.hbm = s.hbm) : Ends (Machine.event name o) :=
  .event (.of_hbm h ho)

end

section
variable {i : Instr} {ill opd vec : Bool} {body : M Unit} (hb : Keeps body) {s : State} (h : Canonical s.hbm)
include hb h

theorem attempt_canonical {t : State} (ht : attempt i ill opd vec body s = .ok t) : Canonical t.hbm := by
  have hnop : ∀ u, (Except.ok (if deferred i then s.modCtx s.issue.core s.issue.ctx (fun c => c.follow s.issue.addr
    c.eh.isEmpty)
      else s) : Except Stop State) = .ok u → Canonical u.hbm := by
    rintro u ⟨⟩
    split
    · exact h
    · exact h
  unfold attempt at ht
  dsimp only at ht
  split at ht
  · exact hnop t ht
  · split at ht
    · cases ht
    · split at ht
      · next hr =>
        cases ht
        exact Keeps.bind hb (fun _ => checkReads_keeps vec) _ _ _ hr h
      · cases ht
      · cases ht
      · cases ht
      · split at ht
        · exact hnop t ht
        · cases ht
      · cases ht

/-- Where one attempt ends: it has run, it waits, it has trapped, or it goes on with its trap ignored. -/
theorem settle_canonical (n : Nat) : Canonical (settle i ill opd vec body s n).hbm := by
  have hdone : ∀ {u : State} (t : State), t.hbm = u.hbm → Canonical u.hbm → Canonical t.quiet.hbm := fun _ e hu => hu.of_eq e
  induction n generalizing s with
  | zero =>
    unfold settle
    split
    · next t ht => exact hdone t rfl (attempt_canonical hb h ht)
    · exact h.of_eq (State.pend_hbm _ _)
    · split
      · next t ht => exact hdone t (State.takeTrap_done_hbm ht) h
      · next t ht => exact hdone t (State.takeTrap_ignored_hbm ht) h
  | succ n ih =>
    unfold settle
    split
    · next t ht => exact hdone t rfl (attempt_canonical hb h ht)
    · exact h.of_eq (State.pend_hbm _ _)
    · split
      · next t ht => exact hdone t (State.takeTrap_done_hbm ht) h
      · next t ht =>
        have hu : Canonical t.hbm := h.of_eq (State.takeTrap_ignored_hbm ht)
        exact ih hu

theorem Ends.runWith : Ends (runWith i ill opd vec body s) := by
  rintro t ⟨⟩
  exact settle_canonical hb h 17

end

end Sys2Proof.Machine

namespace Sys2Proof.Machine

/-! SUPPORT. The body of every word keeps the memory of HBM in its canonical form: one rule for each form, then one for each
  word
with a body of its own. -/

open Sys2Proof

section
variable {s : State} (hc : Canonical s.hbm)
include hc

/-! ### The forms that words share -/

theorem ahAlu_ends (i : Instr) (op : IntOp) (d a b : BitVec 6) (w : BitVec 2) : Ends (ahAlu i op d a b w s) :=
  .runWith (.bind (ahPop_keeps _) fun _ => .bind (ahPop_keeps _) fun _ => ahPush_keeps _ _) hc

theorem ahImm_ends (i : Instr) (op : IntOp) (d a : BitVec 6) (im : BitVec 12) : Ends (ahImm i op d a im s) :=
  .runWith (.bind (ahPop_keeps _) fun _ => ahPush_keeps _ _) hc

theorem ahBranch_ends (i : Instr) (p : W64 → W64 → Bool) (a b : BitVec 6) (o : BitVec 12) : Ends (ahBranch i p a b o s) :=
  .runWith (.bind (ahPop_keeps _) fun _ => .bind (ahPop_keeps _) fun _ => branch_keeps _ _) hc

theorem ehAlu_ends (i : Instr) (op : IntOp) (d a b : BitVec 6) (w : BitVec 2) : Ends (ehAlu i op d a b w s) :=
  .runWith (.bind (gPop_keeps _) fun _ => .bind (gPop_keeps _) fun _ => gPush_keeps _ _) hc

theorem ehDiv_ends (i : Instr) (signed remainder : Bool) (d a b : BitVec 6) (w : BitVec 2) : Ends (ehDiv i signed remainder d a
  b w s) :=
  .runWith (.bind (gPop_keeps _) fun _ => .bind (gPop_keeps _) fun _ => .bind (setFlags_keeps _) fun _ => gPush_keeps _ _) hc

theorem ehUnary_ends (i : Instr) (f : Nat → Nat → Nat) (d a : BitVec 6) (w : BitVec 2) : Ends (ehUnary i f d a w s) :=
  .runWith (.bind (gPop_keeps _) fun _ => gPush_keeps _ _) hc

theorem ehImm_ends (i : Instr) (op : IntOp) (d a : BitVec 6) (im : BitVec 12) : Ends (ehImm i op d a im s) :=
  .runWith (.bind (gPop_keeps _) fun _ => gPush_keeps _ _) hc

theorem fpForm_ends (i : Instr) (d a b : BitVec 6) (lane : State → Nat → Nat → Lane) : Ends (fpForm i d a b lane s) :=
  .runWith (.bind (gPop_keeps _) fun _ => .bind (gPop_keeps _) fun _ => .bind (gPush_keeps _ _) fun _ => setFlags_keeps _) hc

theorem fpUnary_ends (i : Instr) (d a : BitVec 6) (lane : State → Nat → Lane) : Ends (fpUnary i d a lane s) :=
  .runWith (.bind (gPop_keeps _) fun _ => .bind (gPush_keeps _ _) fun _ => setFlags_keeps _) hc

theorem vMasked_ends (i : Instr) (d a b : BitVec 6) (m : BitVec 3) (k : BitVec 1) (w : Nat) (lane : State → Nat → Nat → Nat →
  Lane) : Ends (vMasked i d a b m k w lane s) :=
  .runWith (.bind (activeLanes_keeps _ _ _) fun _ => .bind (oldLanes_keeps _ _ _) fun _ => .bind (vPop_keeps _) fun _ => .bind
    (vPop_keeps _) fun _ => .bind (vPush_keeps _ _) fun _ => setFlags_keeps _) hc

theorem vInt_ends (i : Instr) (op : IntOp) (d a b : BitVec 6) (m : BitVec 3) (k : BitVec 1) (w : BitVec 2) : Ends (vInt i op d a
  b m k w s) :=
  vMasked_ends hc _ _ _ _ _ _ _ _

theorem vLanes_ends (i : Instr) (d a b : BitVec 6) (w : Nat) (lane : State → Nat → Nat → Lane) : Ends (vLanes i d a b w lane s)
  :=
  .runWith (.bind (vPop_keeps _) fun _ => .bind (vPop_keeps _) fun _ => .bind (vPush_keeps _ _) fun _ => setFlags_keeps _) hc

theorem vFp_ends (i : Instr) (op : FpOp) (d a b : BitVec 6) (m : BitVec 3) (k : BitVec 1) (w : BitVec 2) : Ends (vFp i op d a b
  m k w s) := by
  unfold vFp
  exact vMasked_ends hc _ _ _ _ _ _ _ _

theorem vUnary_ends (i : Instr) (d a : BitVec 6) (f : State → Nat → Nat × Nat) : Ends (vUnary i d a f s) :=
  .runWith (.bind (vPop_keeps _) fun _ => .bind (vPush_keeps _ _) fun _ => setFlags_keeps _) hc

theorem vBoth_ends (i : Instr) (d a b : BitVec 6) (f : Nat → Nat → Nat) : Ends (vBoth i d a b f s) :=
  .runWith (.bind (vPop_keeps _) fun _ => .bind (vPop_keeps _) fun _ => vPush_keeps _ _) hc

theorem vPart_ends (i : Instr) (d a : BitVec 6) (extra : List (BitVec 6)) (sw dw p : Nat) (f : State → W128 → Nat → Nat → Lane)
  : Ends (vPart i d a extra sw dw p f s) := by
  refine .runWith (.ite (.bind (rsRead_keeps _ _) fun _ => .bind (vPop_keeps _) fun _ => ?_) (.bind (.pure _) fun _ => .bind
    (vPop_keeps _) fun _ => ?_)) hc
  · dsimp only
    split
    · exact .bind (vPop_keeps _) fun _ => .bind (vPush_keeps _ _) fun _ => setFlags_keeps _
    · exact .bind (.pure _) fun _ => .bind (vPush_keeps _ _) fun _ => setFlags_keeps _
  · dsimp only
    split
    · exact .bind (vPop_keeps _) fun _ => .bind (vPush_keeps _ _) fun _ => setFlags_keeps _
    · exact .bind (.pure _) fun _ => .bind (vPush_keeps _ _) fun _ => setFlags_keeps _

theorem vCount_ends (i : Instr) (d a : BitVec 6) (m : BitVec 3) (w : Nat) (f : List Bool → Nat) : Ends (vCount i d a m w f s) :=
  .runWith (.bind (activeLanes_keeps _ _ _) fun _ => .bind (vPop_keeps _) fun _ => gPushV_keeps _ _) hc

theorem vStamped_ends (i : Instr) (d a b : BitVec 6) (f : State → Nat → Nat → Nat → Lane) : Ends (vStamped i d a b f s) :=
  .runWith (.bind (vPop_keeps _) fun _ => .bind (vPop_keeps _) fun _ => .bind (vPush_keeps _ _) fun _ => setFlags_keeps _) hc

theorem csrForm_ends (i : Instr) (d : BitVec 6) (c : BitVec 12) (f : W64 → W64 → W64) (w1c : Bool) : Ends (csrForm i d c f w1c
  s) :=
  .runWith (.bind (gPop_keeps _) fun _ => .bind .get fun _ => .bind getCtx_keeps fun _ => .bind (require_keeps _ _ _) fun _ =>
    .bind readsDone_keeps fun _ => .bind (ignoring_keeps _) fun _ => .ite (.pure _) (csrWrite_keeps _ _ _)) hc

theorem loadTile_ends (i : Instr) (west : Bool) (d : BitVec 6) (n : BitVec 4) : Ends (loadTile i west d n s) :=
  .runWith (.bind (viewsReady_keeps _) fun _ => .bind (commandOrder_keeps _ _) fun _ => .bind (submit_keeps _ _) fun _ =>
    gPush_keeps _ _) hc

/-! ### Words that give their form a function of their own -/

theorem execSext_ends (d a : BitVec 6) (w : BitVec 2) : Ends (execSext d a w s) :=
  ehUnary_ends hc _ _ _ _ _

theorem execFadd_ends (d a b : BitVec 6) (r : BitVec 3) (f : BitVec 2) : Ends (execFadd d a b r f s) :=
  fpForm_ends hc _ _ _ _ _

theorem execFsub_ends (d a b : BitVec 6) (r : BitVec 3) (f : BitVec 2) : Ends (execFsub d a b r f s) :=
  fpForm_ends hc _ _ _ _ _

theorem execFmul_ends (d a b : BitVec 6) (r : BitVec 3) (f : BitVec 2) : Ends (execFmul d a b r f s) :=
  fpForm_ends hc _ _ _ _ _

theorem execFmin_ends (d a b : BitVec 6) (f : BitVec 2) : Ends (execFmin d a b f s) :=
  fpForm_ends hc _ _ _ _ _

theorem execFmax_ends (d a b : BitVec 6) (f : BitVec 2) : Ends (execFmax d a b f s) :=
  fpForm_ends hc _ _ _ _ _

theorem execFcmp_ends (d a b : BitVec 6) (c : BitVec 3) (f : BitVec 2) : Ends (execFcmp d a b c f s) :=
  fpForm_ends hc _ _ _ _ _

theorem execFcvt_ends (d a : BitVec 6) (k : BitVec 2) (t : BitVec 4) (c r : BitVec 3) : Ends (execFcvt d a k t c r s) :=
  fpUnary_ends hc _ _ _ _

theorem execFsgn_ends (d a b : BitVec 6) (o : BitVec 3) (f : BitVec 2) : Ends (execFsgn d a b o f s) :=
  fpForm_ends hc _ _ _ _ _

theorem execFclass_ends (d a : BitVec 6) (f : BitVec 2) : Ends (execFclass d a f s) :=
  fpUnary_ends hc _ _ _ _

theorem execFrnd_ends (d a : BitVec 6) (r : BitVec 3) (f : BitVec 2) : Ends (execFrnd d a r f s) :=
  fpUnary_ends hc _ _ _ _

theorem execVcmp_ends (d a b : BitVec 6) (c : BitVec 3) (w : BitVec 2) : Ends (execVcmp d a b c w s) :=
  vLanes_ends hc _ _ _ _ _ _

theorem execVfmin_ends (d a b : BitVec 6) (m : BitVec 3) (k : BitVec 1) (w : BitVec 2) : Ends (execVfmin d a b m k w s) :=
  vMasked_ends hc _ _ _ _ _ _ _ _

theorem execVfmax_ends (d a b : BitVec 6) (m : BitVec 3) (k : BitVec 1) (w : BitVec 2) : Ends (execVfmax d a b m k w s) :=
  vMasked_ends hc _ _ _ _ _ _ _ _

theorem execVfcmp_ends (d a b : BitVec 6) (c : BitVec 3) (f : BitVec 2) : Ends (execVfcmp d a b c f s) :=
  vLanes_ends hc _ _ _ _ _ _

theorem execVfcvt_ends (d a : BitVec 6) (p : BitVec 2) (t : BitVec 4) (c r : BitVec 3) : Ends (execVfcvt d a p t c r s) :=
  vPart_ends hc _ _ _ _ _ _ _ _

theorem execVfsgn_ends (d a b : BitVec 6) (o : BitVec 3) (f : BitVec 2) : Ends (execVfsgn d a b o f s) :=
  vLanes_ends hc _ _ _ _ _ _

theorem execVfclass_ends (d a : BitVec 6) (f : BitVec 2) : Ends (execVfclass d a f s) :=
  vUnary_ends hc _ _ _ _

theorem execVfred_ends (d a : BitVec 6) (o : BitVec 2) (f : BitVec 2) : Ends (execVfred d a o f s) :=
  vUnary_ends hc _ _ _ _

theorem execVscale_ends (d a : BitVec 6) (t f : BitVec 2) : Ends (execVscale d a t f s) :=
  vUnary_ends hc _ _ _ _

theorem execVmpop_ends (d a : BitVec 6) (m : BitVec 3) (w : BitVec 2) : Ends (execVmpop d a m w s) :=
  vCount_ends hc _ _ _ _ _ _

theorem execVsread_ends (d a : BitVec 6) : Ends (execVsread d a s) :=
  vUnary_ends hc _ _ _ _

theorem execVsmrg_ends (d a b : BitVec 6) (r : BitVec 3) : Ends (execVsmrg d a b r s) :=
  vStamped_ends hc _ _ _ _ _

theorem execCsrw_ends (d : BitVec 6) (c : BitVec 12) : Ends (execCsrw d c s) :=
  csrForm_ends hc _ _ _ _ _

theorem execCsrc_ends (d : BitVec 6) (c : BitVec 12) : Ends (execCsrc d c s) :=
  csrForm_ends hc _ _ _ _ _

theorem execCsrs_ends (d : BitVec 6) (c : BitVec 12) : Ends (execCsrs d c s) :=
  csrForm_ends hc _ _ _ _ _

theorem execVmfirst_ends (d a : BitVec 6) (m : BitVec 3) (w : BitVec 2) : Ends (execVmfirst d a m w s) :=
  vCount_ends hc _ _ _ _ _ _

theorem execVsaddStamped_ends (d a b : BitVec 6) (r : BitVec 3) : Ends (execVsaddStamped d a b r s) :=
  vStamped_ends hc _ _ _ _ _

theorem execAbge_ends (a b : BitVec 6) (o : BitVec 12) : Ends (execAbge a b o s) := by
  unfold execAbge
  exact ahBranch_ends hc _ _ _ _ _

theorem execAbgeu_ends (a b : BitVec 6) (o : BitVec 12) : Ends (execAbgeu a b o s) := by
  unfold execAbgeu
  exact ahBranch_ends hc _ _ _ _ _

/-! ### The words with a body of their own -/

theorem execAmad_ends (d a b : BitVec 6) (w : BitVec 2) : Ends (execAmad d a b w s) :=
  .runWith (.bind (xget_keeps _) fun _ => .bind (ahPop_keeps _) fun _ => .bind (ahPop_keeps _) fun _ => ahPush_keeps _ _) hc

theorem execAli_ends (d : BitVec 6) (im : BitVec 18) : Ends (execAli d im s) :=
  .runWith (ahPush_keeps _ _) hc

theorem execAlui_ends (d : BitVec 6) (im : BitVec 18) : Ends (execAlui d im s) :=
  .runWith (.bind (xget_keeps _) fun _ => xset_keeps _ _) hc

theorem execAbq_ends (sense : BitVec 1) (o : BitVec 12) : Ends (execAbq sense o s) := by
  refine .runWith (.bind getCtx_keeps fun _ => ?_) hc
  split
  · exact stall_keeps
  · exact .bind (modCtx_keeps _) fun _ => branch_keeps _ _

theorem execAjmp_ends (im : BitVec 24) : Ends (execAjmp im s) :=
  .runWith (jump_keeps _) hc

theorem execAcall_ends (im : BitVec 24) : Ends (execAcall im s) :=
  .runWith (.bind (xset_keeps _ _) fun _ => jump_keeps _) hc

theorem execAret_ends : Ends (execAret s) :=
  .runWith (.bind (xget_keeps _) fun _ => jump_keeps _) hc

theorem execAjr_ends (d a : BitVec 6) (im : BitVec 12) : Ends (execAjr d a im s) :=
  .runWith (.bind (xget_keeps _) fun _ => .bind (xset_keeps _ _) fun _ => jump_keeps _) hc

theorem execSel_ends (d a b : BitVec 6) (w : BitVec 2) : Ends (execSel d a b w s) :=
  .runWith (.bind (gPop_keeps _) fun _ => .bind (gPop_keeps _) fun _ => .bind (gPop_keeps _) fun _ => gPush_keeps _ _) hc

theorem execLi_ends (d : BitVec 6) (im : BitVec 18) : Ends (execLi d im s) :=
  .runWith (gPush_keeps _ _) hc

theorem execLui_ends (d : BitVec 6) (im : BitVec 18) : Ends (execLui d im s) :=
  .runWith (.bind (gPop_keeps _) fun _ => gPush_keeps _ _) hc

theorem execEpb_ends (a : BitVec 6) (c : BitVec 2) : Ends (execEpb a c s) :=
  .runWith (.bind (gPop_keeps _) fun _ => .bind (checkReads_keeps _) fun _ => .bind getCtx_keeps fun _ => .ite (modCtx_keeps _)
    stall_keeps) hc

theorem execEbnz_ends (a : BitVec 6) (sense : BitVec 1) (o : BitVec 12) : Ends (execEbnz a sense o s) :=
  .runWith (.bind (gPop_keeps _) fun _ => .bind (checkReads_keeps _) fun _ => branch_keeps _ _) hc

theorem execFeat_ends (d a : BitVec 6) (t : BitVec 1) : Ends (execFeat d a t s) :=
  .runWith (.bind (gPop_keeps _) fun _ => .bind (require_keeps _ _ _) fun _ => gPush_keeps _ _) hc

theorem execFma_ends (d a b : BitVec 6) (r : BitVec 3) (f : BitVec 2) : Ends (execFma d a b r f s) :=
  .runWith (.bind (gPop_keeps _) fun _ => .bind (gPop_keeps _) fun _ => .bind (gPop_keeps _) fun _ => .bind (gPush_keeps _ _)
    fun _ => setFlags_keeps _) hc

theorem execVsel_ends (d a b : BitVec 6) (m : BitVec 3) (w : BitVec 2) : Ends (execVsel d a b m w s) :=
  .runWith (.bind (rsRead_keeps _ _) fun _ => .bind (vPop_keeps _) fun _ => .bind (vPop_keeps _) fun _ => vPush_keeps _ _) hc

theorem execVfma_ends (d a b : BitVec 6) (m : BitVec 3) (k : BitVec 1) (w : BitVec 2) : Ends (execVfma d a b m k w s) :=
  .runWith (.bind (activeLanes_keeps _ _ _) fun _ => .bind (vPop_keeps _) fun _ => .bind (vPop_keeps _) fun _ => .bind
    (vPop_keeps _) fun _ => .bind (vPush_keeps _ _) fun _ => setFlags_keeps _) hc

theorem execVdot_ends (d a b : BitVec 6) (r t : BitVec 3) : Ends (execVdot d a b r t s) :=
  .runWith (.bind (vPop_keeps _) fun _ => .bind (vPop_keeps _) fun _ => .bind (vPop_keeps _) fun _ => .bind (vPush_keeps _ _)
    fun _ => setFlags_keeps _) hc

theorem execVmov_ends (d a : BitVec 6) (m : BitVec 3) (k : BitVec 1) (w : BitVec 2) : Ends (execVmov d a m k w s) :=
  .runWith (.bind (activeLanes_keeps _ _ _) fun _ => .bind (oldLanes_keeps _ _ _) fun _ => .bind (vPop_keeps _) fun _ =>
    vPush_keeps _ _) hc

theorem execVsplat_ends (d a : BitVec 6) (m : BitVec 3) (k : BitVec 1) (w : BitVec 2) : Ends (execVsplat d a m k w s) :=
  .runWith (.bind (activeLanes_keeps _ _ _) fun _ => .bind (oldLanes_keeps _ _ _) fun _ => .bind (gPop_keeps _) fun _ =>
    vPush_keeps _ _) hc

theorem execVperm_ends (d a b : BitVec 6) (m : BitVec 3) (k : BitVec 1) (w : BitVec 2) : Ends (execVperm d a b m k w s) :=
  .runWith (.bind (activeLanes_keeps _ _ _) fun _ => .bind (oldLanes_keeps _ _ _) fun _ => .bind (vPop_keeps _) fun _ => .bind
    (vPop_keeps _) fun _ => vPush_keeps _ _) hc

theorem execVext_ends (d a : BitVec 6) (w : BitVec 2) (k : BitVec 4) : Ends (execVext d a w k s) :=
  .runWith (.bind (vPop_keeps _) fun _ => gPushV_keeps _ _) hc

theorem execVins_ends (d a : BitVec 6) (w : BitVec 2) (k : BitVec 4) : Ends (execVins d a w k s) :=
  .runWith (.bind (vPop_keeps _) fun _ => .bind (gPop_keeps _) fun _ => vPush_keeps _ _) hc

theorem execVshuf_ends (d a b : BitVec 6) (o : BitVec 3) (w : BitVec 2) : Ends (execVshuf d a b o w s) := by
  unfold execVshuf
  exact .ite (vUnary_ends hc _ _ _ _) (vBoth_ends hc _ _ _ _ _)

theorem execVslide_ends (d a b : BitVec 6) (w : BitVec 2) (k : BitVec 4) : Ends (execVslide d a b w k s) := by
  unfold execVslide
  exact vBoth_ends hc _ _ _ _ _

theorem execVnarrow_ends (d a b : BitVec 6) (m w : BitVec 2) : Ends (execVnarrow d a b m w s) := by
  unfold execVnarrow
  exact vBoth_ends hc _ _ _ _ _

theorem execVwiden_ends (d a : BitVec 6) (h sg : BitVec 1) (w : BitVec 2) : Ends (execVwiden d a h sg w s) := by
  unfold execVwiden
  exact vUnary_ends hc _ _ _ _

theorem execVqpack_ends (d a b : BitVec 6) (p t f : BitVec 2) : Ends (execVqpack d a b p t f s) := by
  unfold execVqpack
  exact vPart_ends hc _ _ _ _ _ _ _ _

theorem execVqunpk_ends (d a b : BitVec 6) (p t f : BitVec 2) : Ends (execVqunpk d a b p t f s) := by
  unfold execVqunpk
  exact vPart_ends hc _ _ _ _ _ _ _ _

theorem execVrot_ends (d a b : BitVec 6) (r : BitVec 1) (w : BitVec 2) : Ends (execVrot d a b r w s) := by
  unfold execVrot
  exact vLanes_ends hc _ _ _ _ _ _

theorem execCord_ends (d a : BitVec 6) (n : BitVec 5) (fn : BitVec 4) : Ends (execCord d a n fn s) :=
  .runWith (.bind (gPop_keeps _) fun _ => .ite (.bind (gPop_keeps _) fun _ => .bind (gPushV_keeps _ _) fun _ => setFlags_keeps
    _) (.bind (.pure _) fun _ => .bind (gPushV_keeps _ _) fun _ => setFlags_keeps _)) hc

theorem execVcord_ends (d a : BitVec 6) (n : BitVec 5) (fn : BitVec 4) : Ends (execVcord d a n fn s) :=
  .runWith (.bind (vPop_keeps _) fun _ => .ite (.bind (vPop_keeps _) fun _ => .bind (vPush_keeps _ _) fun _ => setFlags_keeps _)
    (.bind (.pure _) fun _ => .bind (vPush_keeps _ _) fun _ => setFlags_keeps _)) hc

theorem execSset_ends (d a : BitVec 6) (c : BitVec 4) : Ends (execSset d a c s) :=
  .runWith (.bind (gPop_keeps _) fun _ => .bind (gPushV_keeps _ _) fun _ => setFlags_keeps _) hc

theorem execSread_ends (d a : BitVec 6) : Ends (execSread d a s) :=
  .runWith (.bind (gPop_keeps _) fun _ => .bind (gPushV_keeps _ _) fun _ => setFlags_keeps _) hc

theorem execSadd_ends (d a b : BitVec 6) (r : BitVec 3) : Ends (execSadd d a b r s) :=
  .runWith (.bind (gPop_keeps _) fun _ => .bind (gPop_keeps _) fun _ => .bind (gPushV_keeps _ _) fun _ => setFlags_keeps _) hc

theorem execSmrg_ends (d a b : BitVec 6) (r : BitVec 3) : Ends (execSmrg d a b r s) :=
  .runWith (.bind (gPop_keeps _) fun _ => .bind (gPop_keeps _) fun _ => .bind (gPushV_keeps _ _) fun _ => setFlags_keeps _) hc

theorem execVoptw_ends (d a b p : BitVec 6) : Ends (execVoptw d a b p s) :=
  .runWith (.bind (vPop_keeps _) fun _ => .bind (rsRead_keeps _ _) fun _ => .bind (rsRead_keeps _ _) fun _ => .bind
    (rsRead_keeps _ _) fun _ => .bind (rsRead_keeps _ _) fun _ => .bind (checkReads_keeps _) fun _ => .bind (rsWrite_keeps _ _
    _) fun _ => .bind (rsWrite_keeps _ _ _) fun _ => .bind (rsWrite_keeps _ _ _) fun _ => setFlags_keeps _) hc

theorem execRsld_ends (d b : BitVec 6) (o : BitVec 9) (z : BitVec 3) : Ends (execRsld d b o z s) :=
  .runWith (.bind (gPop_keeps _) fun _ => .bind (rsRead_keeps _ _) fun _ => .ite (vPush_keeps _ _) (gPushV_keeps _ _)) hc

theorem execRsst_ends (d b : BitVec 6) (o : BitVec 9) (z : BitVec 3) : Ends (execRsst d b o z s) :=
  .runWith (.bind (gPop_keeps _) fun _ => .ite (.bind (.bind (vPop_keeps _) fun _ => .pure _) fun _ => .bind (checkReads_keeps
    _) fun _ => rsWrite_keeps _ _ _) (.bind (.bind (gPop_keeps _) fun _ => .pure _) fun _ => .bind (checkReads_keeps _) fun _ =>
    rsWrite_keeps _ _ _)) hc

theorem execLd_ends (d b : BitVec 6) (o : BitVec 9) (z : BitVec 3) : Ends (execLd d b o z s) :=
  .runWith (.bind fenceFirst_keeps fun _ => .bind (localAccess_keeps _ _) fun _ => .ite (.bind (injectParity_keeps _ _) fun _ =>
    .bind (checkParity_keeps _ _ _) fun _ => .bind (localRead_keeps _ _) fun _ => .ite (.pure _) (loadResult_keeps _ _ _ _))
    (.bind (checkMark_keeps _ _ _) fun _ => .bind (injectParity_keeps _ _) fun _ => .bind (checkParity_keeps _ _ _) fun _ =>
    .bind (localRead_keeps _ _) fun _ => .ite (.pure _) (loadResult_keeps _ _ _ _))) hc

theorem execSt_ends (d b : BitVec 6) (o : BitVec 9) (z : BitVec 3) : Ends (execSt d b o z s) :=
  .runWith (.bind (ahPop_keeps _) fun _ => .bind (localAccess_keeps _ _) fun _ => .bind (localStore_keeps _ _ _ _) fun _ =>
    fenceAfter_keeps) hc

theorem execLdg_ends (d b : BitVec 6) (o : BitVec 9) (z : BitVec 3) : Ends (execLdg d b o z s) := by
  refine .runWith ?_ hc
  dsimp only
  split
  · exact .bind forgetRead_keeps fun _ => loadResult_keeps _ _ _ _
  · exact .ite (.bind forgetRead_keeps fun _ => loadResult_keeps _ _ _ _) (.ite forgetRead_keeps (.throw _))
  · refine .bind fenceFirst_keeps fun _ => .bind (globalChecks_keeps _ _) fun _ => .ite (loadResult_keeps _ _ _ _) (.bind .get
      fun _ => ?_)
    split
    · exact .ite (loadResult_keeps _ _ _ _) (trapWith_keeps _ _)
    · exact stallFor_keeps _
    · exact .ite (trapWith_keeps _ _) (stallFor_keeps _)

theorem execStg_ends (d b : BitVec 6) (o : BitVec 9) (z : BitVec 3) : Ends (execStg d b o z s) :=
  .runWith (.bind (ahPop_keeps _) fun _ => .bind (globalChecks_keeps _ _) fun _ => .ite fenceAfter_keeps (.bind (modCtx_keeps _)
    fun _ => .bind (globalStore_keeps _ _ _ _) fun _ => fenceAfter_keeps)) hc

theorem execLatm_ends (d b : BitVec 6) (p : BitVec 4) (z : BitVec 3) : Ends (execLatm d b p z s) := by
  refine .runWith (.bind fenceFirst_keeps fun _ => .ite (.bind (releaseNow_keeps _) fun _ => .bind (xget_keeps _) fun _ => .bind
    (xget_keeps _) fun _ => .bind (localAccess_keeps _ _) fun _ => .bind (checkMark_keeps _ _ _) fun _ => .bind
    (checkParity_keeps _ _ _) fun _ => .bind .get fun _ => .ite fenceAfter_keeps ?_) (.bind (passPoint_keeps _) fun _ => .bind
    (xget_keeps _) fun _ => .bind (xget_keeps _) fun _ => .bind (localAccess_keeps _ _) fun _ => .bind (checkMark_keeps _ _ _)
    fun _ => .bind (checkParity_keeps _ _ _) fun _ => .bind .get fun _ => .ite fenceAfter_keeps ?_)) hc
  · dsimp only
    split
    · exact .bind (localWrite_keeps _ _ _) fun _ => .bind (xset_keeps _ _) fun _ => fenceAfter_keeps
    · exact .bind (xset_keeps _ _) fun _ => fenceAfter_keeps
  · dsimp only
    split
    · exact .bind (localWrite_keeps _ _ _) fun _ => .bind (xset_keeps _ _) fun _ => fenceAfter_keeps
    · exact .bind (xset_keeps _ _) fun _ => fenceAfter_keeps

theorem execFence_ends (sc k : BitVec 3) : Ends (execFence sc k s) :=
  .runWith (.bind (require_keeps _ _ _) fun _ => .ite (modCtx_keeps _) (.pure _)) hc

theorem execFenceSc_ends (sc : BitVec 3) : Ends (execFenceSc sc s) :=
  .runWith (.bind (require_keeps _ _ _) fun _ => openFence_keeps _) hc

theorem execFenceBank_ends : Ends (execFenceBank s) :=
  .runWith (.bind (settled_keeps _) fun _ => .bind .get fun _ => awaitFor_keeps _ _) hc

theorem execWcfg_ends (a : BitVec 6) (n : BitVec 3) : Ends (execWcfg a n s) :=
  .runWith (.bind (descRead_keeps _ _) fun _ => .ite illegalOperand_keeps (.bind (stopWalker_keeps _) fun _ => modWalker_keeps _
    _)) hc

theorem execWstart_ends (n : BitVec 3) : Ends (execWstart n s) :=
  .runWith (.bind (modWalker_keeps _ _) fun _ => .modify fun _ => by simp) hc

theorem execWstop_ends (n : BitVec 3) : Ends (execWstop n s) :=
  .runWith (stopWalker_keeps _) hc

theorem execWflags_ends (d : BitVec 6) (n : BitVec 3) : Ends (execWflags d n s) :=
  .runWith (xset_keeps _ _) hc

theorem execWpos_ends (d a : BitVec 6) (f : BitVec 1) (n : BitVec 3) : Ends (execWpos d a f n s) :=
  .runWith (.bind (xset_keeps _ _) fun _ => .ite (modWalker_keeps _ _) (.pure _)) hc

theorem execWinset_ends (a b : BitVec 6) : Ends (execWinset a b s) :=
  .runWith (.bind (descRead_keeps _ _) fun _ => .ite illegalOperand_keeps (.getBind fun _ ht =>
    .ite (.set (ht.of_eq (State.winsetNow_hbm _ _ _ _))) (.ite (.set (ht.of_eq (State.winsetLater_hbm _ _ _ _)))
      (.ite (.pure _) (trapWith_keeps _ _))))) hc

theorem execWinget_ends (d a : BitVec 6) (k : BitVec 2) : Ends (execWinget d a k s) :=
  .runWith (xset_keeps _ _) hc

theorem execCpy_ends (d a : BitVec 6) : Ends (execCpy d a s) :=
  .runWith (.bind (descRead_keeps _ _) fun _ => .bind (checkCopy_keeps _ _) fun _ => .bind (issueCopy_keeps _ _) fun _ =>
    xset_keeps _ _) hc

theorem execCpyw_ends (a : BitVec 6) (e : BitVec 2) : Ends (execCpyw a e s) := by
  refine .runWith (.bind getCore_keeps fun _ => ?_) hc
  split
  · exact .pure _
  · exact awaitFor_keeps _ _

theorem execRcpy_ends (d a : BitVec 6) (r : BitVec 1) (h : BitVec 4) : Ends (execRcpy d a r h s) := by
  refine .runWith ?_ hc
  dsimp only
  split
  · exact illegalOperand_keeps
  · refine .ite (.bind (require_keeps _ _ _) fun _ => .bind (checkCopy_keeps _ _) fun _ => ?_) (.bind (require_keeps _ _ _) fun
      _ => .bind (checkCopy_keeps _ _) fun _ => ?_)
    · split
      · exact stallFor_keeps _
      · exact .bind (issueCopy_keeps _ _) fun _ => .bind getCore_keeps fun _ => .ite (.bind (.modify fun _ => rfl) fun _ =>
          xset_keeps _ _) (xset_keeps _ _)
    · split
      · exact stallFor_keeps _
      · exact .bind (awaitFor_keeps _ _) fun _ => .bind (issueCopy_keeps _ _) fun _ => .bind getCore_keeps fun _ => .ite (.bind
          (.modify fun _ => rfl) fun _ => xset_keeps _ _) (xset_keeps _ _)

theorem execSsweep_ends (d a b : BitVec 6) : Ends (execSsweep d a b s) :=
  .runWith (.bind (require_keeps _ _ _) fun _ => .bind (withheld_keeps _ _ _) fun _ => .bind (withheld_keeps _ _ _) fun _ =>
    .bind (issueCopy_keeps _ _) fun _ => xset_keeps _ _) hc

theorem execRcfg_ends (a : BitVec 6) (h : BitVec 4) : Ends (execRcfg a h s) :=
  .runWith (.bind (descRead_keeps _ _) fun _ => .bind getCore_keeps fun _ => .ite (.ite illegalOperand_keeps (modCore_keeps _))
    (.ite illegalOperand_keeps (modCore_keeps _))) hc

theorem execRresv_ends (d : BitVec 6) (h : BitVec 4) : Ends (execRresv d h s) := by
  refine .runWith (.bind (ringFor_keeps _ _) fun _ => ?_) hc
  split
  · exact .bind ringChores_keeps fun _ => stallFor_keeps _
  · exact .bind (.modify fun _ => rfl) fun _ => xset_keeps _ _

theorem execRprod_ends (h : BitVec 4) : Ends (execRprod h s) := by
  refine .runWith (.bind (ringFor_keeps _ _) fun _ => ?_) hc
  split
  · exact illegalOperand_keeps
  · exact .bind (releaseNow_keeps _) fun _ => .modify fun _ => rfl

theorem execRwait_ends (d : BitVec 6) (h : BitVec 4) : Ends (execRwait d h s) := by
  refine .runWith (.bind (ringFor_keeps _ _) fun _ => ?_) hc
  split
  · exact .ite (.bind (.modify fun _ => rfl) fun _ => xset_keeps _ _) (.bind ringChores_keeps fun _ => stallFor_keeps _)
  · exact .bind ringChores_keeps fun _ => stallFor_keeps _

theorem execRcons_ends (h : BitVec 4) : Ends (execRcons h s) := by
  refine .runWith (.bind (ringFor_keeps _ _) fun _ => ?_) hc
  split
  · exact illegalOperand_keeps
  · exact .bind (releaseNow_keeps _) fun _ => .modify fun _ => rfl

theorem execRslot_ends (d a : BitVec 6) (h : BitVec 4) : Ends (execRslot d a h s) :=
  .runWith (.bind (ringFor_keeps _ _) fun _ => xset_keeps _ _) hc

theorem execCsrr_ends (d : BitVec 6) (c : BitVec 12) : Ends (execCsrr d c s) :=
  .runWith (gPush_keeps _ _) hc

theorem execTrap_ends (i : BitVec 24) : Ends (execTrap i s) :=
  .runWith (trapWith_keeps _ _) hc

theorem execDbrk_ends (i : BitVec 24) : Ends (execDbrk i s) :=
  .runWith (.bind getCtx_keeps fun _ => .ite (modCtx_keeps _) (trapWith_keeps _ _)) hc

theorem execEret_ends : Ends (execEret s) :=
  .runWith (modCtx_keeps _) hc

theorem execHalt_ends : Ends (execHalt s) :=
  .runWith (.ite (modCtx_keeps _) retireSelf_keeps) hc

theorem execNop_ends : Ends (execNop s) :=
  .runWith (.pure _) hc

theorem execHimm_ends (p : BitVec 24) : Ends (execHimm p s) :=
  .runWith (modCtx_keeps _) hc

theorem execHmod_ends (e : BitVec 16) (sd n : BitVec 1) (c k : BitVec 3) : Ends (execHmod e sd n c k s) :=
  .runWith (modCtx_keeps _) hc

theorem execHsched_ends (x : BitVec 19) (k : BitVec 1) (r l : BitVec 2) : Ends (execHsched x k r l s) :=
  .runWith (.pure _) hc

theorem execNopHint_ends (op : BitVec 2) (p : BitVec 24) : Ends (execNopHint op p s) :=
  .runWith (.pure _) hc

theorem execIllegalInstruction_ends (w : BitVec 32) : Ends (execIllegalInstruction w s) :=
  .runWith (.pure _) hc

theorem execTvld_ends (a : BitVec 6) (n : BitVec 4) : Ends (execTvld a n s) :=
  .runWith (.bind (descRead_keeps _ _) fun _ => .ite illegalOperand_keeps (modCore_keeps _)) hc

theorem execMjob_ends (d a : BitVec 6) : Ends (execMjob d a s) :=
  .runWith (.bind (jobOfRegs_keeps _) fun _ => .bind getCore_keeps fun _ => .bind (require_keeps _ _ _) fun _ => .bind
    (require_keeps _ _ _) fun _ => .bind (commandOrder_keeps _ _) fun _ => .bind .get fun _ => .bind (await_keeps _) fun _ =>
    .bind (reserveJob_keeps _ _) fun _ => .ite (.bind .get fun _ => .bind (submit_keeps _ _) fun _ => .bind (modCore_keeps _)
    fun _ => gPush_keeps _ _) (.bind takeJobId_keeps fun _ => gPush_keeps _ _)) hc

theorem execMsend_ends (d a b : BitVec 6) : Ends (execMsend d a b s) :=
  .runWith (.bind (jobOfRegs_keeps _) fun _ => .bind (gPop_keeps _) fun _ => .bind getCore_keeps fun _ => .bind (require_keeps _
    _ _) fun _ => .bind (require_keeps _ _ _) fun _ => .bind (commandOrder_keeps _ _) fun _ => .bind .get fun _ => .bind
    (await_keeps _) fun _ => .bind (reserveJob_keeps _ _) fun _ => .ite (.bind .get fun _ => .bind (submit_keeps _ _) fun _ =>
    gPush_keeps _ _) (.bind takeJobId_keeps fun _ => gPush_keeps _ _)) hc

theorem execMwait_ends (d a : BitVec 6) : Ends (execMwait d a s) :=
  .runWith (.bind (gPop_keeps _) fun _ => .bind (checkReads_keeps _) fun _ => .bind .get fun _ => .bind (await_keeps _) fun _ =>
    gPush_keeps _ _) hc

theorem execMpoll_ends (d a : BitVec 6) : Ends (execMpoll d a s) :=
  .runWith (.bind (gPop_keeps _) fun _ => .bind .get fun _ => gPush_keeps _ _) hc

theorem execMpub_ends (d a : BitVec 6) (n : BitVec 4) : Ends (execMpub d a n s) := by
  unfold execMpub
  refine .runWith (.bind (viewsReady_keeps _) fun _ => .bind getCore_keeps fun _ => .bind (require_keeps _ _ _) fun _ =>
    .bind (commandOrder_keeps _ _) fun _ => .bind .get fun _ => .ite (gPush_keeps _ _) (.bind (await_keeps _) fun _ =>
    .bind .get fun _ => .bind (.modify fun t => ?_) fun _ => gPush_keeps _ _)) hc
  exact State.pend_hbm _ _

theorem execMsub_ends (d a b : BitVec 6) : Ends (execMsub d a b s) := by
  unfold execMsub
  refine .runWith (.bind (gPop_keeps _) fun _ => .bind (require_keeps _ _ _) fun _ => .bind (checkReads_keeps _) fun _ =>
    .bind (passPoint_keeps _) fun _ => .bind .get fun _ => .ite (gPush_keeps _ _) (.bind (.modify fun t => ?_)
    fun _ => gPush_keeps _ _)) hc
  rfl

theorem execMunsub_ends (a : BitVec 6) : Ends (execMunsub a s) :=
  .runWith (.modify fun _ => by simp) hc

theorem execMchain_ends (d a : BitVec 6) (n : BitVec 3) : Ends (execMchain d a n s) := by
  unfold execMchain
  refine .runWith (.bind (gPop_keeps _) fun _ => .bind (checkReads_keeps _) fun _ => .bind (passPoint_keeps _) fun _ =>
    .bind .get fun _ => .ite (.bind (.modify fun t => ?_) fun _ => gPush_keeps _ _) (gPush_keeps _ _)) hc
  exact State.linkChain_hbm _ _

theorem execMcap_ends (d a b : BitVec 6) : Ends (execMcap d a b s) :=
  .runWith (.bind (gPop_keeps _) fun _ => .bind (gPop_keeps _) fun _ => .bind (require_keeps _ _ _) fun _ => .bind
    (checkReads_keeps _) fun _ => gPush_keeps _ _) hc

theorem execMhnd_ends (d : BitVec 6) : Ends (execMhnd d s) := by
  refine .runWith (.bind getCtx_keeps fun _ => ?_) hc
  split
  · exact .pure _
  · refine .bind .get fun _ => ?_
    split
    · exact .pure _
    · exact gPush_keeps _ _

theorem execMdone_ends (drop app : BitVec 1) (m : BitVec 3) : Ends (execMdone drop app m s) := by
  refine .runWith (.bind walkersDone_keeps fun _ => .bind getCtx_keeps fun _ => ?_) hc
  split
  · exact .pure _
  · refine .bind .get fun _ => ?_
    split
    · exact .pure _
    · extract_lets done w withMask
      have hdone : ∀ u, Keeps (done u) := fun _ => .modify fun _ => State.endRow_hbm _ _
      have hmask : ∀ n, Keeps (withMask n) := by
        intro mask
        unfold withMask
        extract_lets withRow
        have hrow : ∀ n, Keeps (withRow n) := by
          refine fun row => .bind (checkReads_keeps _) fun _ => .ite (hdone ()) (.getBind fun t ht => ?_)
          dsimp only
          split
          · next hr => exact .bind (.set (State.finishRow_canonical ht hr)) fun _ => hdone ()
          · exact .bind (stallFor_keeps _) fun _ => hdone ()
        exact .ite (.bind (rsRead_keeps _ _) fun _ => hrow _) (.bind (.pure _) fun _ => hrow _)
      exact .ite (.bind (rsRead_keeps _ _) fun _ => hmask _) (.bind (.pure _) fun _ => hmask _)

theorem execBgemv_ends (d a : BitVec 6) : Ends (execBgemv d a s) := by
  refine .runWith (.bind (rsRead_keeps _ _) fun _ => .bind (rsRead_keeps _ _) fun _ => .bind (require_keeps _ _ _) fun _ =>
    .bind (require_keeps _ _ _) fun _ => .bind (withheld_keeps _ _ _) fun _ => .bind (withheld_keeps _ _ _) fun _ => .bind
    (withheld_keeps _ _ _) fun _ => .bind (withheld_keeps _ _ _) fun _ => ?_) hc
  extract_lets g start
  have hstart : ∀ u, Keeps (start u) := by
    refine fun _ => .bind (commandOrder_keeps _ _) fun _ => .bind getCore_keeps fun _ => .bind (await_keeps _) fun _ =>
      .bind (modCore_keeps _) fun _ => .getBind fun t ht => .ite (gPush_keeps _ _) ?_
    split
    · exact stallFor_keeps _
    · exact .ite (gPush_keeps _ _) (.ite (.bind (checkReads_keeps _) fun _ => trapWith_keeps _ _) (trapWith_keeps _ _))
    · next hu =>
      have hu' := ht.of_eq (State.reserveAll_hbm _ _ _ _ _ hu)
      refine .bind (checkReads_keeps _) fun _ => .bind (.set ?_) fun _ => .bind (modCore_keeps _) fun _ => gPush_keeps _ _
      split
      · exact hu'
      · exact hu'
  split
  · exact .bind (stallFor_keeps _) fun _ => hstart ()
  · exact hstart ()

theorem execBwait_ends (d a : BitVec 6) : Ends (execBwait d a s) :=
  .runWith (.bind (gPop_keeps _) fun _ => .bind (checkReads_keeps _) fun _ => .bind getCore_keeps fun _ => .bind (awaitFor_keeps
    _ _) fun _ => gPush_keeps _ _) hc

theorem execCsig_ends (a b : BitVec 6) (sc k : BitVec 3) : Ends (execCsig a b sc k s) := by
  refine .runWith (.bind (require_keeps _ _ _) fun _ => .bind (ahPop_keeps _) fun _ => .bind (ahPop_keeps _) fun _ => .bind
    (globalChecks_keeps _ _) fun _ => .ite (.pure _) ?_) hc
  split
  · exact .bind (withheld_keeps _ _ _) fun _ => .ite (.pure _) (globalStore_keeps _ _ _ _)
  · exact globalStore_keeps _ _ _ _

theorem execColl_ends (d a : BitVec 6) : Ends (execColl d a s) := by
  refine .runWith (.bind (descRead_keeps _ _) fun _ => .bind (require_keeps _ _ _) fun _ => .bind (withheld_keeps _ _ _) fun _
    => .bind (withheld_keeps _ _ _) fun _ => .bind (withheld_keeps _ _ _) fun _ => .bind (withheld_keeps _ _ _) fun _ => ?_) hc
  split
  · exact xset_keeps _ _
  · refine .ite (xset_keeps _ _) (.bind (passPoint_keeps _) fun _ => ?_)
    split
    · exact stall_keeps
    · exact .bind (.modify fun _ => by simp) fun _ => xset_keeps _ _

theorem execCwait_ends (d a : BitVec 6) : Ends (execCwait d a s) := by
  refine .runWith ?_ hc
  split
  · exact stall_keeps
  · exact xset_keeps _ _
  · exact xset_keeps _ _

theorem execBar_ends (d a : BitVec 6) (o : BitVec 3) (sl : BitVec 2) : Ends (execBar d a o sl s) := by
  unfold execBar
  refine .runWith (.bind getCtx_keeps fun _ => .bind (require_keeps _ _ _) fun _ => .bind (ahPop_keeps _) fun _ => ?_) hc
  extract_lets v sl0 wait
  have hwait : ∀ u, Keeps (wait u) := fun _ => .bind walkersDone_keeps fun _ => .bind (modCtx_keeps _) fun _ =>
    .bind (modCore_keeps _) fun _ => .modify fun _ => State.checkArrive_hbm _ _
  exact .ite (.bind (modCtx_keeps _) fun _ => hwait ()) (hwait ())

theorem execVote_ends (a : BitVec 6) (c : BitVec 1) (k : BitVec 2) : Ends (execVote a c k s) :=
  .runWith (.ite (.bind (gPop_keeps _) fun _ => .bind (checkReads_keeps _) fun _ => .ite (modCtx_keeps _) (.pure _)) (.bind
    (.pure _) fun _ => .bind (checkReads_keeps _) fun _ => .ite (modCtx_keeps _) (.pure _))) hc

theorem execStepadv_ends (a : BitVec 6) : Ends (execStepadv a s) :=
  .runWith (.bind (gPop_keeps _) fun _ => .bind (require_keeps _ _ _) fun _ => modCore_keeps _) hc

theorem execWait_ends (d a b : BitVec 6) (sc c : BitVec 3) : Ends (execWait d a b sc c s) := by
  refine .runWith (.bind (require_keeps _ _ _) fun _ => .bind getCore_keeps fun _ => .ite (.bind (await_keeps _) fun _ =>
    ahPush_keeps _ _) (.ite (.bind (await_keeps _) fun _ => ahPush_keeps _ _) (.ite (.bind (ahPop_keeps _) fun _ => .bind
    (await_keeps _) fun _ => ahPush_keeps _ _) (.bind (ahPop_keeps _) fun _ => .bind (ahPop_keeps _) fun _ => .bind
    (waitWord_keeps _) fun _ => ?_)))) hc
  split
  · exact ahPush_keeps _ _
  · exact .ite (ahPush_keeps _ _) (.pure _)
  · exact .bind (await_keeps _) fun _ => ahPush_keeps _ _

theorem execTnext_ends (d : BitVec 6) (i : BitVec 12) : Ends (execTnext d i s) :=
  .runWith (.ite (.bind (modCore_keeps _) fun _ => .bind (xset_keeps _ _) fun _ => fallThrough_keeps) (jump_keeps _)) hc

theorem execTend_ends : Ends (execTend s) :=
  .runWith retireSelf_keeps hc

theorem execSpawn_ends (d a b : BitVec 6) : Ends (execSpawn d a b s) := by
  refine .runWith (.bind (ahPop_keeps _) fun _ => .bind (ahPop_keeps _) fun _ => ?_) hc
  split
  · exact ahPush_keeps _ _
  · exact .bind (.modify fun _ => rfl) fun _ => ahPush_keeps _ _

theorem execFan_ends (a b : BitVec 6) : Ends (execFan a b s) :=
  .runWith (.bind (ahPop_keeps _) fun _ => .bind (ahPop_keeps _) fun _ => .modify fun _ => by simp) hc

theorem execGang_ends (d a : BitVec 6) : Ends (execGang d a s) := by
  refine .runWith (.bind (ahPop_keeps _) fun _ => .bind (descRead_keeps _ _) fun _ => .ite illegalOperand_keeps ?_) hc
  split
  · exact .ite (.bind (.modify fun _ => rfl) fun _ => ahPush_keeps _ _) (ahPush_keeps _ _)
  · exact ahPush_keeps _ _

theorem execTqpush_ends (d a : BitVec 6) : Ends (execTqpush d a s) := by
  refine .runWith (.bind (ahPop_keeps _) fun _ => .bind (descRead_keeps _ _) fun _ => ?_) hc
  dsimp only
  split
  · exact .bind (.modify fun _ => rfl) fun _ => ahPush_keeps _ _
  · exact ahPush_keeps _ _

theorem execPut_ends (d a b : BitVec 6) (z : BitVec 3) : Ends (execPut d a b z s) := by
  unfold execPut
  refine .runWith (.bind (passPoint_keeps _) fun _ => .bind (ahPop_keeps _) fun _ => .bind (ahPop_keeps _) fun _ => ?_) hc
  extract_lets v line
  have hline : ∀ t, Keeps (line t) := fun _ => sendDelta_keeps _ _ _
  refine .ite (.bind (globalTarget_keeps _ _) fun die => ?_) (.ite (.bind (poolEntry_keeps _) fun _ => .ite (hline _) (.pure _))
    (.bind (foreignEntry_keeps _) fun _ => .ite (.modify fun _ => State.sendAway_hbm _ _ _ _ _) (.pure _)))
  cases die with
  | none => exact .pure _
  | some k => exact .bind (storeEntry_keeps _) fun _ => .ite (hline _) (.pure _)

theorem execAtom_ends (d a b : BitVec 6) (r w : BitVec 1) (p : BitVec 4) : Ends (execAtom d a b r w p s) := by
  unfold execAtom
  refine .runWith (.bind (passPoint_keeps _) fun _ => .bind (ahPop_keeps _) fun _ => .bind (ahPop_keeps _) fun _ => ?_) hc
  extract_lets v kind mail
  have hmail : Keeps mail := .ite (mailEntry_keeps _ _) (.pure _)
  have hsend : ∀ m : M Unit, Keeps m → Keeps (do if ← mail then m else pure ()) := fun _ hm => .bind hmail fun _ => .ite hm
    (.pure _)
  refine .ite (.bind (globalTarget_keeps _ _) fun die => ?_) (.ite (.bind (poolEntry_keeps _) fun _ => .ite
    (hsend _ (sendDelta_keeps _ _ _)) (.pure _))
    (.bind (foreignEntry_keeps _) fun _ => .ite (hsend _ (.modify fun _ => State.sendAway_hbm _ _ _ _ _)) (.pure _)))
  cases die with
  | none => exact .pure _
  | some k => exact .bind (storeEntry_keeps _) fun _ => .ite (hsend _ (sendDelta_keeps _ _ _)) (.pure _)

theorem execMsg_ends (d a b : BitVec 6) (f : BitVec 1) : Ends (execMsg d a b f s) := by
  unfold execMsg
  refine .runWith (.bind (passPoint_keeps _) fun _ => .bind (ahPop_keeps _) fun _ => ?_) hc
  extract_lets u t send
  have hsend : ∀ l, Keeps (send l) := by
    intro l
    unfold send
    extract_lets deliver
    have hdeliver : ∀ r, Keeps (deliver r) := fun _ => .ite (sendDelta_keeps _ _ _) (.pure _)
    exact .ite (.ite (.bind (mailEntry_keeps _ _) fun _ => hdeliver _) (.bind (.pure _) fun _ => hdeliver _))
      (.bind (foreignEntry_keeps _) fun _ => .ite (.modify fun _ => State.sendAway_hbm _ _ _ _ _) (.pure _))
  exact .ite (.bind (.bind (ahPop_keeps _) fun _ => .pure _) fun _ => hsend _) (.bind (.pure _) fun _ => hsend _)

theorem execPflist_ends (a : BitVec 6) : Ends (execPflist a s) := by
  refine .runWith (.ite (trapWith_keeps _ _) (.ite (.pure _) (.ite (.ite (.pure _) (trapWith_keeps _ _)) (.bind (passPoint_keeps
    _) fun _ => .ite (.set (hc.of_eq (State.cancelChains_hbm _ _))) ?_)))) hc
  split
  · exact stallFor_keeps _
  · exact .set (hc.of_eq (by simp))
  · exact .set (hc.of_eq (by simp))

theorem execFetchDeliver_ends (c k : Nat) : Ends (execFetchDeliver c k s) := by
  unfold execFetchDeliver
  have hd := State.deliver_canonical hc c k false
  refine .ite (fun _ h => nomatch h) ?_
  split
  · next ht => exact .next (by rwa [ht] at hd)
  · next ht =>
    rw [ht] at hd
    split
    · exact execHimm_ends hd _
    · exact execHmod_ends hd _ _ _ _ _
    · exact execHsched_ends hd _ _ _ _
    · exact execNopHint_ends hd _ _
    · exact .next hd

theorem execLoop_ends (a : BitVec 6) (i : BitVec 12) : Ends (execLoop a i s) :=
  .runWith (openLoop_keeps _ _ _ _ _) hc

theorem execLoopi_ends (i : BitVec 18) : Ends (execLoopi i s) :=
  .runWith (openLoop_keeps _ _ _ _ _) hc

theorem execLoopw_ends (f : BitVec 2) (w : BitVec 3) (i : BitVec 12) : Ends (execLoopw f w i s) :=
  .runWith (openLoop_keeps _ _ _ _ _) hc

theorem execLbrk_ends (n : BitVec 2) : Ends (execLbrk n s) :=
  .runWith (.bind (modCtx_keeps _) fun _ => jump_keeps _) hc

end

end Sys2Proof.Machine

namespace Sys2Proof.Machine

/-! O6. Every step keeps the memory of HBM in its canonical form. -/

open Sys2Proof

section
variable {s : State} (h : Canonical s.hbm)
include h

/-- Each word by its form or by its own body, each step of the device by what it leaves of the memory. -/
theorem exec_ends (i : Instr) : Ends (exec i s) :=
  match i with
| .aadd .. | .asub .. | .aand .. | .aorr .. | .axor .. | .ashl .. | .ashr .. | .asar .. | .amul .. | .amin .. | .amax .. |
    .aminu .. | .amaxu .. | .aslt .. | .asltu .. => ahAlu_ends h _ _ _ _ _ _
| .amad .. => execAmad_ends h _ _ _ _
| .aaddi .. | .aandi .. | .ashli .. | .ashri .. | .asari .. => ahImm_ends h _ _ _ _ _
| .ali .. => execAli_ends h _ _
| .alui .. => execAlui_ends h _ _
| .abeq .. | .abne .. | .ablt .. | .abltu .. => ahBranch_ends h _ _ _ _ _
| .abge .. => execAbge_ends h _ _ _
| .abgeu .. => execAbgeu_ends h _ _ _
| .abq .. => execAbq_ends h _ _
| .ajmp .. => execAjmp_ends h _
| .acall .. => execAcall_ends h _
| .aret .. => execAret_ends h
| .ajr .. => execAjr_ends h _ _ _
| .tnext .. => execTnext_ends h _ _
| .tend .. => execTend_ends h
| .spawn .. => execSpawn_ends h _ _ _
| .fan .. => execFan_ends h _ _
| .gang .. => execGang_ends h _ _
| .tqpush .. => execTqpush_ends h _ _
| .ld .. => execLd_ends h _ _ _ _
| .st .. => execSt_ends h _ _ _ _
| .ldg .. => execLdg_ends h _ _ _ _
| .stg .. => execStg_ends h _ _ _ _
| .latm .. => execLatm_ends h _ _ _ _
| .atom .. => execAtom_ends h _ _ _ _ _ _
| .put .. => execPut_ends h _ _ _ _
| .msg .. => execMsg_ends h _ _ _ _
| .wcfg .. => execWcfg_ends h _ _
| .wstart .. => execWstart_ends h _
| .wstop .. => execWstop_ends h _
| .wflags .. => execWflags_ends h _ _
| .wpos .. => execWpos_ends h _ _ _ _
| .cpy .. => execCpy_ends h _ _
| .cpyw .. => execCpyw_ends h _ _
| .winset .. => execWinset_ends h _ _
| .winget .. => execWinget_ends h _ _ _
| .pflist .. => execPflist_ends h _
| .rcpy .. => execRcpy_ends h _ _ _ _
| .rcfg .. => execRcfg_ends h _ _
| .rwait .. => execRwait_ends h _ _
| .rresv .. => execRresv_ends h _ _
| .rprod .. => execRprod_ends h _
| .rcons .. => execRcons_ends h _
| .rslot .. => execRslot_ends h _ _ _
| .ssweep .. => execSsweep_ends h _ _ _
| .add .. | .sub .. | .mul .. | .mulh .. | .mulhu .. | .and .. | .or .. | .xor .. | .shl .. | .shr .. | .sar .. | .min .. |
    .max .. | .minu .. | .maxu .. | .slt .. | .sltu .. | .seq .. => ehAlu_ends h _ _ _ _ _ _
| .div .. | .divu .. | .rem .. | .remu .. => ehDiv_ends h _ _ _ _ _ _ _
| .sel .. => execSel_ends h _ _ _ _
| .clz .. | .popc .. => ehUnary_ends h _ _ _ _ _
| .sext .. => execSext_ends h _ _ _
| .addi .. | .andi .. | .ori .. | .xori .. | .shli .. | .shri .. | .sari .. => ehImm_ends h _ _ _ _ _
| .li .. => execLi_ends h _ _
| .lui .. => execLui_ends h _ _
| .fadd .. => execFadd_ends h _ _ _ _ _
| .fsub .. => execFsub_ends h _ _ _ _ _
| .fmul .. => execFmul_ends h _ _ _ _ _
| .fma .. => execFma_ends h _ _ _ _ _
| .fmin .. => execFmin_ends h _ _ _ _
| .fmax .. => execFmax_ends h _ _ _ _
| .fcmp .. => execFcmp_ends h _ _ _ _ _
| .fcvt .. => execFcvt_ends h _ _ _ _ _ _
| .fsgn .. => execFsgn_ends h _ _ _ _ _
| .fclass .. => execFclass_ends h _ _ _
| .frnd .. => execFrnd_ends h _ _ _ _
| .epb .. => execEpb_ends h _ _
| .ebnz .. => execEbnz_ends h _ _ _
| .vadd .. | .vsub .. | .vmul .. | .vmulh .. | .vmin .. | .vmax .. | .vminu .. | .vmaxu .. | .vand .. | .vor .. | .vxor .. |
    .vshl .. | .vshr .. | .vsar .. | .vsadd .. | .vsaddu .. => vInt_ends h _ _ _ _ _ _ _ _
| .vcmp .. => execVcmp_ends h _ _ _ _ _
| .vsel .. => execVsel_ends h _ _ _ _ _
| .vfadd .. | .vfsub .. | .vfmul .. => vFp_ends h _ _ _ _ _ _ _ _
| .vfma .. => execVfma_ends h _ _ _ _ _ _
| .vfmin .. => execVfmin_ends h _ _ _ _ _ _
| .vfmax .. => execVfmax_ends h _ _ _ _ _ _
| .vfcmp .. => execVfcmp_ends h _ _ _ _ _
| .vfcvt .. => execVfcvt_ends h _ _ _ _ _ _
| .vfsgn .. => execVfsgn_ends h _ _ _ _ _
| .vfclass .. => execVfclass_ends h _ _ _
| .vfred .. => execVfred_ends h _ _ _ _
| .vdot .. => execVdot_ends h _ _ _ _ _
| .voptw .. => execVoptw_ends h _ _ _ _
| .vmov .. => execVmov_ends h _ _ _ _ _
| .vsplat .. => execVsplat_ends h _ _ _ _ _
| .vext .. => execVext_ends h _ _ _ _
| .vins .. => execVins_ends h _ _ _ _
| .vperm .. => execVperm_ends h _ _ _ _ _ _
| .vshuf .. => execVshuf_ends h _ _ _ _ _
| .vnarrow .. => execVnarrow_ends h _ _ _ _ _
| .vwiden .. => execVwiden_ends h _ _ _ _ _
| .vslide .. => execVslide_ends h _ _ _ _ _
| .vqpack .. => execVqpack_ends h _ _ _ _ _ _
| .vqunpk .. => execVqunpk_ends h _ _ _ _ _ _
| .vscale .. => execVscale_ends h _ _ _ _
| .vmpop .. => execVmpop_ends h _ _ _ _
| .vmfirst .. => execVmfirst_ends h _ _ _ _
| .vrot .. => execVrot_ends h _ _ _ _ _
| .cord .. => execCord_ends h _ _ _ _
| .vcord .. => execVcord_ends h _ _ _ _
| .sset .. => execSset_ends h _ _ _
| .sread .. => execSread_ends h _ _
| .sadd .. => execSadd_ends h _ _ _ _
| .smrg .. => execSmrg_ends h _ _ _ _
| .vsread .. => execVsread_ends h _ _
| .vsaddStamped .. => execVsaddStamped_ends h _ _ _ _
| .vsmrg .. => execVsmrg_ends h _ _ _ _
| .rsld .. => execRsld_ends h _ _ _ _
| .rsst .. => execRsst_ends h _ _ _ _
| .tvld .. => execTvld_ends h _ _
| .mloadn .. | .mloadw .. => loadTile_ends h _ _ _ _
| .mjob .. => execMjob_ends h _ _
| .mwait .. => execMwait_ends h _ _
| .mpoll .. => execMpoll_ends h _ _
| .mpub .. => execMpub_ends h _ _ _
| .msub .. => execMsub_ends h _ _ _
| .munsub .. => execMunsub_ends h _
| .mchain .. => execMchain_ends h _ _ _
| .msend .. => execMsend_ends h _ _ _
| .mcap .. => execMcap_ends h _ _ _
| .mhnd .. => execMhnd_ends h _
| .mdone .. => execMdone_ends h _ _ _
| .bgemv .. => execBgemv_ends h _ _
| .bwait .. => execBwait_ends h _ _
| .coll .. => execColl_ends h _ _
| .cwait .. => execCwait_ends h _ _
| .csig .. => execCsig_ends h _ _ _ _
| .bar .. => execBar_ends h _ _ _ _
| .vote .. => execVote_ends h _ _ _
| .stepadv .. => execStepadv_ends h _
| .fence .. => execFence_ends h _ _
| .fenceSc .. => execFenceSc_ends h _
| .fenceBank .. => execFenceBank_ends h
| .wait .. => execWait_ends h _ _ _ _ _
| .csrr .. => execCsrr_ends h _ _
| .csrw .. => execCsrw_ends h _ _
| .csrs .. => execCsrs_ends h _ _
| .csrc .. => execCsrc_ends h _ _
| .trap .. => execTrap_ends h _
| .eret .. => execEret_ends h
| .halt .. => execHalt_ends h
| .nop .. => execNop_ends h
| .feat .. => execFeat_ends h _ _ _
| .dbrk .. => execDbrk_ends h _
| .loop .. => execLoop_ends h _ _
| .loopi .. => execLoopi_ends h _
| .loopw .. => execLoopw_ends h _ _ _
| .lbrk .. => execLbrk_ends h _
| .himm .. => execHimm_ends h _
| .hmod .. => execHmod_ends h _ _ _ _ _
| .hsched .. => execHsched_ends h _ _ _ _
| .nopHint .. => execNopHint_ends h _ _
| .illegalInstruction .. => execIllegalInstruction_ends h _
| .fetchDeliver .. => execFetchDeliver_ends h _ _
| .walkerFetch .. => .eventHbm h (State.walkerFetch_hbm _ _ _ _)
| .walkerStoreWrite .. => .eventHbm h (State.walkerWrite_hbm _ _ _ _)
| .translationWalk .. => .eventHbm h (State.translationWalk_hbm _ _ _ _)
| .pageBringUp .. => .event (fun _ => State.pageBringUp_canonical h)
| .backgroundScrub .. => .event (fun _ => State.backgroundScrub_canonical h)
| .startMessage .. => .eventHbm h (State.startMessage_hbm _ _ _ _)
| .coreArrive .. => .eventHbm h (State.coreArrive_hbm _ _ _)
| .risingPennant .. => .eventHbm h (State.risingPennant_hbm _ _)
| .pollTimer .. => .eventHbm h (State.pollTimer_hbm _ _)
| .poll .. => .eventHbm h (State.poll_hbm _ _ _)
| .corePark .. => .eventHbm h (State.corePark_hbm _ _)
| .decideCommit .. => .event (fun _ => State.decideCommit_canonical h)
| .decideAbort .. => .event (fun _ => State.decideAbort_canonical h)
| .donePennant .. => .eventHbm h (State.donePennant_hbm _ _)
| .resume .. => .eventHbm h (State.resume_hbm _ _)
| .watchdogExpiry .. => .eventHbm h (State.watchdogExpiry_hbm _ _)
| .deltaArrive .. => .eventHbm h (State.deltaArrive_hbm _ _ _)
| .matrixJobStart .. => .event (State.arbitrate_canonical h _ _)
| .drainRow .. => .event (.of_toOption (State.drainNext_canonical h _))
| .matrixJobComplete .. => .eventHbm h (State.matrixJobComplete_hbm _ _)
| .chainForward .. => .eventHbm h (State.chainForward_hbm _ _)
| .streamPublishRead .. => .event (.of_toOption (State.publishRead_canonical h _ _))
| .copyReusable .. => .event (fun _ => State.copyReusable_canonical h)
| .copyVisible .. => .eventHbm h (State.copyVisible_hbm _ _ _)
| .copyFault .. => .event (fun _ => State.copyFault_canonical h)
| .pfeRun .. => .event (fun _ => State.pfeRun_canonical h)
| .pfeLand .. => .event (State.pfeLand_canonical h _)
| .sweepComplete .. => .event (fun _ => State.sweepComplete_canonical h)
| .bgemvComplete .. => .event (.of_toOption fun _ => State.bankRun_canonical h)
| .nbuFault .. => .event (fun _ => State.nbuFault_canonical h)
| .collStart .. => .event (.of_toOption fun _ => State.collBegin_canonical h)
| .collComplete .. => .event (.of_toOption (State.collFinish_canonical h _ _))
| .collTimeout .. => .eventHbm h (State.collTimeout_hbm _ _ _)
| .timingReplay .. => .eventHbm h (State.timingReplay_hbm _ _ _)
| .currentLimit .. => .eventHbm h (State.currentLimit_hbm _ _)
| .thermalTrip .. => .eventHbm h (State.thermalTrip_hbm _ _ _ _)
| .derate .. => .eventHbm h (State.derate_hbm _ _ _)
| .lwpost .. => .next (h.of_eq (State.lwpost_hbm _ _ _))
| .lwcancel .. => .next (h.of_eq (State.lwcancel_hbm _ _ _))
| .lwcqhead .. => .next (h.of_eq (State.lwcqhead_hbm _ _ _))
| .registerWrite .. => .event (fun _ => State.registerWrite_canonical h)
| .launchSelect .. => .event (fun _ => State.launchSelect_canonical h)
| .gatePass .. => .event (.of_toOption fun _ => State.passGate_canonical h)
| .recomputeDrop .. => .eventHbm h (State.recomputeDrop_hbm _ _)
| .split .. => .next (h.of_eq (State.split_hbm _ _))
| .merge .. => .next (h.of_eq (State.merge_hbm _ _))
| .release .. => .next (h.of_eq (State.release_hbm _ _))
| .paddockConfigWrite .. => .next (h.of_eq (State.paddockConfigWrite_hbm _ _ _ _))
| .vfBind .. => .next (h.of_eq (State.vfBind_hbm _ _ _))
| .setpte .. => .event (State.teRun_canonical h (State.setpteCmd_canonical h))
| .fetch .. => .event (State.teRun_canonical h (State.fetchCmd_canonical h))
| .evict .. => .event (State.teRun_canonical h (State.evictCmd_canonical h))
| .hwrite .. => .event (State.teRun_canonical h (State.hwriteCmd_canonical h))
| .hread .. => .event (State.teRun_canonical h (State.hreadCmd_canonical h))
| .shres .. => .event (State.teRun_canonical h (h.of_eq (State.shresCmd_hbm _)))
| .saveSignal .. => .eventHbm h (State.saveSignal_hbm _ _)
| .copySaveDone .. => .eventHbm h (State.copySaveDone_hbm _ _)
| .restoreDone .. => .eventHbm h (State.restoreDone_hbm _ _)
| .exportTenant .. => .next (h.of_eq (State.exportTenant_hbm _))
| .importTenant .. => .next (State.importTenant_canonical h _)
| .importConfirm .. => .eventHbm h (State.importConfirm_hbm _ _)
| .abandon .. => .next (h.of_eq (State.abandon_hbm _))
| .warmReset .. => .event (fun _ => State.warmReset_canonical h)
| .warmResetOverrun .. => .event (State.warmResetOverrun_canonical)
| .wrcmdResume .. => .eventHbm h (State.wrcmdResume_hbm _ _)
| .wdbudget .. => .next (h.of_eq (State.wdbudget_hbm _ _))
| .start .. => .event (State.start_canonical)
| .membershipLoad .. => .next (h.of_eq (State.membershipLoad_hbm _))
| .d2dFlitReceive .. => .eventHbm h (State.d2dFlitReceive_hbm _ _ _ _ _)
| .d2dNak .. => .eventHbm h (State.d2dNak_hbm _ _ _)
| .moduleRetrain .. => .eventHbm h (State.moduleRetrain_hbm _ _ _)
| .edgeDown .. => .eventHbm h (State.edgeDown_hbm _ _)
| .llynnalFlitReceive .. => .eventHbm h (State.llynnalFlitReceive_hbm _ _ _ _ _)
| .portRetrain .. => .eventHbm h (State.portRetrain_hbm _ _)
| .heartbeatFlit .. => .eventHbm h (State.heartbeatFlit_hbm _ _ _)
| .deviceFailed .. => .eventHbm h (State.deviceFailed_hbm _ _ _)
| .pwcmd .. => .next (h.of_eq (State.pwcmd_hbm _ _))
| .powerStateApply .. => .eventHbm h (State.powerStateApply_hbm _ _)
| .pwgate .. => .next (h.of_eq (State.pwgate_hbm _ _))
| .pwhbm .. => .next (h.of_eq (State.pwhbm_hbm _ _))
| .stage .. => .next (h.of_eq (State.stage_hbm _))
| .commitSvn .. => .next (h.of_eq (State.commitSvn_hbm _))
| .getVersion .. => .eventHbm h (State.getVersion_hbm _ _)
| .getCapabilities .. => .eventHbm h (State.getCapabilities_hbm _ _)
| .negotiateAlgorithms .. => .eventHbm h (State.negotiateAlgorithms_hbm _ _ _ _ _ _)
| .getCertificate .. => .eventHbm h (State.getCertificate_hbm _ _)
| .challenge .. => .eventHbm h (State.challenge_hbm _ _ _)
| .getMeasurements .. => .eventHbm h (State.getMeasurements_hbm _ _ _)
| .keyExchange .. => .eventHbm h (State.keyExchange_hbm _ _ _)
| .finish .. => .eventHbm h (State.finish_hbm _ _ _)
| .setkey .. => .eventHbm h (State.setkey_hbm _ _ _)
| .tdispLockInterface .. => .eventHbm h (State.tdispLock_hbm _ _)
| .tdispStartInterface .. => .eventHbm h (State.tdispStart_hbm _ _)
| .stopInterface .. => .eventHbm h (State.stopInterface_hbm _ _)
| .decideProceed .. => .eventHbm h (State.decideProceed_hbm _ _ _)
| .globalAccessPerformed .. => .event (fun _ => State.globalAccessPerformed_canonical h)
| .moduleRetrainDone .. => .eventHbm h (State.moduleRetrainDone_hbm _ _ _ _ _)
| .portRetrainDone .. => .eventHbm h (State.portRetrainDone_hbm _ _ _)
| .currentFallsBack .. => .eventHbm h (State.currentFallsBack_hbm _ _)
| .debuggerAttach .. => .eventHbm h (State.debuggerAttach_hbm _ _ _ _)
| .debuggerResume .. => .eventHbm h (State.debuggerResume_hbm _ _ _)
| .recoverySelfTest .. => .eventHbm h (State.recoverySelfTest_hbm _ _ _)
| .rovasCommand .. => .next (h.of_eq (State.rovasCommand_hbm _))
| .elhead .. => .next (h.of_eq (State.elhead_hbm _ _))

theorem perform_ends (w : Work) : Ends (s.perform w) := by
  have fault : Ends (.fault .noSuchUnit) := by rintro t ⟨⟩
  cases w with
  | idle => exact .next h
  | chore c => exact .next (State.runChore_canonical h c)
  | turn t =>
    cases t with
    | context c k =>
      refine .ite ?_ fault
      have hturn := State.contextTurn_canonical h c k
      split
      · next ht => exact .next (by rwa [ht] at hturn)
      · next ht => exact exec_ends (by rwa [ht] at hturn) _
    | event i => exact .ite (exec_ends h i) fault
    | memoryError src user addr corrected => exact .ite (.next (h.of_eq (State.memoryError_hbm _ _ _ _ _))) fault
    | poisonLine c addr => exact .ite (.next (h.of_eq (State.poisonLine_hbm _ _ _))) fault
    | spdmUnlisted fn version => exact .ite (.next (h.of_eq (State.spdmUnlisted_hbm _ _ _))) fault
    | pcieError addr corrected => exact .next (h.of_eq (State.logError_hbm _ _))
    | temperature d t => exact .next (h.of_eq (State.temperature_hbm _ _ _))
    | lend mask => exact .next h

end

/-- Settles O6: the beat and the choice of the work leave the memory alone, and whatever the work is, what carries it out keeps
the memory canonical. -/
theorem everyStepKeepsMemoryCanonical : Obligations.EveryStepKeepsMemoryCanonical := by
  intro s t h hstep
  have hs : Canonical s.hbm := h
  exact perform_ends (hs.of_eq ((State.nextWork_hbm _).trans (State.beat_hbm _))) _ t hstep

end Sys2Proof.Machine
